-- ==== Sys2Proof/Word.lean ====
section
/-! DEFINITION. The word types of the model: bytes, the 32-bit and 64-bit words of registers, records and descriptors
(R4), and the numbers that name a part of the module (a PCIe function, a partition, a cluster, a site, a channel …). -/
namespace Sys2Proof

/-- One byte of memory, of a record or of a descriptor. -/
abbrev Byte := BitVec 8
/-- A 16-bit field (R4). -/
abbrev W16 := BitVec 16
/-- A 32-bit register, word or record field (R4, R257). -/
abbrev W32 := BitVec 32
/-- A 64-bit field: an address of host memory, a Reckoner value (R339). -/
abbrev W64 := BitVec 64

/-- A PCIe function: 0 the PF, 1 to 8 the VFs (R251). -/
abbrev Fn := Fin 9
/-- A partition number (R262). -/
abbrev PartId := Fin 8
/-- A context number (R262). -/
abbrev CtxId := Fin 64
/-- A ring number; submission, completion and token rings of one number are three rings (R260). -/
abbrev RingId := Fin 256
/-- A compute site index 10·y + x (R14). -/
abbrev SiteId := Fin 100
/-- A logical cluster or segment number of the cluster map (R31). -/
abbrev Cluster := Fin 100
/-- A fabric position 12·(y + 1) + (x + 1), x and y from −1 to 10 (R282). -/
abbrev Pos := Fin 144
/-- A DIMM channel or bay 12·side + bay (R38, R317). -/
abbrev Chan := Fin 48
/-- A Consort port (R427). -/
abbrev Port := Fin 4
/-- A clock region (R331). -/
abbrev Region := Fin 25
/-- A physical mark (R290). -/
abbrev MarkId := Fin 8192
/-- A die of the 122: 0 to 99 the compute sites, 100 to 121 the ring dies in the order of the table of R15. -/
abbrev DieId := Fin 122
/-- An ownership granule of segments 0 to 95 (R154). -/
abbrev GranuleId := Fin 24576

end Sys2Proof
end

