-- ==== Sys2Proof/Syntax.lean ====
section
/-! DEFINITION. The commands of the block: one constructor of Instr for each row of spec/opcode_table.json, with the
operands the row's rules give it. A command that stands for an event carries what the world outside the block supplies at
that event (a value written to a register, bytes read from host memory, a sensor's reading, a test's finding, a frame of the
link); everything else comes from the State.
Rests on the log entries (notes/assumptions/<n>.md) 28 (DESIGN CHOICE). -/
namespace Sys2Proof

/-! ### Operand types shared by several rows -/

/-- The reply of host memory to a read of the W96 (R251, R261): the bytes came, or the read returned poisoned data, an error
or no completion. -/
inductive HostRead where
  | ok
  | failed
  deriving DecidableEq, Repr

/-- An error that an ECC stage finds (R140, R142, R145). -/
inductive EccKind where
  | correctable
  | uncorrectable
  deriving DecidableEq, Repr

/-- How many bits are flipped in each of the eight codewords of a word of a core store or segment, as the ECC stage meets them (R140). -/
abbrev WordFlips := List Nat

/-- The function whose mailbox was written, and whether its command block could be read (R261). -/
structure SetupHdr where
  fn   : Fn
  read : HostRead := .ok
  deriving DecidableEq, Repr

/-- The 8-byte header of a submission descriptor as read from host memory (R267). -/
structure DescHdr where
  irqNow : Bool := false
  tag    : W32 := 0
  read   : HostRead := .ok
  errors : List (Nat × WordFlips) := []    -- words of the shared store that it reads with bits flipped, by address / 64 (R142)
  seqCopy : Option (Fin 2) := none         -- the copies of the sequence engine differ as they form the step of a STEP: the one at fault (R384)
  deriving DecidableEq, Repr

/-- The lowest sample of VDD_CORE that a Sextant block has taken in a second, in mV, with what ran at its time (R352). -/
structure VoltLow where
  vmin  : Nat
  time  : W64
  ctx   : Byte := 0xFF
  op    : W32 := 0xFFFFFFFF
  phase : Byte := 0
  deriving DecidableEq, Repr

/-- The body of a SEQ_ADMIT descriptor (R267). -/
structure AdmitArgs where
  tokenRing  : Byte
  stopSet    : Byte := 0xFF
  topK       : W16 := 0
  promptLen  : W32
  maxLen     : W32
  promptAddr : W32
  temp       : W32 := 0
  topP       : W32 := 0x3F800000
  seed       : W32 := 0
  hostTag    : W64 := 0
  deriving DecidableEq, Repr

/-- The command block of CTX_CONFIG (R262), its fields as they stand in the block. -/
structure CtxConfigBlock where
  context      : Byte
  sections     : Byte
  layers       : Byte := 0
  kvHeads      : Byte := 0
  kvFormat     : Byte := 0
  headsPerPage : Byte := 0
  poolPages    : W32 := 0
  stepTable    : W32 := 0
  auditRate    : W16 := 0
  kselStep     : W16 := 0
  auditWindow  : W16 := 0
  returnFlag   : W16 := 0
  missHigh     : W32 := 0
  missLow      : W32 := 0
  kselMax      : W32 := 0
  auditSeed    : W32 := 0
  clearMask    : BitVec 128 := 0
  stopSets     : List (List W32) := []
  deriving DecidableEq, Repr

/-- The command block of RING_CREATE (R262). -/
structure RingBlock where
  kind          : Byte
  ring          : Byte
  context       : Byte
  sizeLog2      : W16
  vector        : W16 := 0xFFFF
  base          : W64
  wbAddr        : W64
  compRing      : W16 := 0
  coalesceCount : W16 := 0
  coalesceUs    : W32 := 0
  deriving DecidableEq, Repr

/-- Who sends a mark operation (R301). -/
inductive MarkSrc where
  | context (c : CtxId)
  | host
  | firmware
  deriving DecidableEq, Repr

/-- What a flit sent again comes to (R283): it is acknowledged, or the retry fails, where the receiver may have the flit and its
acknowledgement be lost. -/
inductive FlitOutcome where
  | acknowledged
  | failed (received : Bool)
  deriving DecidableEq, Repr

/-- What a DIMM's SPD says when it is read (R51, R307). -/
structure Spd where
  readsWell : Bool      -- reads correctly and its checksums pass
  mrdimm    : Bool      -- a DDR5 MRDIMM
  speed     : Nat       -- marked speed, MT/s
  capGb     : Nat       -- marked capacity, GB
  identity  : W64 := 0
  deriving DecidableEq, Repr

/-- A connector whose cable presence is sensed (R55). -/
inductive CableConn where
  | pcie
  | consort (p : Port)
  deriving DecidableEq, Repr

/-- What begins a cold start (R402, R404). -/
inductive ColdCause where
  | inputQualified
  | onOrder
  | wake
  | faultCleared
  deriving DecidableEq, Repr

/-- A unit as chart entries and event records name it (R25, R400). -/
structure UnitRef where
  unit : Byte
  x    : Byte := 0x7F
  y    : Byte := 0x7F
  a    : W16 := 0
  b    : W16 := 0
  c    : W32 := 0
  deriving DecidableEq, Repr

/-- The result of one start-up test of a unit (R410): it failed twice, it failed once and then passed, or its stage ended
before it was tested. -/
inductive StartupResult where
  | failedTwice
  | failedOnce
  | untested
  deriving DecidableEq, Repr

/-- A unit that did not simply pass the start-up self-test (R409, R410). -/
structure StartupFinding where
  cls    : Byte
  unit   : UnitRef
  result : StartupResult
  deriving DecidableEq, Repr

/-- What the boot ROM finds in one firmware bank (R508): whether the dual signature, the security version's place in the
manifest and the service image's hash verify. -/
structure BankCheck where
  verifies        : Bool
  securityVersion : W32 := 0
  version         : W32 := 0
  formats         : List Byte := []
  deriving DecidableEq, Repr

/-- What stands in a burst of a DIMM subchannel (R311): a sound codeword, or one with errors in some of its 80 byte symbols. -/
inductive BurstFinding where
  | clean
  | errors (sub : Fin 2) (symbols : List (Fin 80))
  deriving DecidableEq, Repr

/-- What the world shows during a stage of a start (R404, R413): the findings of its tests. Each stage reads the fields that
belong to it. -/
structure StageReport where
  sv0Works    : Bool := true
  sv1Works    : Bool := true
  banks       : List (Nat × BankCheck) := []    -- 0 A, 1 B, 2 recovery; copy 1's at 3, 4, 5
  findings    : List StartupFinding := []
  spds        : List (Chan × Spd) := []
  trainFails  : List (Chan × Bool) := []        -- failed three trainings; true: the loopback fails too (R316)
  ports       : List (Port × BitVec 8 × BitVec 128) := []   -- lanes that train, and the serial number reached (R427, R429)
  memFails    : List Chan := []                 -- uncorrectable twice in R408
  memBursts   : List (Chan × Nat × BurstFinding) := []   -- bursts that the memory test finds in error (R312, R408)
  linkWidth   : Nat := 16
  linkSpeed   : Nat := 7
  deriving DecidableEq, Repr

/-- A reading of the coolant sensors (R60), in 0.01 °C and 0.01 L/min. -/
structure Coolant where
  inlet    : Int
  outlet   : Int
  flow     : Nat
  dewPoint : Int := 0
  deriving DecidableEq, Repr

/-- A wrong result that a fault makes an array deliver: the pass row, the column (64 is the checksum) and the 32 bits that
arrive at the drain (R108). -/
structure Upset where
  row  : Nat
  col  : Fin 65
  bits : W32
  deriving DecidableEq, Repr

/-- A tile or streamed operand in a core store: base line, format code and scale kind (R123, R124, R64), and the elements c of a
stored row by which its side area is laid out (R77); 0 where its rows fill their granules. -/
structure OperandRef where
  line     : Nat
  fmt      : BitVec 4
  scale    : BitVec 2
  sideLine : Nat := 0
  elems    : Nat := 0
  deriving DecidableEq, Repr

/-- A weight-tile load (R96): where the whole tile lies. -/
structure TileLoad where
  tile    : OperandRef
  parity  : Bool := false      -- a parity error in the staging buffer (R120)
  differs : Bool := false      -- in an audit step, the two decoders' tile rows differ (R387)
  deriving DecidableEq, Repr

/-- What the read path of a drain finds when it reads an accumulator row, a row's online-softmax state, or the capture entry (R120). -/
inductive DrainError where
  | accumulator (row : Nat) (kind : EccKind)
  | softmax (row : Nat) (kind : EccKind)
  deriving DecidableEq, Repr

/-- The operands of a pass (R101 to R106). -/
structure PassArgs where
  left    : OperandRef
  rows    : Nat                -- tokens (WS) or left rows (OS)
  kLen    : Nat := 128
  kBase   : Nat := 0
  stride  : Nat := 1           -- granule columns of the left tile
  baseRow : Nat := 0
  add     : Bool := true
  tau     : BitVec 4 := 0
  eps     : Byte := 0
  parity  : Bool := false      -- a parity error in a feeder queue or scale buffer (R120)
  errors  : List DrainError := []   -- errors in what its drain reads (R120)
  owner   : Option Nat := none      -- the engine instruction that the pass is, whose read ranges end with its last verdict (R100)
  late    : Bool := false      -- a scale half was not full when the pass was due (R127)
  differs : Bool := false      -- in an audit step, the two online-softmax runs differ (R387)
  deriving DecidableEq, Repr

/-- The destination of an accumulator row's conversion (R107, R84): a stored row of a tile of the given granule columns, from byte x, with
its side area (R77, R123). -/
structure ConvertArgs where
  fmt   : BitVec 4
  scale : BitVec 2 := 0
  round : BitVec 2 := 0
  nosat : Bool := false
  seed  : W32 := 0
  index : Nat := 0            -- index of the row's first element (R182)
  line  : Nat
  columns : Nat := 1
  row   : Nat := 0
  x     : Nat := 0
  sideLine : Nat := 0
  elems : Nat := 0            -- elements of a stored row (R77); 0 where rows fill their granules
  error : Option EccKind := none   -- an error in the accumulator row as it is read (R120)
  deriving DecidableEq, Repr

/-- A softmax start (R113): m at −∞, or read as FP32 from the core store, a row's word after another from a line. -/
inductive SoftStart where
  | negInf
  | stored (line : Nat)
  deriving DecidableEq, Repr

/-- Where an OS pass sends its rows (R104, R106, R113, R114): the accumulator; the online-softmax unit as scores, with σ and the
count of valid columns of each row, whether the softmax starts, and the place and format the probabilities go to; the output accumulator as a
value pass; or, with no product, the finish, which writes acc × reciprocal(l), and m and l when asked. -/
inductive OsDest where
  | accumulator
  | scores (rows : List (W32 × Nat)) (start : Option SoftStart) (d : ConvertArgs)
  | values
  | finish (line : Nat) (ml : Bool)
  deriving DecidableEq, Repr

/-- A range of core-store lines an engine instruction names (R131). -/
structure RangeReq where
  base  : Nat
  count : Nat
  write : Bool
  deriving DecidableEq, Repr

/-- What an engine instruction does once it issues (R131 to R139). -/
inductive EngineWork where
  | transferIn (ss : Nat) (line : Nat) (words : Nat) (tile : Option (BitVec 4)) (columns : Nat := 0)
      -- shared store to core store; an operand of elements names its format, and a tile slot is expanded (R248); the words go to the
      -- rows of a tile of some granule columns, or with 0 to a linear region (R123, R124)
  | transferOut (line : Nat) (ss : Nat) (words : Nat) (columns : Nat := 0)     -- core store to shared store
  | compute (reads : List Nat := [])      -- a pass or a kernel instruction, with the words that it reads, as line × 64 + bank
  deriving DecidableEq, Repr

/-- An engine instruction of one core (R131, R132). -/
structure EngineInstr where
  owner    : Nat
  engine   : Nat := 0
  ranges   : List RangeReq
  work     : EngineWork := .compute []
  errors   : List (Nat × WordFlips) := []  -- words of the store that it reads with bits flipped, as line × 64 + bank
  storeErrors : List (Nat × WordFlips) := [] -- words of the shared store that its transfer reads with bits flipped, by address / 64
  finished : List (Nat × Bool) := []       -- earlier instructions whose write (true) or read ranges have been released by now (R133)
  deriving DecidableEq, Repr

/-- A memory that is scrubbed, mapped and written back: a core store, an accumulator buffer, or a segment (R150). -/
inductive StoreRef where
  | core (c : Cluster) (k : Fin 7)
  | accumulator (c : Cluster) (m : Fin 4) (a : Fin 4)
  | segment (n : Cluster)
  deriving DecidableEq, Repr

/-- An error of the hardware that is detected while an operation runs (R378, R387): class 0x02 in an audit step, class 0x03 by
a checker copy; the cluster and the core (0xFF for the whole cluster) that hold the unit. One that names a word of the shared store, by
address / 64, is what a read of that word finds (R142, R145), and one that names a burst of a DIMM, by channel × 2^38 + address, what a read of
it finds (R311 to R313). -/
structure HwFault where
  cls     : Byte
  cluster : Cluster
  core    : Byte := 0xFF
  row     : Option (Nat × Nat) := none     -- the row that shows the fault, and the rows that the V-cores or the arrays divide (R172, R523, R525)
  word    : Option (Nat × WordFlips) := none
  burst   : Option (Nat × BurstFinding) := none
  seqCopy : Option (Fin 2) := none         -- class 0x03 of the sequence engine: the copy at fault
  deriving DecidableEq, Repr

/-- What one cluster measured of an operation (R371). -/
structure Measure where
  cluster   : Cluster
  busy      : List Nat         -- cycles by operand-pair class: narrow, standard, wide, FP32
  accesses  : Nat
  special   : Nat
  dimmBytes : Nat
  flits     : Nat
  wallTime  : Nat
  freq      : Nat
  deriving DecidableEq, Repr


/-- A mesochronous crossing that leaves its guard band (R333): one of a region's islands, or of the link from a router to the south or the east. -/
inductive Crossing where
  | region (r : Region)
  | link (at_ : Pos) (south : Bool)
  deriving DecidableEq, Repr

/-- What makes a channel retrain (R314). -/
inductive RetrainCause where
  | oscillator
  | temperature
  | errorRate
  | period
  deriving DecidableEq, Repr

/-- A phase fault of R350. -/
inductive PhaseFaultKind where
  | shorted
  | opened
  | overload
  | underload
  deriving DecidableEq, Repr

/-- A first-stage converter (R346). -/
inductive Converter where
  | region (r : Region)
  | base (k : Fin 4)
  deriving DecidableEq, Repr

/-- A crack-detect loop (R353). -/
inductive CrackLoop where
  | field (k : Fin 64)
  | die (d : DieId)
  | package (s : SiteId)
  deriving DecidableEq, Repr

/-- How a targeted self-test ends by its own finding (R391): it reproduced the error and located it, or reproduced it
without locating it, or did not reproduce it, or (class 0x01) reproduced the mismatch on both arrays with identical bits. A
test of several groups (R390, class 0x15) may locate more than one. -/
inductive TestFinding where
  | located (unit : UnitRef) (others : List UnitRef := [])
  | replayed (own sibling : List (List W32)) (isolated : List (Nat × List W32 × List W32))
      -- class 0x01 (R112): the 65 results of each replay on the failing array and on its sibling, and of both with all rows but one zeroed
  | unlocated
  | notReproduced (ranToEnd : Bool)
  | sameOnBoth
  deriving DecidableEq, Repr

/-- The header of a Consort frame (R431). -/
structure FrameHdr where
  port      : Port
  good      : Bool := true        -- its CRC passes and its MAGIC is 0x434E
  linkSeq   : W32 := 0
  streamSeq : W32 := 0
  epoch     : W32 := 0
  ctx       : Byte := 0xFF
  time      : W64 := 0
  deriving DecidableEq, Repr

/-- The payload of an IDENTITY frame (R432). -/
structure IdentityBody where
  serial    : BitVec 128
  orderCode : Byte
  stepping  : Byte := 1
  mode      : Byte
  role      : Byte
  version   : W32
  pairId    : W64
  epoch     : W32
  placeable : Nat := 8                 -- groups that the module can place
  frames    : List Nat := []           -- free DIMM frames of its channels in service
  ownPartition : Bool := false
  deriving DecidableEq, Repr

/-- The digest record of R451. -/
structure DigestBody where
  step    : W32
  ctx     : Byte
  status  : Byte
  rows    : W32
  records : W32
  dShared : W64
  dKv     : W64
  dToken  : W64
  dState  : W64
  time    : W64 := 0
  deriving DecidableEq, Repr

/-- The payload of a data frame (R432): point, object, address and data, and which words of a row carry a form tag (R245). -/
structure DataBody where
  point   : W32
  object  : Byte
  address : W64
  bytes   : List Byte
  tags    : List (Fin 64) := []
  deriving DecidableEq, Repr

/-- The payload of a pair probe (R433). -/
structure ProbeBody where
  nonce   : W32
  pairId  : W64
  serial  : BitVec 128
  epoch   : W32
  role    : Byte
  running : Bool
  held    : Bool
  time    : W64 := 0
  deriving DecidableEq, Repr

/-- Redfish and console roles (R471, R488). -/
inductive Role where
  | readOnly
  | operator
  | administrator
  deriving DecidableEq, Repr

/-- How a Redfish client authenticates: by a session, or by HTTP Basic with the name and password of an account (R469). -/
inductive Auth where
  | session (id : Nat)
  | basic (account password : Nat)
  deriving DecidableEq, Repr

/-- The path that orders a command of the management side (R490). -/
inductive MgmtPath where
  | redfish (who : Auth)
  | console
  | pldm
  deriving DecidableEq, Repr

/-- The settings of the store (R467, R468, R434). -/
inductive Setting where
  | trainMode | pwrCap | pwrAutoWake | pwrMode | errAuditInterval
  | cnsMode | cnsPairId | cnsRole | cnsStepLoss | cnsHoldMax | cnsTakeover | cnsPartnerAddr
  | svcIpMode | svcIpv4 | svcIpv6 | svcHttpsPort | svcCollectorAddr | svcCollectorPort | svcStreamLevel
  | svcSessionTimeout | svcConsoleBaud | svcConsoleIdle
  deriving DecidableEq, Repr

/-- The resources of R470 that a GET may name. -/
inductive Resource where
  | root | chassis | systems | managers | chassisW96
  | sensor (id : Nat) | powerLimit | systemW96 | memory (b : Chan) | processor (s : SiteId)
  | manager (d : Fin 2) | networkProtocol (d : Fin 2) | ethernet (d : Fin 2) | events (d : Fin 2) | logbook (d : Fin 2)
  | accountService | sessionService | certificateService | updateService
  | settings | chart | context (c : CtxId) | mark (c : CtxId) (v : W16)
  deriving DecidableEq, Repr

/-- A write to accounts, sessions or certificates (R469, R470). -/
inductive AccountWrite where
  | create (name : Nat) (password : Nat) (role : Role)
  | remove (name : Nat)
  | password (name : Nat) (password : Nat)
  | endSession (id : Nat)
  | certificate (digest : W64)
  deriving DecidableEq, Repr

/-- The values of ComputerSystem.Reset (R470). -/
inductive ResetType where
  | on
  | forceRestart
  | powerCycle
  deriving DecidableEq, Repr

/-- The power states of R363. -/
inductive PowerState where
  | on
  | idle
  | doze
  | sleep
  | off
  deriving DecidableEq, Repr

/-- The body of a console line after its first word, where the arguments are well formed (R489); none where they are missing,
extra or malformed. -/
abbrev Args (α : Type) := Option α

/-- A firmware image entry of a manifest (R497). -/
structure ImageEntry where
  target  : Byte
  offset  : W32
  length  : W32
  hash    : BitVec 384
  deriving DecidableEq, Repr

/-- A firmware manifest body (R497). -/
structure Manifest where
  format          : W32 := 1
  version         : W32
  securityVersion : W32
  orderCodes      : Byte
  minStepping     : Byte
  recovery        : Bool := false
  keyRevoke       : BitVec 4 := 0
  formats         : List Byte := []
  totalLen        : W32
  images          : List ImageEntry
  reservedZero    : Bool := true
  deriving DecidableEq, Repr

/-- One SITE_LIMITS entry of the configuration record (R27). -/
structure SiteLimit where
  power : W16
  clock : Byte
  deriving DecidableEq, Repr

/-- The body of a configuration record (R27). -/
structure ConfigRecord where
  format       : W32 := 1
  revision     : W32
  serial       : BitVec 128
  orderCode    : Byte
  maxClock     : Byte
  maxCap       : W16
  minCap       : W16 := 90
  clusterDis   : BitVec 128
  spareSites   : List Byte
  channelDis   : W64
  consortDis   : Byte
  limits       : List SiteLimit
  reservedZero : Bool := true
  deriving DecidableEq, Repr

/-- A chart entry (the table above R25), its CRC as a verdict. -/
structure ChartEntry where
  seqNo   : W32
  lifeSec : W64
  source  : Byte
  unit    : UnitRef
  action  : Byte
  cause   : Byte
  crcOk   : Bool := true
  deriving DecidableEq, Repr

/-- The body of a chart revision (R511). -/
structure ChartRevision where
  format       : W32 := 1
  serial       : BitVec 128
  upToSeq      : W32
  entries      : List ChartEntry
  reservedZero : Bool := true
  deriving DecidableEq, Repr

/-- The signed object of a package (R496). -/
inductive SignedObject where
  | manifest (m : Manifest)
  | record (r : ConfigRecord)
  | revision (r : ChartRevision)
  deriving DecidableEq, Repr

/-- A package as it arrives (R496 to R498): its header, the body of its signed object, the 3,072 bytes of the signature block (R492), and the
images. -/
structure Package where
  magic      : W32 := 0x50574B47
  kind       : Byte
  reserved   : BitVec 24 := 0
  objectLen  : W32
  totalLen   : W32
  object     : SignedObject
  block      : List Byte := []
  images     : List (List Byte) := []
  deriving DecidableEq, Repr

/-- A debug unlock object (R516): its body, and the bytes of its signature block. -/
structure UnlockObject where
  format       : W32 := 1
  lifetime     : W32
  serial       : BitVec 128
  nonce        : BitVec 256
  perms        : W32
  reserved     : W32 := 0
  block        : List Byte := []
  deriving DecidableEq, Repr

/-- A chain of the relay (R500). -/
inductive RelayChain where
  | compute
  | memory
  | consort
  | host
  | service
  deriving DecidableEq, Repr

/-- A part of a page copy of R323: a page, or a whole pool block. -/
structure PageRef where
  ctx  : CtxId
  page : Nat
  deriving DecidableEq, Repr

/-- A set-up command that the primary forwards (R432, R438): its command block as completed. -/
inductive ForwardedSetup where
  | partCreate (partition : Byte) (groups : Byte)
  | partDestroy (partition : Byte)
  | ctxCreate (context : Byte) (partition : Byte) (flags : Byte) (quota : W32)
  | ctxDestroy (context : Byte)
  | ctxConfig (b : CtxConfigBlock)
  | granuleGrant (context : Byte) (granules : List W16)
  | granuleReturn (context : Byte) (granules : List W16)
  | markCreate (context : Byte) (vmark : W16) (kind : Byte) (target : W32) (value : W32) (period : W32) (phys : W16)
  | markShare (context : Byte) (vmark : W16) (owner : Byte) (ownerVmark : W16) (phys : W16)
  | markUnmap (context : Byte) (vmark : W16)
  | markSignal (context : Byte) (vmark : W16) (mode : Byte) (value : W32)
  | gangJoin (context : Byte) (vmark : W16)
  | gangLeave (context : Byte) (vmark : W16)
  deriving DecidableEq, Repr

/-- The commands, one constructor for each row of spec/opcode_table.json. -/
inductive Instr where
  -- Binnacle, bays, cables, input (R38 to R60)
  | attentionButtonRelease
  | attentionButtonHeld15s
  | lampTestStep
  | padTouch (b : Chan)
  | bayMigrationStart (b : Chan)
  | bayPowerOff (b : Chan)
  | baySafeBlue (b : Chan)
  | latchOpen (b : Chan) (presenceLost : Bool)
  | latchClosed (b : Chan) (spd : Spd)
  | dimmEnterService (b : Chan)
  | cablePresenceChange (k : CableConn) (present : Bool) (identity : W64)
  | ethernetLinkChange (up : Bool)
  | wakeNLow (lowUs : Nat)
  | pwrCycleReqRepeat
  | inputFault (mv : Nat) (lastedUs : Nat)
  | aonStop (mv : Nat)
  | coolantSample (r : Coolant)
  -- starts (R402 to R411)
  | coldStart (cause : ColdCause) (pos : BitVec 4)
  | coldStartStage (r : StageReport)
  | heaterEnd (inBand : Bool)
  | perstDeassert
  | segmentExchange (n : Cluster)
  -- matrix cores (R90 to R117)
  | weightTileLoad (c : Cluster) (m : Fin 4) (arrays : List (Fin 4)) (t : TileLoad)
  | wsPass (c : Cluster) (m : Fin 4) (a : Fin 4) (p : PassArgs) (upsets : List Upset)
  | osPass (c : Cluster) (m : Fin 4) (a : Fin 4) (p : PassArgs) (top : OperandRef) (dest : OsDest) (upsets : List Upset)
  | faultCaptureFill (c : Cluster) (m : Fin 4) (error : Option EccKind)
  | accumulatorConvert (c : Cluster) (m : Fin 4) (a : Fin 4) (row : Nat) (d : ConvertArgs)
  | arraySpareSubstitute (c : Cluster) (m : Fin 4) (a : Fin 4) (column : Bool) (index : Nat)
  -- on-chip memory (R118 to R160)
  | engineInstructionIssue (c : Cluster) (core : Fin 7) (i : EngineInstr)
  | ceWriteback (m : StoreRef)
  | patrolScrub (m : StoreRef) (row : Nat) (found : List (Nat × WordFlips))
  | rowMapCopy (m : StoreRef) (row : Nat) (cause : Byte)
  | granuleScrubDone (g : GranuleId)
  | scrubComplete
  -- step programs (R161 to R191)
  | descriptorFetch (p : PartId)
  | operationStart (p : PartId)
  | barrierArrival (p : PartId) (c : Cluster)
  | barrierRelease (p : PartId)
  | operationEnd (p : PartId) (measured : List Measure)
  | operationFail (p : PartId)
  | nop (p : PartId)
  | endStep (p : PartId) (seqCopy : Option (Fin 2))
  | mirrorPointTimer (c : CtxId)
  | matmul (p : PartId) (h : List HwFault)
  | matmulSkip (p : PartId) (h : List HwFault)
  | groupedMatmulPlain (p : PartId) (h : List HwFault)
  | groupedMatmulCombine (p : PartId) (h : List HwFault)
  | groupedMatmulGated (p : PartId) (h : List HwFault)
  | predict (p : PartId) (h : List HwFault)
  | route (p : PartId) (h : List HwFault)
  | move (p : PartId) (h : List HwFault)
  | gather (p : PartId) (h : List HwFault)
  | scatter (p : PartId) (h : List HwFault)
  | embed (p : PartId) (h : List HwFault)
  | kvAppend (p : PartId) (h : List HwFault)
  | attnDecode (p : PartId) (h : List HwFault)
  | attnPrefill (p : PartId) (h : List HwFault)
  | attnTrain (p : PartId) (h : List HwFault)
  | attnBackward (p : PartId) (h : List HwFault)
  | sample (p : PartId) (h : List HwFault)
  | markSignal (p : PartId)
  | markWait (p : PartId)
  | rmsnorm (p : PartId) (h : List HwFault)
  | rotary (p : PartId) (h : List HwFault)
  | gluSilu (p : PartId) (h : List HwFault)
  | gluGelu (p : PartId) (h : List HwFault)
  | relu2 (p : PartId) (h : List HwFault)
  | add (p : PartId) (h : List HwFault)
  | mul (p : PartId) (h : List HwFault)
  | convert (p : PartId) (h : List HwFault)
  | softmax (p : PartId) (h : List HwFault)
  | topk (p : PartId) (h : List HwFault)
  | crossEntropy (p : PartId) (h : List HwFault)
  | rmsnormBwd (p : PartId) (h : List HwFault)
  | gluSiluBwd (p : PartId) (h : List HwFault)
  | gluGeluBwd (p : PartId) (h : List HwFault)
  | relu2Bwd (p : PartId) (h : List HwFault)
  | rotaryBwd (p : PartId) (h : List HwFault)
  | attnDelta (p : PartId) (h : List HwFault)
  | sumsq (p : PartId) (h : List HwFault)
  | adamw (p : PartId) (h : List HwFault)
  | summaryCacheCopy (p : PartId) (summaries : Nat)
  -- rings and descriptors (R260 to R279)
  | ringSqTail (fn : Fn) (ring : RingId) (value : W32)
  | ringCqHead (fn : Fn) (ring : RingId) (value : W32)
  | ringTqHead (fn : Fn) (ring : RingId) (value : W32)
  | nopDescriptor (ring : RingId) (h : DescHdr)
  | stepDecode (ring : RingId) (h : DescHdr) (program : W16)
  | stepPrefill (ring : RingId) (h : DescHdr) (program : W16) (count : W32)
  | stepTraining (ring : RingId) (h : DescHdr) (program : W16) (count : W32)
  | programLoad (ring : RingId) (h : DescHdr) (program : W16) (count : W32) (hostAddr : W64) (bytes : List Byte) (body : HostRead)
  | programUnload (ring : RingId) (h : DescHdr) (program : W16)
  | seqAdmit (ring : RingId) (h : DescHdr) (a : AdmitArgs)
  | seqCancel (ring : RingId) (h : DescHdr) (slot : W32)
  | seqRetire (ring : RingId) (h : DescHdr) (slot : W32)
  | write (ring : RingId) (h : DescHdr) (hostAddr : W64) (ssAddr : BitVec 36) (length : W64) (bytes : List Byte) (body : HostRead)
  | read (ring : RingId) (h : DescHdr) (hostAddr : W64) (ssAddr : BitVec 36) (length : W64)
  | descReservedType (ring : RingId) (h : DescHdr) (type : Byte)
  | busMasterEnableSet (fn : Fn)
  | statusBlockWrite (fn : Fn) (delivered : Bool)
  | coalesceTimeout (token : Bool) (ring : RingId)
  -- registers and resets (R255 to R259, R412 to R426)
  | registerWrite (fn : Fn) (bar : Nat) (offset : Nat) (size : Nat) (value : W32)
  | glbModuleReset (fn : Fn) (value : W32)
  | warmStartStage (r : StageReport)
  | moduleResetReadyTimeout
  | clusterEngineReset (fn : Fn) (index : Byte) (findings : List StartupFinding)
  | memoryDieEngineReset (fn : Fn) (index : Byte) (acknowledged : Bool) (verifyFails : List (Chan × Bool))
  | selfRefreshAckTimeout (die : Fin 12)
  | consortDieEngineReset (fn : Fn) (index : Byte)
  | partReset (fn : Fn) (p : PartId) (value : W32) (findings : List StartupFinding)
  | partCtxReset (fn : Fn) (p : PartId) (value : W32)
  | ctxResetComplete (c : CtxId)
  | ctxResetDrainTimeout (c : CtxId)
  | partCtxResume (fn : Fn) (p : PartId) (value : W32)
  | clkPtmCtrlRequest (value : W32)
  | clkReckNowLoRead
  -- set-up commands (R261, R262)
  | partCreate (h : SetupHdr) (partition : Byte) (groups : Byte)
  | partCreateDone (p : PartId)
  | partDestroy (h : SetupHdr) (partition : Byte)
  | ctxCreate (h : SetupHdr) (context : Byte) (partition : Byte) (flags : Byte) (quota : W32)
  | ctxDestroy (h : SetupHdr) (context : Byte)
  | ctxConfig (h : SetupHdr) (b : CtxConfigBlock)
  | granuleGrant (h : SetupHdr) (context : Byte) (granules : List W16)
  | granuleGrantResume (fn : Fn)
  | granuleReturn (h : SetupHdr) (context : Byte) (granules : List W16)
  | ringCreate (h : SetupHdr) (b : RingBlock)
  | ringDestroy (h : SetupHdr) (kind : Byte) (ring : Byte)
  | setupReserved (h : SetupHdr) (code : Byte)
  | markCreate (h : SetupHdr) (context : Byte) (vmark : W16) (kind : Byte) (target : W32) (value : W32) (period : W32)
  | markShare (h : SetupHdr) (context : Byte) (vmark : W16) (owner : Byte) (ownerVmark : W16)
  | markUnmap (h : SetupHdr) (context : Byte) (vmark : W16)
  | markHostSignal (h : SetupHdr) (context : Byte) (vmark : W16) (mode : Byte) (value : W32) (found : Option EccKind)
  | markInspect (h : SetupHdr) (context : Byte) (vmark : W16) (found : Option EccKind)
  | lookoutSet (h : SetupHdr) (context : Byte) (vmark : W16) (ms : W32)
  | lookoutRead (h : SetupHdr) (context : Byte) (vmark : W16)
  | gangJoin (h : SetupHdr) (context : Byte) (vmark : W16)
  | gangLeave (h : SetupHdr) (context : Byte) (vmark : W16)
  | markMapReservedOp (h : SetupHdr) (op : Byte)
  -- the PCIe link (R280, R281)
  | linkTrained (width : Nat) (speed : Nat) (flit : Bool)
  | surpriseLinkDown
  | perstAssert
  | functionLevelReset (fn : Fn)
  -- the fabric and marks (R282 to R306)
  | flitRetry (at_ : Pos) (south : Bool) (back : Bool) (vc : Fin 4) (nth : Nat) (outcome : FlitOutcome)
  | routeChange
  | markAdd (k : MarkId) (v : W32) (src : MarkSrc) (found : Option EccKind)
  | markSet (k : MarkId) (v : W32) (src : MarkSrc) (found : Option EccKind)
  | markArrive (k : MarkId) (src : MarkSrc) (found : Option EccKind)
  | markReset (k : MarkId) (src : MarkSrc) (found : Option EccKind)
  | markWaitAtLeast (k : MarkId) (t : W32) (c : CtxId) (found : Option EccKind)
  | markWaitArrive (k : MarkId) (c : CtxId) (found : Option EccKind)
  | markWaitTake (k : MarkId) (t : W32) (c : CtxId) (found : Option EccKind)
  | markWakeDelivered (p : PartId)
  | markAckDelivered (p : PartId)
  | gangStart (p : PartId)
  | lookoutRecord (c : CtxId)
  -- DIMM memory (R307 to R326)
  | dimmTempPoll (ch : Chan) (t0 : Int) (t1 : Int)
  | dimmPatrolScrub (ch : Chan) (addr : Nat) (found : BurstFinding)
  | channelRetrain (ch : Chan) (cause : RetrainCause)
  | retrainSlice (ch : Chan) (last : Bool) (failed : Bool)
  | dimmZeroFillDone (c : CtxId)
  | channelTakeOut (ch : Chan)
  | pageCopySwitch (ch : Chan) (page : PageRef)
  | oldPageRelease (ch : Chan)
  -- clocks (R327 to R345)
  | referenceLost (partner : Bool)
  | meridianOutOfLock (at_ : Pos)
  | guardBandBreach (x : Crossing)
  | frequencyChangeRequest (r : Region) (freq : Nat)
  | regionStop (r : Region)
  | regionResume (r : Region)
  | droopAlarm (s : SiteId) (vmin : Nat)
  | droopClear (s : SiteId)
  | droopHoldEnd (r : Region)
  | reckonerEpoch (differences : List Int)
  | ptmDialogue (masterTime : W64) (delay : W32)
  | ptmTimeout
  -- power (R346 to R377)
  | sensePairSwitch (s : SiteId) (bothLost : Bool)
  | phaseFault (s : SiteId) (phase : Fin 24) (kind : PhaseFaultKind)
  | firstStageFail (k : Converter)
  | crackLoopMeasure (l : CrackLoop) (ohms : Nat)
  | sitePowerUpRequest (s : SiteId) (groupCurrent : Nat) (peakOk : Bool)
  | siteAdmissionTimeout (s : SiteId) (step : Nat)
  | siteInService (s : SiteId)
  | powerUpWave (w : Fin 10)
  | sitePowerDown (s : SiteId)
  | thermalSample (d : DieId) (sensors : List Int)
  | siteHeatOff (s : SiteId)
  | siteHeatReturn (s : SiteId)
  | hardThermalTrip (d : Option DieId) (sensor : Int)
  | hardTripReturn (s : SiteId) (finding : TestFinding)
  | navigatorTripRetire (s : SiteId)
  | powerStateEnter
  | capCheck (average peak amps : Nat)
  | marginSample (r : Region) (slacks : List Nat)
  | energyTrim (measured : Nat) (shared : Nat) (model : List (DieId × Nat)) (perContext : List (CtxId × List (DieId × Nat) × Nat))
  -- errors and tests (R378 to R401)
  | targetedSelftestStart (detectNo : W32)
  | selftestOutcome (detectNo : W32) (f : TestFinding)
  | clusterLost (c : Cluster) (cls : Byte)
  -- the pair (R427 to R461)
  | consortPortTrain (p : Port) (lanes : BitVec 8) (serial : BitVec 128)
  | portRetrainTimer (p : Port)
  | heartbeatSend
  | portDown (p : Port)
  | identity (h : FrameHdr) (b : IdentityBody)
  | ack (h : FrameHdr) (ackSeq : W32) (nakSeq : W32)
  | heartbeat (h : FrameHdr) (role : Byte) (mode : Byte) (running : Bool) (pairId : W64)
  | departing (h : FrameHdr) (reason : Byte)
  | timeReq (h : FrameHdr) (t1 : W64)
  | timeResp (h : FrameHdr) (t1 : W64) (t2 : W64) (t3 : W64)
  | setupFwd (h : FrameHdr) (c : ForwardedSetup)
  | descFwd (h : FrameHdr) (ring : Byte) (index : W32) (descriptor : List Byte) (hostBytes : List Byte)
  | stepStart (h : FrameHdr) (step : W32) (start : W64)
  | digest (h : FrameHdr) (d : DigestBody)
  | clusterDigest (h : FrameHdr) (step : W32) (c : Cluster) (d : DigestBody)
  | mirrorData (h : FrameHdr) (d : DataBody)
  | mirrorEnd (h : FrameHdr) (point : W32) (frames : W32)
  | mirrorAck (h : FrameHdr) (point : W32)
  | snapshotData (h : FrameHdr) (d : DataBody)
  | copyReq (h : FrameHdr) (object : Byte) (address : W64) (length : W64)
  | copyData (h : FrameHdr) (d : DataBody)
  | stepRestore (c : CtxId)
  | lockedModeEntry
  | probeSend
  | probeReceive (q : ProbeBody)
  | probeAnswer (q : ProbeBody)
  | probeTimeout
  | holdMaxExpiry
  -- management (R462 to R490)
  | serviceHeartbeat
  | standbyTakeover
  | noServiceDieTimeout
  | redfishGet (who : Auth) (r : Resource)
  | redfishSettingsWrite (who : Auth) (etag : Option W32) (name : Option Setting) (value : Nat)
  | redfishLocate (who : Auth) (on : Bool)
  | redfishPowerLimit (who : Auth) (watts : Nat)
  | redfishReset (who : Auth) (t : ResetType)
  | redfishSetPowerState (who : Auth) (t : PowerState) (force : Bool)
  | redfishFailover (who : Auth)
  | redfishSessionCreate (account : Nat) (password : Nat)
  | sessionTimeout (session : Nat)
  | redfishAccountWrite (who : Auth) (w : AccountWrite)
  | moduleRecord (inputMv : Nat) (inputW : Nat) (energyMj : Nat)
  | dieHealthRecord (d : DieId) (busy : Byte) (energyMj : Nat) (lowest : Option VoltLow)
  | counterRecord (d : DieId)
  | energyRecord (c : CtxId)
  | collectorReachable
  | dailySample (d : DieId) (age0 : W32) (age1 : W32) (vmin : Nat)
  | pldmPowerStateEffecter (value : Byte)
  | pldmModuleResetEffecter (value : Byte)
  | pldmSensorRead (sensor : Nat)
  -- Uasimon (R487 to R489, R521)
  | help (a : Args (Option (List Nat)))
  | id (a : Args Unit)
  | login (a : Args (Nat × Nat))
  | consoleLockExpiry
  | consoleIdleTimeout
  | logout (a : Args Unit)
  | status (a : Args Unit)
  | dies (a : Args Unit)
  | health (a : Args (Int × Int))
  | counters (a : Args (Int × Int))
  | events (a : Args (Option Nat))
  | logbook (a : Args (Int × Int × Option Nat))
  | chart (a : Args (Option Nat))
  | bays (a : Args Unit)
  | consort (a : Args Unit)
  | ctx (a : Args Unit)
  | energy (a : Args (Option Nat))
  | mark (a : Args (Nat × Nat))
  | markPhys (a : Args Nat)
  | lookout (a : Args Nat)
  | settings (a : Args (Option (Option Setting)))
  | setSetting (a : Args (Option Setting × Nat × Option W32))
  | locate (a : Args Bool)
  | cap (a : Args Nat)
  | power (a : Args (PowerState × Bool))
  | resetModule (a : Args Unit)
  | powercycle (a : Args Unit)
  | failover (a : Args Unit)
  | unlock (a : Args (Option UnlockObject))
  | unlockExpiry
  | dump (a : Args (Nat × Nat × Nat))
  -- security and firmware (R491 to R518)
  | packageReceive (path : MgmtPath) (k : Package)
  | relayBlock (chain : RelayChain) (die : Nat) (block : W32) (count : W32) (crcOk : Bool)
  | relayBlockRequest (chain : RelayChain) (die : Nat) (block : W32)
  | relayDigestReport (chain : RelayChain) (die : Nat) (digest : BitVec 384)
  | relayTimeout (chain : RelayChain) (die : Nat)
  | activationOrder (path : MgmtPath)
  | standbyNewVersion (version : W32)
  | activationHoldDrained
  | activationSwitch
  | activationCommit
  | activationFailed (standbyRestart : Bool)
  | getVersion
  | getCapabilities
  | negotiateAlgorithms
  | getDigests
  | getCertificate (slot : Byte) (offset : W16) (length : W16)
  | challenge (slot : Byte) (nonce : BitVec 256)
  | getMeasurements (slot : Byte) (index : Byte) (signed : Bool) (nonce : BitVec 256)
  | spdmUnsupported (code : Byte)
  -- rows added at the end of the table
  | lockedStepStartAtS (p : PartId)
  | unknownCommand (line : List Nat)
  | redfishUnknownUri (who : Auth)
  | snapshotPassComplete (c : CtxId)
  | takeoverOrder (path : MgmtPath)
  | pairFencedRelease (path : MgmtPath)
  | referenceRegained (own : Bool)
  | ringDieFailure (d : DieId)
  | collectorUnreachable
  | completionTimeout (fn : Fn) (ring : Option RingId)
  | ipSettingsTakeEffect
  | attentionButtonContact
  | padContact (b : Chan)
  | padContactRelease (b : Chan)
  | latchSwitchClose (b : Chan)
  deriving DecidableEq, Repr

end Sys2Proof
end

