-- ==== Sys2Proof/Decode.lean ====
section
/-! DEFINITION. The command that a word spells by the bits of spec/opcode_table.json: the table gives no row any bits (every
row's field list is empty, since the block's commands are events and not encoded words), so no word spells one.
Rests on the log entries (notes/assumptions/<n>.md) 27 (DESIGN CHOICE). -/
namespace Sys2Proof

/-- No row of the table has bits: every word is refused. -/
def decodeTableWord (_nbits _w : Nat) : Option Instr := none

end Sys2Proof
end

