-- ==== Sys2Proof/Machine/Num.lean ====
section
/-! DEFINITION. Exact numbers: what an element of any format stands for (R66 to R70), with the exact sums and products of R70,
R80 and R108. A finite number is a sign, a natural number and a power of two; zero keeps its sign (R67). -/
namespace Sys2Proof

/-- An exact value: NaN, an infinity, or (−1)^neg × mag × 2^exp. -/
inductive Num where
  | nan
  | inf (neg : Bool)
  | fin (neg : Bool) (mag : Nat) (exp : Int)
  deriving DecidableEq, Repr

namespace Num

/-- +0. -/
def zero : Num := .fin false 0 0
/-- 1. -/
def one : Num := .fin false 1 0

/-- A natural number as an exact value. -/
def ofNat (n : Nat) : Num := .fin false n 0

/-- An integer as an exact value; 0 is +0. -/
def ofInt (i : Int) : Num := .fin (i < 0) i.natAbs 0

def isNan : Num → Bool
  | .nan => true
  | _ => false

def isInf : Num → Bool
  | .inf _ => true
  | _ => false

/-- NaN or an infinity (R82). -/
def isSpecial : Num → Bool
  | .fin _ _ _ => false
  | _ => true

/-- Value zero, of either sign. -/
def isZero : Num → Bool
  | .fin _ 0 _ => true
  | _ => false

/-- The sign bit; a NaN's sign carries no meaning (R67). -/
def sign : Num → Bool
  | .nan => false
  | .inf n => n
  | .fin n _ _ => n

def neg : Num → Num
  | .nan => .nan
  | .inf n => .inf !n
  | .fin n m e => .fin (!n) m e

/-- The magnitude. -/
def abs : Num → Num
  | .nan => .nan
  | .inf _ => .inf false
  | .fin _ m e => .fin false m e

/-- The signed multiple of 2^e that a finite value is, for e no greater than its exponent. -/
def scaled (neg : Bool) (mag : Nat) (exp : Int) (e : Int) : Int :=
  let k : Int := (mag * 2 ^ (exp - e).toNat : Nat)
  if neg then -k else k

/-- Exact product; 0 × ∞ is NaN (R81). -/
def mul : Num → Num → Num
  | .nan, _ => .nan
  | _, .nan => .nan
  | .inf a, .inf b => .inf (a != b)
  | .inf a, .fin b m _ => if m = 0 then .nan else .inf (a != b)
  | .fin a m _, .inf b => if m = 0 then .nan else .inf (a != b)
  | .fin a m e, .fin b n f => .fin (a != b) (m * n) (e + f)

/-- Exact sum; ∞ − ∞ is NaN (R81). A sum of two zeros is −0 only when both are −0, and a sum of non-zeros that cancels is +0,
as IEEE 754 gives for round-to-nearest. -/
def add : Num → Num → Num
  | .nan, _ => .nan
  | _, .nan => .nan
  | .inf a, .inf b => if a = b then .inf a else .nan
  | .inf a, .fin _ _ _ => .inf a
  | .fin _ _ _, .inf b => .inf b
  | .fin a m e, .fin b n f =>
    let g := min e f
    let k := scaled a m e g + scaled b n f g
    if k = 0 then .fin (a && b) 0 0 else .fin (k < 0) k.natAbs g

def sub (x y : Num) : Num := x.add y.neg

/-- Exact sum of a list, from +0. -/
def sum (l : List Num) : Num := l.foldl add zero

/-- Multiplication by 2^k, exact. -/
def shift (x : Num) (k : Int) : Num :=
  match x with
  | .fin n m e => .fin n m (e + k)
  | y => y

/-- Order of two values that are not NaN, −∞ lowest; a comparison with NaN is false (R108, R214). -/
def lt : Num → Num → Bool
  | .nan, _ => false
  | _, .nan => false
  | .inf a, .inf b => a && !b
  | .inf a, .fin _ _ _ => a
  | .fin _ _ _, .inf b => !b
  | .fin a m e, .fin b n f =>
    let g := min e f
    decide (scaled a m e g < scaled b n f g)

/-- Equality of values; NaN equals nothing, and the zeros are equal. -/
def eqv : Num → Num → Bool
  | .nan, _ => false
  | _, .nan => false
  | x, y => !lt x y && !lt y x

def le (x y : Num) : Bool := lt x y || eqv x y

/-- The larger value, NaN when either is NaN (R113). -/
def max (x y : Num) : Num :=
  match x, y with
  | .nan, _ => .nan
  | _, .nan => .nan
  | a, b => if lt a b then b else a

/-- The smaller value, NaN when either is NaN. -/
def min' (x y : Num) : Num :=
  match x, y with
  | .nan, _ => .nan
  | _, .nan => .nan
  | a, b => if lt b a then b else a

end Num
end Sys2Proof
end

