-- ==== Sys2Proof/Machine/Tab.lean ====
section
/-! DEFINITION. Sparse tables: a list of (key, entry) pairs with keys strictly rising, the plain-data form in which the State
holds everything that is found by a number. -/
namespace Sys2Proof.Machine

/-- A table of entries by number. -/
abbrev Tab (α : Type) := List (Nat × α)

namespace Tab

variable {α : Type}

/-- The entry at a key. -/
def find (t : Tab α) (k : Nat) : Option α :=
  match t with
  | [] => none
  | (j, v) :: r => if j = k then some v else find r k

/-- The entry at a key, or a value that an unlisted key reads as. -/
def getD (t : Tab α) (k : Nat) (d : α) : α := (find t k).getD d

/-- The table with an entry put at a key, in key order. -/
def put (t : Tab α) (k : Nat) (v : α) : Tab α :=
  match t with
  | [] => [(k, v)]
  | (j, w) :: r => if k < j then (k, v) :: (j, w) :: r else if k = j then (k, v) :: r else (j, w) :: put r k v

/-- The table without a key. -/
def drop (t : Tab α) (k : Nat) : Tab α := t.filter (fun e => e.1 ≠ k)

/-- The table with the entry at a key changed where there is one. -/
def modify (t : Tab α) (k : Nat) (f : α → α) : Tab α :=
  match t with
  | [] => []
  | (j, v) :: r => if j = k then (j, f v) :: r else (j, v) :: modify r k f

/-- The table with the entry at a key changed, an unlisted key reading as d. -/
def update (t : Tab α) (k : Nat) (d : α) (f : α → α) : Tab α := put t k (f (getD t k d))

/-- The table with every entry changed. -/
def mapVal (t : Tab α) (f : Nat → α → α) : Tab α := t.map (fun e => (e.1, f e.1 e.2))

/-- The keys in order. -/
def keys (t : Tab α) : List Nat := t.map (·.1)

/-- Whether a key is listed. -/
def has (t : Tab α) (k : Nat) : Bool := (find t k).isSome

/-- The entries whose key and value meet a test. -/
def select (t : Tab α) (p : Nat → α → Bool) : Tab α := t.filter (fun e => p e.1 e.2)

/-- The canonical form: keys strictly rising. -/
abbrev wf (t : Tab α) : Prop := t.Pairwise (fun a b => a.1 < b.1)

/-- The lowest number below n that is no key (R194, R317): none when all are taken. -/
def lowestFree (t : Tab α) (n : Nat) : Option Nat := (List.range n).find? (fun k => !has t k)

end Tab
end Sys2Proof.Machine
end

