-- ==== Sys2Proof/Machine/Parts.lean ====
section
/-! DEFINITION. The parts of the State, subsystem by subsystem: one structure for each thing the spec gives the module (its
registers, rings, tables, buffers, counters, records and modes), each with the value it has at reset as its default.
Rests on the log entries (notes/assumptions/<n>.md) 61 (PRESUMED). -/
namespace Sys2Proof.Machine

/-! ### Flash, chart, configuration record (R19 to R30, R466, R494 to R499) -/

/-- An entry of the anti-rollback log (R494), its CRC as a verdict. -/
structure RollbackEntry where
  seq        : W32 := 0
  fwSv       : W32 := 0
  recoverySv : W32 := 0
  keyRevoked : BitVec 4 := 0
  activeBank : Byte := 0
  chartFloor : W32 := 0
  configFloor : W32 := 0
  crcOk      : Bool := true
  deriving DecidableEq, Repr

/-- A firmware bank (R494, R499): a manifest with the root key slot that signed it, and the images, or nothing written by a package. -/
structure Bank where
  manifest : Option Manifest := none
  slot     : Byte := 0
  images   : List (List Byte) := []
  deriving DecidableEq, Repr

/-- The settings store as one flash copy holds it (R466, R510): values by setting number, the revision, the formats of the
eight groups and the CRC verdict. -/
structure SettingsCopy where
  values  : Tab Nat := []
  rev     : W32 := 0
  formats : List Byte := [0, 0, 0, 0, 0, 0, 0, 0]
  crcOk   : Bool := true
  deriving DecidableEq, Repr

/-- One flash die (R494). -/
structure Flash where
  works    : Bool := true
  chart    : List ChartEntry := []
  record   : Option ConfigRecord := none
  recordOk : Bool := false                  -- its signatures verified when it was written (R27)
  nextRecord : Option ConfigRecord := none  -- written by a package, in use from the next start (R511)
  nextRevision : Option ChartRevision := none
  settings : SettingsCopy := {}
  log      : List RollbackEntry := []
  logHalf  : Bool := false                  -- which half of the anti-rollback region is being filled (R495)
  bankA    : Bank := {}
  bankB    : Bank := {}
  recovery : Bank := {}
  deriving DecidableEq, Repr

/-- A record of R400 as the stream and the logbook hold it. -/
structure EventRecord where
  no      : W32
  kind    : Byte
  cls     : Byte
  outcome : Byte
  unit    : UnitRef
  ctx     : Byte := 0xFF
  status  : Byte := 0xFF
  time    : W64
  lifeSec : W64
  step    : W32 := 0xFFFFFFFF
  op      : W32 := 0xFFFFFFFF
  suspectFrom : W32 := 0xFFFFFFFF
  chartSeq : W32 := 0
  detectNo : W32 := 0
  deriving DecidableEq, Repr

/-- A daily sample of the logbook (R482). -/
structure DailySample where
  lifeSec : Nat
  slacks  : List Nat
  age0    : W32
  age1    : W32
  vMin    : Nat
  hottest : Int
  ce      : Nat
  ue      : Nat
  deriving DecidableEq, Repr

/-- A self-test occurrence that counts under R393. -/
structure Occurrence where
  unit    : UnitRef
  cls     : Byte
  transient : Bool
  lifeSec : Nat
  deriving DecidableEq, Repr

/-- A Binnacle event (R473, type 0x08). -/
structure BinnacleEvent where
  time   : W64
  event  : Byte
  bay    : Byte
  detail : W16
  deriving DecidableEq, Repr

/-- The lifetime logbook (R482), written to both flash copies alike. -/
structure Logbook where
  events      : List EventRecord := []
  daily       : Tab (List DailySample) := []       -- by die
  bins        : Tab Nat := []                        -- (die × 6 + voltage bin) × 8 + temperature bin, seconds
  occurrences : List Occurrence := []
  chartHistory : List ChartEntry := []
  revisions   : List (W32 × Nat) := []
  binnacle    : List BinnacleEvent := []
  deviceMarks : Tab (List Nat) := []                 -- by channel: subchannel × 16 + device
  heaterTimeouts : Nat := 0
  noChartLasting : List (Byte × UnitRef) := []       -- lasting outcomes without a chart code, with their class (R390)
  vMinDay     : Tab Nat := []                        -- by site: the day's lowest V_MIN (R352)
  deriving DecidableEq, Repr

/-! ### Starts, power states, input (R39, R59, R363, R402 to R413) -/

/-- The stages of a cold start (R404). -/
inductive ColdStage where
  | serviceBoot | wires | segments | sites | heater | training | memoryTest | mapReady
  deriving DecidableEq, Repr

/-- The stages of a warm start (R413). -/
inductive WarmStage where
  | sitesDown | scrub | retest | mapReady
  deriving DecidableEq, Repr

/-- What the module is doing as a whole (R402). -/
inductive StartPhase where
  | unpowered                  -- no qualified input: the always-on domain alone, or nothing
  | cold (s : ColdStage)
  | warm (s : WarmStage)
  | running
  deriving DecidableEq, Repr

/-- An order for a power state (R365, R367). -/
structure PowerOrder where
  state : PowerState
  force : Bool := false
  deriving DecidableEq, Repr

/-- What the service dies run (R508, R509). -/
inductive FirmwareMode where
  | bank (b : Fin 2) (fallback : Bool)
  | recovery
  | none
  deriving DecidableEq, Repr

/-- The module's start, power state and input. -/
structure Life where
  aonOn       : Bool := false          -- the always-on domain is supplied (R348, R59)
  inputOk     : Bool := false
  meshLocked  : Bool := false          -- the Meridian mesh has locked since input power arrived (R339)
  phase       : StartPhase := .unpowered
  ready       : Bool := false          -- GLB_STATUS.READY
  resetting   : Bool := true           -- GLB_STATUS.RESETTING
  stageDone10 : Bool := false          -- the 10 to 20 s stage has ended since the last cold start began (R405)
  perstOn     : Bool := true           -- PERST_N asserted
  pos         : BitVec 4 := 0          -- POS[3:0] as latched (R38)
  power       : PowerState := .on
  entering    : Option PowerOrder := none
  orders      : List PowerOrder := []
  resetWaits  : Bool := false          -- a module reset that waits for an entry or an activation (R412)
  resetAt     : Option W64 := none     -- Reckoner value at the acceptance of a module reset (R425)
  cycleReason : Option Byte := none    -- a power-cycle request not yet answered (R39, R486)
  cyclePulses : Nat := 0               -- times PWR_CYCLE_REQ_N has been driven low
  firmware    : FirmwareMode := .none
  heaterTimeout : Bool := false
  abandoned   : List Nat := []         -- units out of service for this power cycle (R410)
  resetsWait  : List Instr := []       -- resets below the module that wait for a cluster exchange (R424)
  deriving DecidableEq, Repr

/-! ### Binnacle and bays (R41 to R55) -/

/-- The state of a bay (R45 to R51). -/
inductive BayState where
  | empty          -- unpowered and empty
  | unpowered      -- its supplies off with the module's, a DIMM seated
  | inService
  | queued         -- removal accepted, behind another bay
  | migrating
  | emptied        -- supplies switched off, above 0.5 V yet
  | safe           -- blue
  | faulted        -- amber steady
  | rejected       -- amber 2 Hz
  | bringUp        -- training, testing, zero-filling
  | mappedOut      -- powered, the DIMM mapped out (R49)
  deriving DecidableEq, Repr

/-- A bay has supply. -/
def BayState.powered : BayState → Bool
  | .inService => true | .queued => true | .migrating => true | .bringUp => true | .mappedOut => true
  | .empty => false | .unpowered => false | .emptied => false | .safe => false | .faulted => false | .rejected => false

/-- A DIMM bay. -/
structure BayRec where
  state       : BayState := .empty
  present     : Bool := false
  latchClosed : Bool := false
  closedAt    : Option W64 := none
  dimm        : Option Spd := none
  blinks      : Bool := false          -- three amber blinks for a refused touch (R45)
  deriving DecidableEq, Repr

/-- A touch pad (R43). -/
structure Pad where
  contact    : Option W64 := none      -- contact since
  released   : Option W64 := none      -- released since; none: never touched
  registered : Bool := false           -- this contact has registered its touch
  armed      : Bool := true            -- a contact may register again
  deriving DecidableEq, Repr

/-- The colours of the Binnacle LEDs, in the order of the lamp test (R41, R44, R45). -/
inductive Colour where
  | green | amber | blue
  deriving DecidableEq, Repr

/-- The Binnacle (R41 to R55). -/
structure Binnacle where
  press     : Option W64 := none       -- contact of the attention button since
  held      : Bool := false            -- this press has passed the 15 s mark
  locate    : Bool := false
  lamp      : Option Colour := none    -- the colour the lamp test shows
  pads      : Tab Pad := []
  bays      : Tab BayRec := []
  removals  : List Nat := []           -- bays in touch order (R47)
  pcieCable : Bool := false
  consortCables : Tab W64 := []        -- identities of the cables present, by port
  ethernet  : Bool := false
  deriving DecidableEq, Repr

/-! ### Wafer: dies, sites, groups, links (R13 to R34, R282 to R285) -/

/-- The supply of a compute site (R355, R358). -/
inductive SitePower where
  | dark | admitted | on
  deriving DecidableEq, Repr

/-- Heat handling of a site (R359 to R362). -/
inductive Heat where
  | normal | marked | off | tripped | tripMarked
  deriving DecidableEq, Repr

/-- A compute site. -/
structure SiteRec where
  power     : SitePower := .dark
  requested : Bool := false            -- waits for admission (R356)
  retired   : Bool := false            -- the cluster at the site is retired
  lost      : Bool := false            -- its fabric port reads down (R396)
  phasesOff : List Nat := []
  primaryOpen : Bool := false          -- the last stage regulates at the duplicate pair (R349)
  bothOpen  : Bool := false
  duplicateOpen : Bool := false        -- the duplicate pair reads open
  heat      : Heat := .normal
  hotSince  : Option W64 := none       -- at or above 105 °C with its region at 1.2 GHz since (R359)
  powerW    : Option Nat := none       -- power the Pilot may allot it at most, none until it has been powered (R29, R351)
  cover     : Option Nat := none       -- logical cluster that covers it
  slip      : Nat := 0                 -- schedule-slip counter (R98)
  suspect   : Bool := false
  clockGated : Bool := true            -- its clock input is gated off at the base wafer (R338)
  clamped   : Bool := true             -- its isolation cells hold the outputs of its die (R358)
  deriving DecidableEq, Repr

/-- The counters of R399. -/
structure DieCounters where
  csChecked : Nat := 0
  csMismatch : Nat := 0
  csSkipped : Nat := 0
  csNoFault : Nat := 0
  auditSteps : Nat := 0
  auditMismatch : Nat := 0
  lockstepDiff : Nat := 0
  hwStepFails : Nat := 0
  testRun : Nat := 0
  testTransient : Nat := 0
  testLasting : Nat := 0
  testInconclusive : Nat := 0
  deriving DecidableEq, Repr

/-- A die of the 122 with its Sextant block (R352, R477, R480, R481). -/
structure DieRec where
  failed    : Bool := false
  temps     : List Int := []           -- sensor readings, 0.1 °C
  oddSince  : Tab W64 := []            -- sensors far from the median, since
  sensorsOut : List Nat := []
  tempMax   : Int := 0
  tempMin   : Int := 0
  vSet      : Nat := 0
  vMin      : Nat := 0
  tMin      : W64 := 0
  vCtx      : Byte := 0xFF
  vOp       : W32 := 0xFFFFFFFF
  vPhase    : Byte := 0
  droops    : Nat := 0
  active    : Option (BitVec 384) := none   -- SHA-384 of the image in the slot that it runs from, and of the one in its other slot (R500)
  other     : Option (BitVec 384) := none
  library   : Option (BitVec 384) := none   -- the kernel library and the energy model that a compute die has loaded (R504)
  model     : Option (BitVec 384) := none
  alarmAt   : Option W64 := none       -- last voltage event record (R352)
  droopAt   : Option W64 := none       -- last droop alarm of its Sextant (R391)
  slacks    : List Nat := []           -- the slack of each margin monitor at its last sample, and the lowest of the second and of the day (R477, R482)
  slackSec  : List Nat := []
  slackDay  : List Nat := []
  hotDay    : Option Int := none       -- the day's hottest sensor (R482)
  age0      : W32 := 0
  age1      : W32 := 0
  ceSecond  : Nat := 0
  ueSecond  : Nat := 0
  detections : Nat := 0
  counters  : DieCounters := {}
  health    : Option (W64 × List Nat) := none   -- TIME and fields of its last die health record (R489)
  deriving DecidableEq, Repr

/-- Flit buffers per input port, and the weights of VC1 to VC3 at an output (R286). -/
def vcBuffers : List Nat := [2, 16, 16, 8]
def vcWeights : List Nat := [4, 4, 1]

/-- A flit that its receiver has not acknowledged: its number on the link, and the retries of it that have failed one after another (R283). -/
structure Flit where
  vc      : Fin 4
  number  : Nat
  retries : Nat := 0
  deriving DecidableEq, Repr

/-- One direction of a link (R283, R286): the sequence number of its next flit, the replay buffer with the flits that have no acknowledgement, oldest
first, and the credits its sender holds for the receiver's buffers. -/
structure LinkDir where
  seq     : Nat := 0
  replay  : List Flit := []
  credits : List Nat := vcBuffers
  deriving DecidableEq, Repr

/-- An output of a router (R286): the input served last on each virtual channel, and what is left of the weights of VC1 to VC3. -/
structure OutPort where
  served : List Nat := [0, 0, 0, 0]
  share  : List Nat := vcWeights
  deriving DecidableEq, Repr

/-- The wafer's groups, links and routes. -/
structure Wafer where
  wires     : Tab (List Nat) := []     -- failed wires of a group, by the group's number
  linksOut  : List (Nat × Bool) := []  -- (west or north position, south)
  routersOut : List Nat := []
  nodesOut  : List Nat := []           -- Meridian nodes out of lock
  routesFor : List (Nat × Bool) := []  -- the links out that the installed tables were computed for (R284)
  longRoutes : Bool := false           -- the installed tables hold a route longer than 22 links (R284)
  stopped   : Bool := false            -- routers accept no packet from their local ports (R285)
  dirs      : Tab LinkDir := []        -- by link direction: 4 × sending position + port (north, east, south, west)
  outs      : Tab OutPort := []        -- by output: 8 × position + port
  crackWarn : List Nat := []
  crackOpen : List Nat := []
  firstStageOut : List Nat := []       -- regions 0 to 24, base stages 25 to 28
  pathsOut  : List (Nat × Nat) := []   -- direct paths out: a compute site and the site of the neighbouring segment (R16)
  couplingsOut : List (Nat × Bool) := []   -- couplings of the Meridian mesh out: west or north position, south (R16)
  alignedAt : Option W64 := none       -- the alignment of the router links when the mesh locked (R333)
  realigned : Tab W64 := []            -- router links aligned since: 2 × west or north position + 1 for south
  deriving DecidableEq, Repr

/-- A pending exchange of R33 and R34: logical n with its replacement m. -/
structure Exchange where
  n : Nat
  m : Nat
  deriving DecidableEq, Repr

/-- The chart and configuration in use, the cluster map and what is derived from them. -/
structure Build where
  record    : Option ConfigRecord := none
  recordBad : Bool := true             -- CONFIG_RECORD_INVALID (R28)
  chart     : List ChartEntry := []    -- entries applied
  volatile  : List ChartEntry := []    -- repairs applied for this power cycle only (R23, R395)
  chartFull : Bool := false
  map       : List Nat := []           -- site of each logical number (R31)
  unmapped  : List Nat := []           -- logical numbers with no cluster (R34)
  exchanges : List Exchange := []
  segmentsOut : List Nat := []         -- logical segments mapped out (R153)
  grade     : Nat := 0                 -- the grade state (R17)
  gradeDue  : Bool := false            -- it has still to be reported: no service die has been active since it changed (R18)
  channelSpeed : Nat := 0              -- MT/s (R308)
  channelGb : Nat := 0                 -- per-channel capacity (R308)
  trainMode : Nat := 0                 -- TRAIN_MODE in effect since the last start (R315)
  deriving DecidableEq, Repr

/-! ### Matrix cores and core stores (R90 to R133) -/

/-- A weight tile in an array's registers: 128 rows of 64 exact values, scales applied, and their row sums (R97). An unlisted
register holds zero. -/
structure LoadedTile where
  rows   : List (List Num) := []
  sums   : List Num := []
  fmt    : BitVec 4 := 0
  scale  : BitVec 2 := 0
  ref    : OperandRef := ⟨0, 0, 0, 0, 0⟩   -- where it lies in the core store, for the capture entry (R111)
  deriving DecidableEq, Repr

/-- One accumulator row: 64 words, FP32 or INT32, poisoned or not (R91, R145), with what R81 counts of it: the operation that last wrote
it, the columns whose starting value was infinite or NaN, those of them that were NaN, those whose INT32 sum has saturated, and whether its final
values have been counted. -/
structure AccRow where
  words  : List W32 := List.replicate 64 0
  poison : Bool := false
  int32  : Bool := false
  op     : W32 × W32 := (0xFFFFFFFF, 0xFFFFFFFF)
  starts : List Nat := []
  nans   : List Nat := []
  sat    : List Nat := []
  counted : Bool := false
  deriving DecidableEq, Repr

/-- The online-softmax state of an accumulator row (R113). -/
structure SoftRow where
  m     : W32 := 0xFF800000
  l     : W32 := 0
  alpha : W32 := 0x3F800000
  deriving DecidableEq, Repr

/-- An array with its drain and its operand buffers (R91, R99, R119). -/
structure ArrayRec where
  shadow   : LoadedTile := {}
  fresh    : Bool := false             -- the tile in the shadow registers awaits the pass that uses it (R98)
  active   : LoadedTile := {}
  output   : List (List W32) := []     -- output registers, by row: 64 data cells and the checksum cell; an unlisted one holds 0
  outShadow : List (List W32) := []
  feeders  : Tab (List Byte) := []     -- what each feeder queue holds, at most 256 bytes
  scales0  : List Byte := []           -- the two halves of the feeder scale buffer
  scales1  : List Byte := []
  scaleHalf : Bool := false            -- the half that serves the current pass
  acc      : Tab AccRow := []          -- an unlisted row holds zeros
  soft     : Tab SoftRow := []
  spareRow : Option Nat := none        -- the logical row whose place the spare row has taken
  spareCol : Option Nat := none
  deriving DecidableEq, Repr

/-- A fault capture entry (R111). -/
structure Capture where
  step     : W32 := 0
  op       : W16 := 0
  ctx      : Byte := 0
  os       : Bool := false
  array    : Byte := 0
  cls      : Byte := 0
  fmtLeft  : Byte := 0
  fmtBcast : Byte := 0
  row      : W16 := 0
  kLen     : W16 := 0
  time     : W64 := 0
  tau      : Byte := 0
  eps      : Byte := 0
  mismatches : W32 := 0
  kBase    : Nat := 0                  -- first K index of the pass
  diff     : W64 := 0
  bound    : W64 := 0
  results  : List W32 := []
  left     : List Byte := []
  bcast    : List Byte := []
  filled   : Bool := false             -- operands copied in from the core store
  readBy   : Bool := false             -- the targeted self-test has read it
  orphan   : Bool := false             -- its context has been destroyed since: no context that has its number now is its own (R159)
  leftRef  : OperandRef := ⟨0, 0, 0, 0, 0⟩
  bcastRef : OperandRef := ⟨0, 0, 0, 0, 0⟩
  stride   : Nat := 1                  -- granule columns of the left tile
  deriving DecidableEq, Repr

/-- An M-core. -/
structure MCore where
  arrays  : Tab ArrayRec := []
  staging : List (List Byte) := []     -- the broadcast bus's staging buffer: at most two tiles as stored, the newer first (R119)
  waiting : List Instr := []           -- weight loads and passes that hold issue, in order (R98, R100)
  capture : Option Capture := none
  deriving DecidableEq, Repr

/-- A held range of a core store's scoreboard (R131). -/
structure Held where
  owner : Nat
  base  : Nat
  count : Nat
  write : Bool
  deriving DecidableEq, Repr

/-- The counters of R160. -/
structure MemCounters where
  ce      : Nat := 0
  ue      : Nat := 0
  dropped : Nat := 0
  poison  : Nat := 0
  mapped  : Nat := 0
  deriving DecidableEq, Repr

/-- A core store, an accumulator buffer or a segment as memory: what repair and scrubbing see of it. Words are numbered
line × 64 + bank in a core store and row × 64 + word in a segment. -/
structure StoreRec where
  queue    : List Nat := []            -- write-back queue (R142)
  written  : List Nat := []            -- words written back, for R144
  remap    : List (Nat × Nat) := []    -- row units mapped, spare numbers (R150)
  badSpares : List (Nat × Nat) := []   -- spares that have failed in a row's place, each with that row (R151)
  badFree  : List (Nat × Nat) := []    -- spares that a test has found failing while they served no row, with a row that draws on the same (R151)
  counters : MemCounters := {}
  deriving DecidableEq, Repr

/-- A core store. -/
structure CoreStore where
  cells    : List (Nat × Byte) := []   -- line × 4096 + bank × 64 + byte
  poison   : List Nat := []
  board    : List Held := []           -- the range scoreboard, at most 16 entries
  waiting  : List EngineInstr := []    -- instructions that wait, in order
  frozen   : Bool := false             -- frozen after a mismatch (R110)
  deriving DecidableEq, Repr

/-- A targeted self-test, queued or running (R389). -/
structure TestRec where
  detectNo : W32
  cls      : Byte
  unit     : UnitRef
  time     : W64 := 0                  -- the instant of the error
  doubt    : Bool := false             -- it fell within 1 µs of a droop alarm of the site, or at a slack below 10 ps (R391)
  part     : Option PartId := none     -- partition whose steps wait (R379)
  ctx      : Byte := 0xFF
  started  : Bool := false
  applied  : Bool := false             -- its repair was applied at detection
  extra    : List W32 := []            -- further detections on the same unit (R394)
  mapped   : Bool := false             -- a row mapped at detection (R395)
  deriving DecidableEq, Repr

/-- A substitution that waits until no operation is in flight on its cluster (R92), with the self-test whose outcome it is, and its code. -/
structure SubDue where
  core   : Nat
  array  : Nat
  column : Bool
  index  : Nat
  source : Byte := 0x03                -- SOURCE of its chart entry
  test   : Option (TestRec × Byte) := none
  deriving DecidableEq, Repr

/-- A cluster's engines. -/
structure ClusterRec where
  cores   : Tab MCore := []
  stores  : Tab CoreStore := []
  stopped : Bool := false              -- the S-core issues nothing more of the operation (R110)
  subs    : List SubDue := []          -- substitutions that wait (R92)
  deriving DecidableEq, Repr

/-! ### Step programs, contexts, sequences (R161 to R250) -/

/-- An operation descriptor (R165), its dimensions as the step supplies them (R162). -/
structure OpDesc where
  opcode : Byte := 0
  phase  : Byte := 0
  split  : Byte := 0
  flags  : Byte := 0
  fmtA   : BitVec 4 := 0
  scaleA : BitVec 2 := 0
  fmtB   : BitVec 4 := 0
  scaleB : BitVec 2 := 0
  fmtD   : BitVec 4 := 0
  scaleD : BitVec 2 := 0
  round  : BitVec 2 := 0
  tau    : BitVec 4 := 0
  eps    : Byte := 0
  layA   : Byte := 0
  layB   : Byte := 0
  layD   : Byte := 0
  layX   : Byte := 0
  seed   : W32 := 0
  m      : Nat := 0
  n      : Nat := 0
  k      : Nat := 0
  g      : Nat := 0
  addrA  : W32 := 0
  addrB  : W32 := 0
  addrD  : W32 := 0
  addrX  : W32 := 0
  p0     : W32 := 0
  p1     : W32 := 0
  p2     : W32 := 0
  p3     : W32 := 0
  rawM   : W32 := 0
  mark   : Option MarkId := none       -- the physical mark, as translated at its fetch (R296)
  deriving DecidableEq, Repr

/-- The counts of a step (R89, R160, R226, R250), in the order of R271. -/
structure Counts where
  convSat : Nat := 0
  accOverflow : Nat := 0
  nanCreated : Nat := 0
  nanDropped : Nat := 0
  intSat : Nat := 0
  checkSkipped : Nat := 0
  accessDenied : Nat := 0
  seqDeferred : Nat := 0
  pagesSealed : Nat := 0
  attnConsidered : Nat := 0
  attnFetched : Nat := 0
  attnBoundMax : W32 := 0
  summaryMiss : Nat := 0
  noToken : Nat := 0
  routeEntries : Nat := 0
  routeOverflow : Nat := 0
  indexDropped : Nat := 0
  tilesBitmap : Nat := 0
  tilesDense : Nat := 0
  auditSampled : Nat := 0
  auditMisses : Nat := 0
  auditMassLost : W32 := 0
  auditChanges : Nat := 0
  deriving DecidableEq, Repr

/-- The kinds of step (R267). -/
inductive StepKind where
  | decode | prefill | training
  deriving DecidableEq, Repr

/-- A row of the step batch (R197, R198). -/
structure StepRow where
  slot  : Nat
  pos   : Nat
  token : W32
  deriving DecidableEq, Repr

/-- A sequence of the step batch (R198). -/
structure StepSeq where
  slot  : Nat
  final : Bool
  first : Nat
  rows  : Nat
  deriving DecidableEq, Repr

/-- The accumulators held by a HOLD_ACC (R178). -/
structure HeldAcc where
  split : Byte
  m     : Nat
  n     : Nat
  int32 : Bool
  rows  : List (List W32)
  zero  : Bool := false                -- a zero-work hold: +0 in every element
  deriving DecidableEq, Repr

/-- A token that SAMPLE selected, or none (R222, R225). -/
structure Sampled where
  slot    : Nat
  token   : Option W32
  logprob : W32
  deriving DecidableEq, Repr

/-- Where a step stands. -/
inductive StepPhase where
  | begun                  -- before operation 0
  | gangWait               -- has arrived at the gang mark (R303)
  | gangHold (s : W64)     -- released with start time S
  | lockedHold (s : W64)   -- a locked-pair step with its start time (R450)
  | between                -- no operation runs
  | running                -- an operation has started
  | signalling             -- MARK_SIGNAL awaits its acknowledgement
  | waiting                -- MARK_WAIT awaits its wake
  | compared               -- a locked-pair step has ended and awaits the partner's digest (R452)
  | ended                  -- has ended, its records waiting for Bus Master Enable (R256)
  deriving DecidableEq, Repr

/-- A running step. -/
structure Step where
  ctx      : CtxId
  ring     : RingId
  index    : W32                       -- submission index
  irqNow   : Bool := false
  tag      : W32 := 0
  kind     : StepKind
  program  : Nat
  number   : W32
  rowCount : Nat
  seqCount : Nat
  rows     : List StepRow := []
  seqs     : List StepSeq := []
  phase    : StepPhase := .begun
  op       : Nat := 0                  -- index of the operation that runs or is next
  current  : Option OpDesc := none
  fetched  : Option OpDesc := none     -- the next operation, fetched and checked (R184)
  fetchBad : Option Byte := none       -- status of a failed check of the next operation
  done     : Bool := false             -- the current operation's work has been done on every cluster
  arrived  : List Nat := []            -- clusters whose arrival the barrier's root has (R294)
  combined : List Nat := []            -- routers of the tree that have sent their combined arrival on (R294)
  portHeld : List Nat := []            -- clusters whose arrival waits at its local port (R285)
  complete : Bool := false             -- the barrier's generation has completed
  released : Bool := false             -- its release has been delivered to every member cluster
  failed   : Option (Byte × W32) := none
  counts   : Counts := {}
  deniedBefore : Nat := 0              -- refused prompt reads of attempts undone for token room, reported with its completion (R524)
  engine   : Counts := {}              -- what the engines have counted of the operation that runs
  zeroOps  : Nat := 0
  held     : Option HeldAcc := none
  kvLayers : List Nat := []            -- layers a KV_APPEND has written in this step
  filled   : List Nat := []            -- directory entries of pages this step filled
  samples  : List Sampled := []
  reserved : List Nat := []            -- directory entries whose pages were reserved at its start
  rotationWas : Option Nat := none     -- the allocator's rotation point before them (R318)
  audit    : Bool := false             -- an audit step (R386)
  auditHits : Tab (Nat × Nat) := []    -- by audit slot: rows sampled, misses (R241)
  auditK   : Tab (Nat × Nat) := []     -- KSEL and the selection count k of the audit, by slot
  dirty    : List Nat := []            -- shared-store rows the step wrote
  kvWords  : List (Nat × Nat × Nat) := []
  started  : W64 := 0
  cacheCap : Nat := 0                  -- summaries its partition's share of the cache holds (R218)
  cacheLayer : Nat := 0                -- layer whose summaries are being copied
  cacheUsed : Nat := 0                 -- summaries of it copied
  cacheBad : List (Nat × Nat × Nat) := []               -- of those, the ones whose DIMM bytes could not be read
  deriving DecidableEq, Repr

/-- KV settings (R195). -/
structure KvConfig where
  layers   : Nat
  heads    : Nat
  fp8      : Bool
  perPage  : Nat
  pool     : Nat
  table    : W32
  deriving DecidableEq, Repr

/-- Audit settings (R240). -/
structure AuditConfig where
  rate     : Nat := 1024
  window   : Nat := 64
  missHigh : W32 := 0x3CA3D70A
  missLow  : W32 := 0x3BA3D70A
  kStep    : Nat := 8
  kMax     : Nat := 65536
  back     : Bool := true
  seed     : W32 := 0
  deriving DecidableEq, Repr

/-- An audit slot (R240, R242). -/
structure AuditSlot where
  extra  : Nat := 0
  dense  : Bool := false
  steps  : Nat := 0                    -- completed steps with sampled rows in this window
  rows   : Nat := 0
  misses : Nat := 0
  ksel   : Nat := 0
  k      : Nat := 0
  deriving DecidableEq, Repr

/-- A loaded program (R269). -/
structure Program where
  base  : Nat                          -- byte address in segment 96
  count : Nat
  deriving DecidableEq, Repr

/-- A page of a context's pool in use (R203). -/
structure PageUse where
  entry : Nat                          -- directory entry that names it
  deriving DecidableEq, Repr

/-- A pool block's place (R317, R319). -/
structure Place where
  chan  : Nat
  frame : Nat
  deriving DecidableEq, Repr

/-- How a context is secured by the pair (R441). -/
inductive Securing where
  | notSecured | syncing | secured
  deriving DecidableEq, Repr

/-- An engine's entry of a Lookout record (R306). -/
structure LookoutEntry where
  score  : Bool
  cluster : Byte
  vmark  : W16
  phys   : W16
  mode   : Byte
  source : Byte
  target : W32
  value  : W32
  lastTime : W64
  deriving DecidableEq, Repr

/-- A Lookout record (R306). -/
structure LookoutRec where
  ctx    : Byte
  part   : Byte
  missed : Byte
  step   : W32
  op     : W32
  quietSince : W64
  recorded : W64
  entries : List LookoutEntry
  deriving DecidableEq, Repr

/-- A context reset in progress (R418, R419). -/
inductive ResetState where
  | none | draining | undrained
  deriving DecidableEq, Repr

/-- A context. -/
structure Context where
  part     : PartId
  usesSeq  : Bool := false
  debug    : Bool := false
  quota    : Nat := 0
  created  : W64 := 0
  kv       : Option KvConfig := none
  stopSets : List (List W32) := []
  audit    : AuditConfig := {}
  slots    : Tab AuditSlot := []
  programs : Tab Program := []
  vmarks   : Tab MarkId := []
  gang     : Option MarkId := none
  halted   : Bool := false
  resumeDue : Bool := false            -- a resume that takes effect when an exchange or a restore ends (R398, R446)
  waitsFor : Bool := false             -- an exchange or a restore holds its resume
  reset    : ResetState := .none
  begun    : Nat := 0                  -- STEP descriptors begun
  opsEnded : Nat := 0
  stepsDone : Nat := 0
  descDone : Nat := 0
  pairHold : Bool := false
  lookoutOn : Bool := false            -- the LOOKOUT state bit
  lookoutMs : Nat := 10
  lookout  : Option LookoutRec := none
  overdue  : Bool := false             -- the present episode meets a record still held (R305)
  episode  : Bool := false             -- the present episode has been recorded
  quietSince : W64 := 0
  total    : Counts := {}              -- the counters of R89, R160 and R250
  pool     : Tab Place := []           -- pool block map (R319)
  used     : Tab PageUse := []         -- pages in use
  copying  : List Nat := []            -- pages that the snapshot pass in progress copies (R204)
  returning : List Nat := []           -- those of them that have been given up, and return to the pool when it ends
  rotation : Option Nat := none        -- channel of the last allocation that stands (R318)
  shortfall : Nat := 0                 -- blocks (R324)
  lastAudit : Option Nat := none       -- last audit step that completed with DONE (R388)
  auditNext : Bool := false            -- the next step to begin is an audit step (R386)
  securing : Securing := .notSecured
  poolCopy : Tab Place := []           -- the primary's pool-block map, as last copied (R439)
  poolThere : Nat := 0                 -- blocks of its pool that the secondary has made (R438)
  dirty    : List Nat := []            -- rows written since the last mirror point (R439)
  point    : Nat := 0                  -- last mirror point made
  secured  : Option Nat := none        -- last point secured
  unsecured : List (Nat × List Nat) := []  -- points sent and not yet secured, with the rows they carry (R440)
  changed  : Bool := false
  restore  : List Nat := []            -- rows awaiting copy back (R446)
  freedSlots : List Nat := []          -- slots freed since the last mirror point
  pagesDue : Tab Nat := []             -- lost pages that await their copy back, with their directory entry (R447)
  energyMj : Nat := 0
  clusterMj : Nat := 0
  clusterMs : Nat := 0
  energyFrom : W64 := 0
  energySteps : Nat := 0
  energyTokens : Nat := 0
  energyLast : Nat := 0                -- energy at the last record
  clusterLast : Nat := 0
  msLast   : Nat := 0
  stuck    : List Nat := []            -- clusters that hold up its reset, to be reset themselves (R419)
  deriving DecidableEq, Repr

/-- A sequence-table entry (R192, R193). -/
inductive SeqState where
  | prefill | decode | stopped | lost
  deriving DecidableEq, Repr

/-- What the sequence engine holds of a slot in use. -/
structure Seq where
  state      : SeqState
  ctx        : CtxId
  tokenRing  : Byte
  stopSet    : Byte
  length     : Nat := 0
  promptLen  : Nat
  prefilled  : Nat := 0
  maxLen     : Nat
  generated  : Nat := 0
  dirBase    : Nat
  dirSpan    : Nat
  stopReason : Byte := 0
  promptAddr : W32
  lastToken  : W32 := 0
  temp       : W32
  topP       : W32
  topK       : Nat
  seed       : W32
  hostTag    : W64
  finalSent  : Bool := false           -- a record with FINAL has been written
  cancel     : Bool := false           -- cancelled while it has a row in a running step
  retire     : Bool := false           -- retired likewise
  recoverDue : Bool := false           -- a RECOVERED record is due when its token ring is created (R459)
  deriving DecidableEq, Repr

/-- A page-directory entry in use (R201). -/
structure DirEntry where
  page    : Nat
  sealedP : Bool := false
  deriving DecidableEq, Repr

/-- A partition's state (R259). -/
inductive PartState where
  | forming | ready | resetting | failed
  deriving DecidableEq, Repr

/-- A partition. -/
structure Partition where
  groups   : List Nat                  -- logical groups, ascending
  state    : PartState := .forming
  step     : Option Step := none
  lastCtx  : Option CtxId := none      -- context of its previous step (R158)
  lastRing : Option RingId := none     -- ring whose step ran last (R268)
  held     : List Nat := []            -- events that hold its steps: tests and resets, by number
  scrubDue : Bool := false             -- its core stores are to be zeroed when the step that runs has left (R157)
  target   : Nat := 40                 -- frequency the Pilot chose, 50 MHz units (R372)
  fn       : Fn := 0                   -- function whose mailbox created it
  mirrored : Bool := false             -- the secondary can form it too (R438)
  deriving DecidableEq, Repr

/-! ### Host interface (R251 to R281) -/

/-- A completion record (R271). -/
structure Completion where
  tag     : W32
  status  : Byte
  type    : Byte
  zero    : Bool
  phase   : Bool
  ctx     : Byte
  ring    : Byte
  index   : W16
  result  : W32
  time    : W64
  op      : W32
  zeroOps : W32
  rows    : W32
  counts  : Counts
  deriving DecidableEq, Repr

/-- A token record (R225). -/
structure TokenRec where
  token   : W32
  slot    : W16
  reason  : Byte
  final   : Bool
  noToken : Bool
  index   : W32
  logprob : W32
  hostTag : W64
  step    : W32
  deriving DecidableEq, Repr

/-- A write of the W96 to host memory, or an interrupt, in the order they are issued (R279). -/
inductive HostWrite where
  | completion (fn : Fn) (addr : W64) (r : Completion)
  | token (fn : Fn) (addr : W64) (r : TokenRec)
  | index (fn : Fn) (addr : W64) (value : W32)
  | data (fn : Fn) (addr : W64) (bytes : List Byte)
  | statusBlock (fn : Fn) (addr : W64) (bytes : List (Nat × W32))
  | result (fn : Fn) (addr : W64) (bytes : List Byte)      -- into the command block, at its offset 0x40 (R261, R297)
  | interrupt (fn : Fn) (vector : Nat) (addr : W64) (data : W32)
  deriving DecidableEq, Repr

/-- A STEP descriptor that has been read, and waits for its turn with the Navigator (R268, R269). -/
structure StepDesc where
  hdr     : DescHdr
  kind    : Byte
  program : W16
  count   : W32
  deriving DecidableEq, Repr

/-- A WRITE or READ descriptor whose bytes are on their way (R269, R417). -/
structure Moving where
  type   : Byte
  tag    : W32
  irqNow : Bool
  host   : W64
  ss     : Nat
  length : Nat
  bytes  : List Byte := []             -- of a WRITE, those not yet moved
  moved  : Nat := 0
  deriving DecidableEq, Repr

/-- A ring (R262, R263). -/
structure Ring where
  ctx      : CtxId
  fn       : Fn
  log2     : Nat
  vector   : Option Nat
  base     : W64
  wb       : W64
  compRing : Nat := 0                  -- submission rings
  coalCount : Nat := 0
  coalUs   : Nat := 0
  prod     : W32 := 0
  cons     : W32 := 0
  reserved : Nat := 0                  -- entries of a completion ring that begun descriptors have reserved
  unsignalled : Nat := 0               -- records written since the ring last raised its vector
  begun    : Option W32 := none        -- index of the descriptor that runs (submission)
  step     : Option StepDesc := none   -- the STEP at its consumer index, ready to begin or waiting (R268)
  waitsFor : List Nat := []            -- token rings that lack the room that STEP needs (R269)
  denied   : Nat := 0                  -- refused prompt reads of the undone attempts of that STEP (R524)
  moving   : Option Moving := none     -- the WRITE or READ that runs
  deriving DecidableEq, Repr

/-- A set-up command that has not completed (R261, R262). -/
inductive SetupPending where
  | partCreate (p : PartId)
  | grant (c : CtxId) (granules : List Nat)
  | signal (c : Byte) (vmark : W16) (mode : Byte) (v : W32)     -- held at the local port (R285)
  deriving DecidableEq, Repr

/-- An entry of an MSI-X table, as PCI Express gives it (R251, R277; PRESUMED: notes/assumptions/61.md). -/
structure MsixVector where
  addr   : W64 := 0
  data   : W32 := 0
  masked : Bool := true
  deriving DecidableEq, Repr

/-- What Advanced Error Reporting holds of a function (R251; PRESUMED: notes/assumptions/61.md). -/
structure ErrorReports where
  uncorrectable   : W32 := 0
  uncorrectableMask : W32 := 0
  correctable     : W32 := 0
  correctableMask : W32 := 0
  deriving DecidableEq, Repr

/-- A PCIe function's registers (R257, R258). -/
structure FnRegs where
  bme      : Bool := false
  event    : BitVec 6 := 0
  mask     : BitVec 6 := 0x3F
  err      : BitVec 6 := 0
  sbLo     : W32 := 0
  sbHi     : W32 := 0
  setupLo  : W32 := 0
  setupHi  : W32 := 0
  status   : Byte := 0                 -- HIF_SETUP_RESULT.STATUS
  pending  : Option SetupPending := none
  unread   : Option Instr := none      -- a set-up command whose block waits for Bus Master Enable (R256)
  eventVec : BitVec 11 := 0
  heartbeat : W32 := 0
  held     : List HostWrite := []      -- writes that wait for Bus Master Enable (R256)
  msixOn   : Bool := false             -- MSI-X Enable (R277)
  msixMask : Bool := false             -- Function Mask
  vectors  : Tab MsixVector := []      -- the MSI-X table, where it differs from its reset state
  pba      : List Nat := []            -- vectors whose pending bit is set
  timeout  : BitVec 4 := 0             -- completion-timeout range of Device Control 2 (R251)
  bars     : Vector W64 2 := Vector.replicate 2 0       -- the addresses of BAR0 and BAR2 (R252)
  reports  : ErrorReports := {}
  deriving DecidableEq, Repr

/-- The link and the PTM registers (R258, R344). -/
structure HostLink where
  up      : Bool := false
  width   : Nat := 0
  speed   : Nat := 0
  flit    : Bool := false
  training : Bool := false
  lanesOut : BitVec 16 := 0            -- lanes lost with a bond group of the host die (R16)
  aspm    : BitVec 2 := 0              -- ASPM Control of Link Control (R251)
  vfBars  : Vector W64 2 := Vector.replicate 2 0        -- the addresses of BAR0 and BAR2 of the VFs, in the SR-IOV capability (R251, R252)
  ptmEnable : Bool := false
  ptmSeq  : W16 := 0
  ptmFailed : Bool := false
  ptmValid : Bool := false
  ptmHost : W64 := 0
  ptmReck : W64 := 0
  ptmDelay : W32 := 0
  nowHi   : W32 := 0                   -- CLK_RECK_NOW_HI as latched
  nowLo   : W32 := 0                   -- the last value CLK_RECK_NOW_LO returned
  ptmOpen : Option W64 := none         -- a dialogue awaits its response, its request sent at this Reckoner value
  deriving DecidableEq, Repr

/-! ### Marks (R290 to R306) -/

/-- The last change of a mark (R301). -/
structure MarkChange where
  time   : W64 := 0
  source : Byte := 0xFD
  op     : Byte := 0xFF
  index  : W16 := 0xFFFF
  step   : W32 := 0xFFFFFFFF
  deriving DecidableEq, Repr

/-- The kinds of mark (R291). -/
inductive MarkKind where
  | counter | barrier | gang
  deriving DecidableEq, Repr

/-- The kinds of wait (R292, R302). -/
inductive WaitMode where
  | atLeast | arrive | take | gang
  deriving DecidableEq, Repr

/-- A registered wait. -/
structure Waiter where
  ctx    : CtxId
  mode   : WaitMode
  target : W32
  since  : W64
  ended  : Option (W16 × W32) := none    -- operation and step of a wait that has outlived its step, which has failed (R300)
  deriving DecidableEq, Repr

/-- A physical mark. -/
structure Mark where
  kind    : MarkKind := .counter
  value   : W32 := 0
  count   : W32 := 0
  target  : W32 := 0
  period  : Nat := 0
  last    : MarkChange := {}
  waiters : List Waiter := []
  members : List CtxId := []           -- contexts of a gang
  arrived : List CtxId := []           -- members that have arrived in the open generation (R304)
  bad     : Bool := false              -- its state has an uncorrectable error (R384)
  deriving DecidableEq, Repr

/-- What a message on VC0 between a Navigator and a mark unit says (R286, R293). A wait's mode is 16 more than that of R295. -/
inductive MsgBody where
  | signal (k : MarkId) (mode : Byte) (v : W32)
  | ack
  | wake
  deriving DecidableEq, Repr

/-- Such a message, with its sequence number for its source and destination (R285). -/
structure Message where
  part : PartId
  unit : Nat
  seq  : Nat
  body : MsgBody
  deriving DecidableEq, Repr

/-- The messages that have been sent and not received: in the fabric, held by their senders at the local ports (R285, R287), or waiting in the replay
buffer before a failed link (R285); and the sequence numbers, by source × 144 + destination. -/
structure MarkNet where
  fabric : List Message := []
  ports  : List Message := []
  stuck  : List Message := []
  sent   : Tab Nat := []
  got    : Tab Nat := []
  deriving DecidableEq, Repr

/-! ### DIMM channels (R307 to R326) -/

/-- The state of a channel (R326). -/
inductive ChanState where
  | inService | out | takingOut | fault | disabled
  deriving DecidableEq, Repr

/-- A DIMM channel. -/
structure ChanRec where
  state    : ChanState := .out
  ce       : Nat := 0
  ue       : Nat := 0
  marks    : List Nat := []            -- marked devices, subchannel × 16 + device
  repeats  : Tab (List (Nat × W64)) := [] -- by device: bursts with correctable errors in the last 24 h, and when (R312)
  retrains : Nat := 0
  tempMax  : Int := 0
  tempTrained : Int := 0
  trainedAt : W64 := 0                 -- the last training (R314)
  hotSince : Option W64 × Option W64 := (none, none)   -- each sensor's first reading above 95 °C since one that was not (R310)
  heatOut  : Bool := false             -- taken out of service for heat
  doubled  : Bool := false             -- refresh doubled
  powerDown : Bool := false            -- its DIMM is in power-down mode (R363)
  retrain  : Option RetrainCause := none
  sliceAt  : Option W64 := none        -- end of the last retraining slice
  trained  : Bool := false
  selfRefresh : Bool := false
  lostPages : Nat := 0
  deriving DecidableEq, Repr

/-- A copy of R323 that has switched and whose old place is not yet released. -/
structure OldPlace where
  ctx   : CtxId
  page  : Nat
  place : Place
  deriving DecidableEq, Repr

/-- The taking out of channels (R323) and zero-fill (R321). -/
structure DimmWork where
  requests : List Nat := []            -- channels in order of request
  forced   : List Nat := []            -- those of them asked out for another cause than a touch, which no touch cancels (R48, R312, R316)
  active   : Option Nat := none
  old      : List OldPlace := []
  fenced   : List (Nat × Place) := []  -- (context, block) fenced until zero-filled
  asked    : List Nat := []            -- memory dies asked for self-refresh (R421)
  deriving DecidableEq, Repr

/-! ### Clocks and power (R327 to R377) -/

/-- The anchor's reference (R328). -/
inductive RefSource where
  | own | partner | holdover
  deriving DecidableEq, Repr

/-- A clock region (R331 to R337, R373, R374). -/
structure RegionRec where
  freq     : Nat := 24                 -- 50 MHz units
  want     : Option Nat := none        -- frequency the idle PLL is locking to
  next     : Option Nat := none        -- a request that arrived during a stop
  behind   : Bool := false             -- a power-up of a site of it was requested before the change, and runs first (R335)
  changedAt : Option W64 := none       -- its last change of frequency
  stopped  : Bool := false
  halved   : Bool := false             -- passes every second edge (R337)
  alarming : List Nat := []            -- sites whose droop alarm stands
  pllOn    : Bool := false             -- its PLLs run: a site of it is powered (R338)
  realign  : Bool := false             -- to be stopped and realigned at its present frequency, for a site that powers up (R355)
  alignedAt : Option W64 := none       -- the last alignment of its crossings (R333)
  alarms   : List W64 := []            -- droop alarms of the last millisecond
  holdAt   : Option Nat := none        -- ceiling while a droop hold lasts (R374)
  heatCap  : Option Nat := none        -- ceiling for heat (R359)
  capStep  : Option Nat := none        -- ceiling for the cap (R370)
  slackCap : Option Nat := none        -- ceiling for slack (R373)
  vdd      : Nat := 700                -- VDD_CORE, mV
  pllA     : Bool := true              -- which of the two PLLs drives the region
  deriving DecidableEq, Repr

/-- An instance's difference from the anchor at an epoch, in ticks, with the anchor's count and what the instance read then (R340). -/
structure Drift where
  d     : Int
  at_   : W64
  floor : W64
  deriving DecidableEq, Repr

/-- The Reckoner instances (R339, R340). -/
structure Reckoner where
  now      : W64 := 0                  -- the anchor instance
  slew     : Int := 0                  -- ticks that the whole count has yet to gain by slewing, of a follower in a pair (R342)
  slewTick : Nat := 0                  -- ticks since the last one gained or lost
  offset   : Tab Drift := []           -- instances that differ from it
  faulty   : List Nat := []
  lifeTicks : Nat := 0                 -- ticks of input power since the last whole second of LIFE_SEC
  lifeSec  : Nat := 0
  deriving DecidableEq, Repr

/-- A learned pair (R371). -/
structure Learned where
  ctx      : CtxId
  phase    : Byte
  clusters : Tab Measure
  insensitive : Bool := false
  deriving DecidableEq, Repr

/-- Clocks and the Pilot. -/
structure Power where
  source   : RefSource := .own
  ownBad   : Bool := false             -- the module's own resonator is lost or failed
  partnerBad : Bool := true
  regions  : Tab RegionRec := []
  learned  : List Learned := []        -- most recently used first, at most 4,096
  admission : List Nat := []           -- sites in order of request (R356)
  waves    : List Nat := []            -- sites of power-up waves still to be admitted (R357)
  nextWave : Nat := 0
  coeffs   : Tab Nat := []             -- the energy coefficient of a die's model, in millionths of the factory's (R377)
  inputMj  : Nat := 0
  coolant  : Coolant := ⟨2500, 3000, 3000, 0⟩
  coolantBad : Bool := false
  deriving DecidableEq, Repr

/-! ### Errors and tests (R378 to R401) -/

/-- A channel to be mapped out for good once it has been taken out of service (R20, R323), with the test whose outcome it is. -/
structure RepairDue where
  chan    : Nat
  source  : Byte
  test    : Option (TestRec × Byte) := none    -- with its outcome code
  deriving DecidableEq, Repr

/-- Errors and their reporting. -/
structure Errors where
  nextNo   : W32 := 1
  tests    : List TestRec := []
  lost     : Nat := 0                  -- EVENTS_LOST
  due      : List RepairDue := []      -- repairs that wait for their channel to be taken out
  seqCopyOff : Bool := false           -- one copy of the sequence engine disabled (R390)
  deriving DecidableEq, Repr

/-! ### Management (R462 to R490) -/

/-- What a report to the management network that is no stream record says. Each names the rule that has it made. -/
inductive NoteKind where
  | chartFull             -- R23
  | chartRepaired         -- R20: a repair is complete; the entry's SEQ_NO
  | configRecordInvalid   -- R28
  | inputFault            -- R59
  | coolantOutside        -- R60
  | cableChange           -- R55
  | cableIdentity         -- R35
  | cableMismatch         -- R429: a port cabled to a third module
  | cycleRepeat           -- R39
  | cycleRequest          -- R486
  | dimmRejected          -- R51
  | dimmBlamed            -- R316: the DIMM in the bay is the cause
  | bayTouchRefused       -- R46
  | latchLoss             -- R50
  | scrubComplete         -- R157
  | heaterTimeout         -- R406
  | undrained             -- R419: a context, a cluster
  | resetRefused          -- R42, R54, R412
  | linkState             -- R280
  | codeMismatch          -- R3
  | pairIdMismatch        -- R429
  | firmwareMismatch      -- R435
  | pairState             -- R435, R436, R456, R461: 1 formed, 2 PAIR_LOST, 3 PAIR_SPLIT, 4 MODE_MISMATCH, 5 SECONDARY_BUSY, 6 mode in force
  | secured               -- R441
  | takeover              -- R458
  | fenced                -- R461
  | digestDiffer          -- R453
  | portState             -- R428, R430
  | partnerSilent         -- R455
  | referenceState        -- R328
  | nodeState             -- R329
  | powerState            -- R363
  | stateRefused          -- R365
  | phaseOff              -- R350
  | converterOff          -- R346, R351
  | crackWarning          -- R353
  | heatOff               -- R360
  | sensorOut             -- R481
  | slackLow              -- R373
  | settingsReset         -- R510
  | packageRefused        -- R498
  | packageAccepted       -- R499
  | relayFailed           -- R503
  | activation            -- R504, R506
  | bankFallback          -- R508
  | unlocked              -- R516, R518
  | serviceDieLost        -- R464
  | recordSelected        -- R28
  | hostPort              -- R390: a cable or the host port is named
  | sensePair             -- R349: a last stage regulates at its duplicate sense pair
  | guardBand             -- R333: a crossing has left its guard band
  | pagesLost             -- R323: the pages of a channel that could not be placed, against its bay
  | deviceMarked          -- R312: a DIMM device is marked, against its bay
  deriving DecidableEq, Repr

/-- What a PlatformEventMessage reports (R485). -/
inductive PlatformKind where
  | grade | inputFault | trip | powerCycle
  deriving DecidableEq, Repr

/-- Records of the stream and reports to the management network (R473), in order of generation. -/
inductive Report where
  | module (time : W64) (fields : List Nat)
  | die (d : DieId) (time : W64) (fields : List Nat)
  | counters (d : DieId) (time : W64) (entries : List (W16 × W16 × W32))
  | event (r : EventRecord)
  | voltage (s : SiteId) (time : W64) (fields : List Nat)
  | energy (c : CtxId) (fields : List Nat)
  | lookout (r : LookoutRec) (parts : Nat)
  | binnacle (e : BinnacleEvent)
  | note (kind : NoteKind) (a : Nat) (b : Nat)
  | grade (state : Nat) (entries : List ChartEntry)     -- the grade state and the chart entries that set it (R18)
  | platformEvent (kind : PlatformKind) (a : Nat)
  deriving DecidableEq, Repr

/-- What the header of a datagram says beyond the module's own figures (R472): its number, the epoch and the service die that sent it. -/
structure DatagramHdr where
  seq   : W32
  epoch : W16
  die   : Fin 2
  deriving DecidableEq, Repr

/-- An account (R469). -/
structure Account where
  name     : Nat
  password : Nat
  role     : Role
  mustChange : Bool := false
  deriving DecidableEq, Repr

/-- A Redfish session (R469). -/
structure Session where
  account : Nat
  role    : Role
  timeout : Nat                        -- SVC_SESSION_TIMEOUT when it was made (R468)
  last    : W64
  deriving DecidableEq, Repr

/-- The console's levels (R488). -/
inductive Level where
  | none | view | operate | admin | vendor
  deriving DecidableEq, Repr

/-- The console session (R488, R518). -/
structure Console where
  level    : Level := .none
  account  : Nat := 0
  failures : Nat := 0
  locked   : Bool := false
  lockedAt : W64 := 0
  nonce    : Option (BitVec 256 × W64) := none
  nonces   : Nat := 0                  -- nonces drawn
  unlocked : Option (W32 × W64 × Bool) := none   -- lifetime, accepted at, DUMP
  idle     : Nat := 900
  last     : W64 := 0
  deriving DecidableEq, Repr

/-- An answer to a request of the management side or to SPDM. -/
inductive Answer where
  | redfish (status : Nat) (body : List Nat)
  | task (id : Nat)
  | lines (values : List (Nat × Nat)) (ok : Bool)
  | err (code : Nat)
  | text (codes : List Nat)
  | bytes (b : List Byte)
  | events (r : List EventRecord)
  | chartEntries (r : List ChartEntry)
  | logbook (l : Logbook)
  | record (r : Report)
  | settings (rev : W32) (values : List (Setting × Nat))
  | lookout (r : Option LookoutRec)
  | pldm (value : Int)
  | refusal (code : Nat)
  | spdm (code : Nat) (b : List Byte)
  deriving DecidableEq, Repr

/-- A service die (R462 to R465). -/
structure ServiceDie where
  works   : Bool := false
  version : W32 := 0
  deriving DecidableEq, Repr

/-- The management side. -/
structure Mgmt where
  sv0      : ServiceDie := {}
  sv1      : ServiceDie := {}
  active   : Option (Fin 2) := none
  epoch    : W16 := 0
  seq      : W32 := 0
  accounts : List Account := [⟨0, 0, .administrator, true⟩]
  sessions : Tab Session := []
  nextSession : Nat := 1
  tasks    : Nat := 0
  console  : Console := {}
  certificate : W64 := 0
  net      : Tab Nat := []             -- network settings in effect (R468)
  netDue   : Bool := false
  baud     : Nat := 115200
  stream   : List Report := []         -- records sent, in order
  headers  : List DatagramHdr := []    -- of the datagrams that carried them: a record's first
  kept     : List Report := []         -- records kept while the collector is unreachable (R401, R475)
  reachable : Bool := true             -- the collector's address resolves
  notes    : List Report := []         -- reports to the management network outside the stream
  answers  : List Answer := []
  i3c      : List Report := []
  graceNo  : Option W64 := none        -- since when no service die works (R465)
  heardAt  : Option W64 := none        -- when the standby last had a heartbeat (R463)
  inputMv  : Nat := 0                  -- mean input voltage and power of the last second (R476)
  inputW   : Nat := 0
  deriving DecidableEq, Repr

/-! ### The pair (R427 to R461) -/

/-- The roles of R432 and R433. -/
inductive PairRole where
  | primary | secondary | independent
  deriving DecidableEq, Repr

/-- Frames the module has sent (R432), in order. -/
inductive FrameOut where
  | identity (b : IdentityBody)
  | ack (p : Port) (ack : W32) (nak : W32)
  | heartbeat (p : Port) (role : Byte) (mode : Byte) (running : Bool) (pairId : W64)
  | departing (p : Port) (reason : Byte)
  | timeReq (t1 : W64)
  | timeResp (t1 : W64) (t2 : W64) (t3 : W64)
  | setup (c : ForwardedSetup)
  | desc (ctx : Byte) (ring : Byte) (index : W32) (descriptor : List Byte) (bytes : List Byte)
  | stepStart (ctx : Byte) (step : W32) (s : W64)
  | digest (d : DigestBody)
  | clusterDigest (ctx : Byte) (step : W32) (cluster : Nat) (d : DigestBody)
  | mirrorData (ctx : Byte) (d : DataBody)
  | mirrorEnd (ctx : Byte) (point : W32) (frames : W32)
  | mirrorAck (ctx : Byte) (point : W32)
  | snapshot (ctx : Byte) (d : DataBody)
  | copyReq (ctx : Byte) (object : Byte) (address : W64) (length : W64)
  | copyData (ctx : Byte) (d : DataBody)
  | probe (q : ProbeBody)
  | probeAnswer (q : ProbeBody)
  deriving DecidableEq, Repr

/-- A Consort port (R427 to R430). -/
structure PortRec where
  lanes   : Nat := 0                   -- 0: not trained
  serial  : BitVec 128 := 0            -- serial number that the port reaches
  down    : Bool := true
  training : Bool := false
  sendSeq : W32 := 0
  recvSeq : W32 := 0                   -- next LINK_SEQ expected in order
  replay  : List (W32 × FrameOut) := []   -- frames not acknowledged, with their LINK_SEQ
  mapped  : Bool := false              -- the port mapped out by the chart
  lanesOut : List Nat := []            -- lanes mapped out by the chart
  awake   : Nat := 0                   -- in SLEEP, the lanes that the port returns to (R363)
  deriving DecidableEq, Repr

/-- A frame sent: its port, LINK_SEQ and STREAM_SEQ, and the sender's epoch and Reckoner at transmission (R431). -/
structure SentFrame where
  port   : Nat
  link   : W32
  stream : W32
  frame  : FrameOut
  epoch  : W32 := 0
  time   : W64 := 0
  deriving DecidableEq, Repr

/-- A mirror point in the secondary's log (R444), until all its frames are there. -/
structure PointLog where
  ctx     : CtxId
  point   : W32
  frames  : List DataBody := []
  count   : Option W32 := none         -- frames in the point, once its end has arrived
  deriving DecidableEq, Repr

/-- A step that the primary of a locked pair has begun and this secondary has yet to begin (R449). -/
structure FwdStep where
  ctx     : CtxId
  ring    : RingId
  index   : W32
  kind    : StepKind
  program : Nat
  count   : Nat
  deriving DecidableEq, Repr

/-- The pair. -/
structure Pair where
  ports    : Tab PortRec := []
  formed   : Bool := false
  role     : PairRole := .independent
  mode     : Nat := 0                  -- mode in force: 0 none, 1 independent, 2 mirrored, 3 locked
  entering : Bool := false             -- held at a boundary for locked mode (R449)
  epoch    : W32 := 0
  seenEpoch : W32 := 0                 -- highest epoch seen from the partner
  partner  : Option IdentityBody := none
  silent   : Bool := false
  departed : Bool := false
  fenced   : Bool := false             -- PAIR_FENCED
  alone    : Bool := false             -- a survivor that runs alone (R460)
  held     : Bool := false             -- holds its secured contexts while the partner is silent (R457)
  heldAt   : W64 := 0                  -- since when
  mismatch : Bool := false             -- the two CNS_MODE values differ (R436)
  busy     : Bool := false             -- SECONDARY_BUSY holds and has been reported (R436)
  taking   : Bool := false             -- a takeover has begun, and its sites are powering up (R433, R456)
  descIn   : Tab (List Byte) := []     -- host bytes of a forwarded descriptor that is not yet whole, by context (R432)
  nonce    : W32 := 0
  probing  : Bool := false
  answered : Bool := false             -- a probe of this silence has been answered
  silentAt : W64 := 0                  -- since when the partner is silent
  probedAt : Option W64 := none        -- when the last probe of this silence went
  asked    : List (CtxId × Byte × W64 × W64) := []      -- copies asked for while the clusters whose digests differ are tested (R453)
  partnerRuns : Bool := false
  partnerRole : Byte := 2              -- ROLE and mode of its last heartbeat
  partnerMode : Nat := 0
  log      : List PointLog := []       -- incoming points (R444)
  sent     : List SentFrame := []
  probes   : List FrameOut := []       -- UDP datagrams of the pair probe (R433)
  streamOut : Tab W32 := []            -- next STREAM_SEQ of a stream, type × 256 + context
  streamIn : Tab W32 := []             -- next STREAM_SEQ expected of a stream
  early    : List Instr := []          -- frames that arrived before their turn in their stream
  digests  : List DigestBody := []     -- own digest records awaiting the partner's
  theirs   : List DigestBody := []     -- the partner's, awaiting the end of this module's step
  differ   : List Nat := []            -- clusters whose digests differ (R453)
  starts   : List (Byte × W32 × W64) := []
  timeOffset : Int := 0
  reserved : List Nat := []            -- partitions reserved on a mirrored secondary (R354)
  fwdSteps : List FwdStep := []
  deriving DecidableEq, Repr

/-! ### Firmware update and attestation (R496 to R518) -/

/-- A die of a relay chain (R500 to R503). -/
structure RelayDie where
  next     : Nat := 0                  -- next block to forward
  ahead    : List Nat := []            -- blocks kept that lie beyond it
  asks     : Tab Nat := []             -- requests made for each block still missing
  askedAt  : Option W64 := none
  digest   : Option (BitVec 384) := none
  complete : Bool := false
  deriving DecidableEq, Repr

/-- Where an activation stands (R504). -/
inductive Activation where
  | idle
  | standbyRestart
  | hold
  | switching (s : W64)
  | checking (s : W64)
  deriving DecidableEq, Repr

/-- The update in hand. -/
structure Update where
  staged   : Option Manifest := none   -- written to the inactive bank
  relaying : Bool := false
  relayed  : Bool := false             -- the relay is complete: the update is staged
  dies     : Tab RelayDie := []        -- by die
  forwarded : List (Nat × W32) := []   -- blocks forwarded downstream, by the die that forwards
  requests : List (Nat × W32) := []    -- blocks asked for again, by the die that asks
  phase    : Activation := .idle
  active   : W32 := 0                  -- GLB_FW_VERSION
  running  : Option Manifest := none   -- the images in use
  waiting  : List PowerOrder := []     -- power orders that wait for the activation (R507)
  seg96    : Tab (BitVec 384) := []    -- the images in use in logical segment 96, by target: 2, 6, 7 (R497)
  seg96Next : Tab (BitVec 384) := []   -- its staging area (R499)
  orderWaits : Bool := false           -- an activation order that relays again first (R503)
  deriving DecidableEq, Repr

end Sys2Proof.Machine
end

