-- ==== Sys2Proof/Machine/State.lean ====
section
/-! DEFINITION. The State of the module: everything the spec gives it, as plain data, and its value at reset.
Rests on the log entries (notes/assumptions/<n>.md) 1 (DESIGN CHOICE), 2 (DESIGN CHOICE), 3 (DESIGN CHOICE). -/
namespace Sys2Proof.Machine

/-- No command of this module ends in a fault: an access outside the address space, an access that is not permitted and an
error of the hardware are each reported by the module in a way the spec gives (a status, an event, a record), and it goes on. -/
inductive Fault where
  deriving DecidableEq, Repr

/-- Why a command has no answer. -/
inductive Refusal where
  /-- Raised by an arm of exec alone, for a command that has no meaning in the model yet; safe, since nothing is concluded
  from it. -/
  | notModelled (mnemonic : String)
  deriving DecidableEq, Repr

/-- Returned granules of a context that await their zero scrub (R157). -/
structure Scrub where
  ctx      : CtxId
  granules : List Nat
  deriving DecidableEq, Repr

/-- The state of the module. -/
structure State where
  /-- Commands that wait, first in, first out. -/
  pending   : List Instr := []
  /-- The model's own field: free values taken so far (DESIGN CHOICE: notes/assumptions/3.md). -/
  freeIx    : Nat := 0
  /-- The module's serial number (R27, R472). -/
  serial    : BitVec 128 := 0
  life      : Life := {}
  build     : Build := {}
  flash0    : Flash := {}
  flash1    : Flash := {}
  log       : Logbook := {}
  settings  : SettingsCopy := {}
  bin       : Binnacle := {}
  wafer     : Wafer := {}
  sites     : Tab SiteRec := []
  dies      : Tab DieRec := []
  clusters  : Tab ClusterRec := []
  stores    : Tab StoreRec := []
  /-- The shared store, byte by byte, at address segment × 2^29 + offset (R134). -/
  mem       : List Host.Cell := []
  /-- Poisoned words of the shared store, by address / 64 (R145). -/
  memPoison : List Nat := []
  /-- Form tags of the shared store (R245): stored tiles in bitmap form, by address / 64. -/
  memForms  : List Nat := []
  /-- The ownership tables (R154), where they differ from the reset contents. -/
  owners    : Tab Byte := []
  scrubs    : List Scrub := []
  parts     : Tab Partition := []
  ctxs      : Tab Context := []
  seqs      : Tab Seq := []
  dir       : Tab DirEntry := []
  sq        : Tab Ring := []
  cq        : Tab Ring := []
  tq        : Tab Ring := []
  /-- Token records that wait for an entry of a token ring, or for the ring itself (R274), by ring number, in order. -/
  heldRecs  : Tab (List (CtxId × TokenRec)) := []
  fns       : Tab FnRegs := []
  link      : HostLink := {}
  /-- Writes to host memory and interrupts, in the order they were issued (R279). -/
  hostOut   : List HostWrite := []
  marks     : Tab Mark := []
  net       : MarkNet := {}
  chans     : Tab ChanRec := []
  dimmWork  : DimmWork := {}
  /-- DIMM memory, byte by byte, at address channel × 2^38 + frame × 2^21 + offset (R317). -/
  dimm      : List Host.Cell := []
  /-- DIMM bursts that are uncorrectable, by address / 64 (R311, R313). -/
  dimmBad   : List Nat := []
  reck      : Reckoner := {}
  power     : Power := {}
  errs      : Errors := {}
  mgmt      : Mgmt := {}
  pair      : Pair := {}
  update    : Update := {}
  deriving DecidableEq, Repr

/-- The answer of a command: the next state, a fault or a refusal. -/
abbrev Out := Host.Outcome State Fault Refusal

/-! ### Memory -/

/-- What a byte of the shared store or of a DIMM that nothing has written reads as: zero (DESIGN CHOICE: notes/assumptions/2.md). -/
abbrev Memory.blank : Byte := 0

/-- The canonical form of a memory: addresses strictly rising, and no entry equal to what an unlisted address reads as. -/
abbrev Memory.wf (m : List Host.Cell) : Prop :=
  m.Pairwise (fun a b => a.1 < b.1) ∧ ∀ c ∈ m, c.2 ≠ Memory.blank

/-! ### Reset -/

/-- The module with no input power and empty flash: every part at the value its structure states as its default
(DESIGN CHOICE: notes/assumptions/1.md names those that the spec does not give). -/
def State.reset : State := {}

end Sys2Proof.Machine
end

