-- ==== Sys2Proof/Machine/Operands.lean ====
section
/-! DEFINITION. Operand forms: the twelve formats, their encodings and scales, tiles, rounding and conversion (R64 to R88),
and FP32 arithmetic.
Rests on the log entries (notes/assumptions/<n>.md) 20 (DEDUCED), 58 (DESIGN CHOICE). -/
namespace Sys2Proof.Machine

/-! ### Format codes (R64, R65) -/

/-- A format code of R64 is not reserved. -/
def fmtKnown (code : Nat) : Bool := code ≤ 11

/-- Width in bits (R64). -/
def fmtWidth (code : Nat) : Nat :=
  match code with
  | 0 => 32 | 1 => 16 | 2 => 16 | 3 => 8 | 4 => 8 | 5 => 6 | 6 => 6 | 7 => 4 | 8 => 8 | 9 => 4 | 10 => 4 | _ => 3

/-- SCALE is one that R64 permits for the format: 0 none, 1 E8M0, 2 KV4. -/
def scaleOk (code scale : Nat) : Bool :=
  match scale with
  | 0 => true
  | 1 => 3 ≤ code && code ≤ 9
  | 2 => code == 9
  | _ => false

/-- CB4 or CB3. -/
def isCodebook (code : Nat) : Bool := code == 10 || code == 11

/-- INT8 or INT4. -/
def isInteger (code : Nat) : Bool := code == 8 || code == 9

/-! ### Encodings (R66 to R69) -/

/-- Exponent bits, mantissa bits and bias of a floating-point format (R66). -/
def floatShape (code : Nat) : Nat × Nat × Nat :=
  match code with
  | 0 => (8, 23, 127) | 1 => (8, 7, 127) | 2 => (5, 10, 15) | 3 => (4, 3, 7)
  | 4 => (5, 2, 15) | 5 => (3, 2, 3) | 6 => (2, 3, 1) | _ => (2, 1, 1)

/-- A format whose all-ones exponent stands for infinities and NaN (R67). -/
def hasInf (code : Nat) : Bool := code == 0 || code == 1 || code == 2 || code == 4

/-- The value of an element's bits, before any block scale (R66 to R68). -/
def decodeBits (code bits : Nat) : Num :=
  if isInteger code then
    let w := fmtWidth code
    Num.ofInt (if bits < 2 ^ (w - 1) then (bits : Int) else (bits : Int) - 2 ^ w)
  else
    let (eb, mb, bias) := floatShape code
    let m := bits % 2 ^ mb
    let e := bits / 2 ^ mb % 2 ^ eb
    let s := bits / 2 ^ (mb + eb) % 2 = 1
    if hasInf code && e = 2 ^ eb - 1 then (if m = 0 then .inf s else .nan)
    else if code = 3 && e = 15 && m = 7 then .nan
    else if e = 0 then .fin s m (1 - (bias : Int) - mb)
    else .fin s (2 ^ mb + m) ((e : Int) - bias - mb)

/-- The value of an E8M0 scale byte (R69). -/
def scaleE8M0 (b : Byte) : Num := if b = 0xFF then .nan else .fin false 1 ((b.toNat : Int) - 127)

/-- The value of an element under its block scale (R68, R70, R72), exact. -/
def elemValue (code scale bits : Nat) (b : Byte) : Num :=
  match scale with
  | 0 => decodeBits code bits
  | 1 =>
    let v := decodeBits code bits
    let v := if code = 8 then v.shift (-6) else if code = 9 then v.shift (-2) else v
    (scaleE8M0 b).mul v
  | _ => (decodeBits 3 b.toNat).mul (decodeBits code bits)

/-! ### Rounding and conversion (R84 to R88) -/

/-- The hash of R88 for an element's index. -/
def hash88 (seed : W32) (index : Nat) : W32 :=
  let h : W32 := seed + BitVec.ofNat 32 index * 0x9E3779B9#32
  let h := h ^^^ (h >>> 16)
  let h := h * 0x85EBCA6B#32
  let h := h ^^^ (h >>> 13)
  let h := h * 0xC2B2AE35#32
  h ^^^ (h >>> 16)

/-- The random half-word of R88. -/
def stochasticU (seed : W32) (index : Nat) : Nat := (hash88 seed index >>> 16).toNat

/-- How a value is rounded: to nearest, ties to even, or by the half-word of R88. -/
inductive Rounding where
  | nearest
  | random (u : Nat)
  deriving DecidableEq, Repr

/-- The integer next to num / den that a rounding chooses. -/
def roundRatio (r : Rounding) (num den : Nat) : Nat :=
  let n := num / den
  let rem := num % den
  match r with
  | .nearest => if 2 * rem > den || (2 * rem = den && n % 2 = 1) then n + 1 else n
  | .random u => if u < rem * 65536 / den then n + 1 else n

/-- The integer that mag × 2^k rounds to. -/
def roundScaled (r : Rounding) (mag : Nat) (k : Int) : Nat :=
  if 0 ≤ k then mag * 2 ^ k.toNat else roundRatio r mag (2 ^ (-k).toNat)

/-- floor(log2) of a positive magnitude. -/
def floorLog2 (mag : Nat) (exp : Int) : Int := exp + (Nat.log2 mag : Nat)

/-- A converted element: its bits, whether CONV_SAT counts it, and whether NAN_DROPPED does. -/
structure Conv where
  bits    : Nat
  sat     : Bool := false
  dropped : Bool := false
  deriving DecidableEq, Repr

/-- The NaN that the W96 writes (R67), where the format has one. -/
def nanBits (code : Nat) : Option Nat :=
  match code with
  | 0 => some 0x7FC00000 | 1 => some 0x7FC0 | 2 => some 0x7E00 | 3 => some 0x7F | 4 => some 0x7E | _ => none

/-- The largest finite magnitude of a format of the given sign (R66, R86), as mag × 2^exp. -/
def largest (code : Nat) (neg : Bool) : Nat × Int :=
  match code with
  | 3 => (14, 5)
  | 5 => (7, 2)
  | 6 => (15, -1)
  | 7 => (3, 1)
  | 8 => (if neg then 128 else 127, 0)
  | 9 => (if neg then 8 else 7, 0)
  | c => let (eb, mb, bias) := floatShape c
         (2 ^ (mb + 1) - 1, (2 ^ eb - 2 : Int) - bias - mb)

/-- The bits of a finite value of a format, its magnitude n × 2^q representable. -/
def encodeFinite (code : Nat) (neg : Bool) (n : Nat) (q : Int) : Nat :=
  if isInteger code then
    let w := fmtWidth code
    let k := n * 2 ^ q.toNat
    if neg && k ≠ 0 then 2 ^ w - k else k
  else
    let (eb, mb, bias) := floatShape code
    let s := if neg then 2 ^ (eb + mb) else 0
    if n = 0 then s
    else
      let l := floorLog2 n q
      if l < 1 - (bias : Int) then s + n * 2 ^ (q - (1 - (bias : Int) - mb)).toNat
      else s + (l + bias).toNat * 2 ^ mb + (n * 2 ^ mb / 2 ^ Nat.log2 n - 2 ^ mb)

/-- What R86 writes for a source beyond the destination's range. -/
def saturated (code : Nat) (neg nosat : Bool) : Nat :=
  let big := let (n, q) := largest code neg; encodeFinite code neg n q
  if nosat then
    if hasInf code then
      let (eb, mb, _) := floatShape code
      (if neg then 2 ^ (eb + mb) else 0) + (2 ^ eb - 1) * 2 ^ mb
    else if code = 3 then 0x7F else big
  else big

/-- The rounding that applies to a destination (R85, R88). -/
def roundingFor (code : Nat) (stochastic : Bool) (seed : W32) (index : Nat) : Rounding :=
  if stochastic && fmtWidth code ≤ 8 then .random (stochasticU seed index) else .nearest

/-- Conversion of an exact value to a format (R85 to R88). -/
def convertElem (code : Nat) (r : Rounding) (nosat : Bool) (x : Num) : Conv :=
  match x with
  | .nan => match nanBits code with
    | some b => ⟨b, false, false⟩
    | none => ⟨0, false, true⟩
  | .inf s => ⟨saturated code s nosat, true, false⟩
  | .fin s mag exp =>
    if mag = 0 then ⟨encodeFinite code s 0 0, false, false⟩
    else
      let q : Int :=
        if isInteger code then 0
        else
          let (_, mb, bias) := floatShape code
          max (floorLog2 mag exp - mb) (1 - (bias : Int) - mb)
      let n := roundScaled r mag (exp - q)
      let (ln, lq) := largest code s
      let beyond := (Num.fin false ln lq).lt (.fin false n q)
      let above := match r with
        | .random _ => (Num.fin false ln lq).lt (.fin false mag exp)
        | .nearest => false
      if beyond || above then ⟨saturated code s nosat, true, false⟩ else ⟨encodeFinite code s n q, false, false⟩

/-- The value of FP32 bits. -/
def ofF32 (w : W32) : Num := decodeBits 0 w.toNat

/-- IEEE 754 binary32, round to nearest even, overflow to infinity (R81). -/
def toF32 (x : Num) : W32 := BitVec.ofNat 32 (convertElem 0 .nearest true x).bits

/-- A value rounded to binary64 by round-to-nearest-even (R111). -/
def toF64 (x : Num) : W64 :=
  match x with
  | .nan => 0x7FF8000000000000
  | .inf neg => if neg then 0xFFF0000000000000 else 0x7FF0000000000000
  | .fin neg mag exp =>
    let top : W64 := if neg then 0x8000000000000000 else 0
    if mag = 0 then top
    else
      let q := max (floorLog2 mag exp - 52) (-1074)
      let m := roundScaled .nearest mag (exp - q)
      let (m, q) := if m = 2 ^ 53 then (2 ^ 52, q + 1) else (m, q)
      if 971 < q then top ||| 0x7FF0000000000000
      else if m < 2 ^ 52 then top ||| BitVec.ofNat 64 m
      else top ||| BitVec.ofNat 64 ((q + 1075).toNat * 2 ^ 52 + (m - 2 ^ 52))

def f32Add (a b : W32) : W32 := toF32 ((ofF32 a).add (ofF32 b))
def f32Sub (a b : W32) : W32 := toF32 ((ofF32 a).sub (ofF32 b))
def f32Mul (a b : W32) : W32 := toF32 ((ofF32 a).mul (ofF32 b))
/-- Fused multiply-add, rounded once (R115). -/
def f32Fma (a b c : W32) : W32 := toF32 (((ofF32 a).mul (ofF32 b)).add (ofF32 c))
def f32Neg (a : W32) : W32 := toF32 (ofF32 a).neg
def f32Nan : W32 := 0x7FC00000
def f32NegInf : W32 := 0xFF800000
def f32PosInf : W32 := 0x7F800000
def f32One : W32 := 0x3F800000
/-- The larger of two FP32 values, NaN when either is (R113). -/
def f32Max (a b : W32) : W32 := toF32 ((ofF32 a).max (ofF32 b))

/-- FP32 of an exact quotient num / den × 2^e, rounded once: the quotient with 40 guard bits and a sticky bit. -/
def f32Ratio (neg : Bool) (num den : Nat) (e : Int) : W32 :=
  let sh := 64 + Nat.log2 den
  let q := num * 2 ^ sh / den
  let sticky := if num * 2 ^ sh % den = 0 then 0 else 1
  toF32 (.fin neg (2 * q + sticky) (e - sh - 1))

/-- FP32 quotient of two finite values, the divisor not zero. -/
def f32Div (a b : W32) : W32 :=
  match ofF32 a, ofF32 b with
  | .fin s m e, .fin t n f =>
    if n = 0 then (if m = 0 then f32Nan else toF32 (.inf (s != t))) else f32Ratio (s != t) m n (e - f)
  | .nan, _ => f32Nan
  | _, .nan => f32Nan
  | .inf _, .inf _ => f32Nan
  | .inf s, .fin t _ _ => toF32 (.inf (s != t))
  | .fin s _ _, .inf t => toF32 (.fin (s != t) 0 0)

/-- The next FP32 value above. -/
def f32Next (w : W32) : W32 := if w = 0x80000000 then 1 else if w.msb then w - 1 else w + 1

/-- FP32 of an exact value rounded toward +∞ (R208, R215). -/
def toF32Up (x : Num) : W32 :=
  let r := toF32 x
  if (ofF32 r).lt x then f32Next r else r

/-- FP32 of an exact value rounded toward −∞. -/
def toF32Down (x : Num) : W32 := f32Neg (toF32Up x.neg)

/-- An exact value divided by a number, with guard bits and a sticky bit below any FP32 rounding. -/
def numOver (x : Num) (den : Nat) : Num :=
  match x with
  | .fin s m e =>
    let q := m * 2 ^ 200 / den
    .fin s (2 * q + (if m * 2 ^ 200 % den = 0 then 0 else 1)) (e - 201)
  | y => y

/-! ### Counts of a conversion (R89) -/

/-- Converted elements with their counts. -/
structure ConvRow where
  elems   : List Nat := []
  scales  : List Byte := []
  sat     : Nat := 0
  dropped : Nat := 0
  deriving DecidableEq, Repr

/-- The number of elements of a list that a test holds of. -/
def count {α : Type} (l : List α) (p : α → Bool) : Nat := (l.filter p).length

/-- A row converted with no block scale, its first element at an index of the destination tensor. -/
def convertPlain (code : Nat) (stochastic nosat : Bool) (seed : W32) (index : Nat) (vs : List Num) : ConvRow :=
  let cs := vs.zipIdx.map (fun (v, i) => convertElem code (roundingFor code stochastic seed (index + i)) nosat v)
  { elems := cs.map (·.bits), sat := count cs (·.sat), dropped := count cs (·.dropped) }

/-- amax as R71 and R72 form it. -/
def blockAmax (vs : List Num) : Num :=
  vs.foldl (fun a v =>
    let m := match v with
      | .inf _ => let (n, q) := largest 0 false; Num.fin false n q
      | x => x.abs
    if a.lt m then m else a) .zero

/-- emax of an element format (R71). -/
def emax (code : Nat) : Int :=
  match code with
  | 3 => 8 | 4 => 15 | 5 => 4 | 6 => 2 | 7 => 2 | _ => 0

/-- A block whose scale is NaN (R71, R72): its elements are written 0, and an infinity that has made it so counts as no saturation
(DESIGN CHOICE: notes/assumptions/58.md). -/
def blockIsNan (nosat : Bool) (vs : List Num) : Bool :=
  vs.any (fun v => v.isNan || (nosat && v.isInf))

/-- A block of 32 values written with an E8M0 scale (R71). -/
def writeBlockE8M0 (code : Nat) (stochastic nosat : Bool) (seed : W32) (index : Nat) (vs : List Num) : ConvRow :=
  if blockIsNan nosat vs then { elems := vs.map (fun _ => 0), scales := [0xFF] }
  else
    match blockAmax vs with
    | .fin _ mag exp =>
      if mag = 0 then { elems := vs.map (fun v => encodeFinite code v.sign 0 0), scales := [0] }
      else
        let e := max (-127) (min 127 (floorLog2 mag exp - emax code))
        let point : Int := if code = 8 then 6 else if code = 9 then 2 else 0
        let cs := vs.zipIdx.map (fun (v, i) =>
          convertElem code (roundingFor code stochastic seed (index + i)) nosat (v.shift (point - e)))
        { elems := cs.map (·.bits), scales := [BitVec.ofInt 8 (e + 127)], sat := count cs (·.sat) }
    | _ => { elems := vs.map (fun _ => 0), scales := [0xFF] }

/-- The scale code of a KV4 block with amax mag × 2^exp: the smallest positive E4M3 value not below amax / 7 (R72). -/
def kv4Scale (mag : Nat) (exp : Int) : Option Nat :=
  ((List.range 0x7E).map (· + 1)).find? (fun c =>
    !((decodeBits 3 c).mul (Num.ofNat 7)).lt (.fin false mag exp))

/-- An element of a KV4 block: v / s converted to INT4, where s = k × 2^j (R72, R86). -/
def kv4Elem (r : Rounding) (k : Nat) (j : Int) (v : Num) : Conv :=
  match v with
  | .fin s mag exp =>
    let e := exp - j
    let (num, den) := if 0 ≤ e then (mag * 2 ^ e.toNat, k) else (mag, k * 2 ^ (-e).toNat)
    let top := if s then 8 else 7
    let n := roundRatio r num den
    let above := match r with
      | .random _ => decide (top * den < num)
      | .nearest => false
    if n > top || above then ⟨encodeFinite 9 s top 0, true, false⟩ else ⟨encodeFinite 9 s n 0, false, false⟩
  | x => ⟨saturated 9 x.sign false, true, false⟩

/-- A block of 32 values written as KV4 (R72). -/
def writeBlockKv4 (stochastic nosat : Bool) (seed : W32) (index : Nat) (vs : List Num) : ConvRow :=
  if blockIsNan nosat vs then { elems := vs.map (fun _ => 0), scales := [0x7F] }
  else
    match blockAmax vs with
    | .fin _ mag exp =>
      if mag = 0 then { elems := vs.map (fun _ => 0), scales := [0] }
      else
        let (c, beyond) := match kv4Scale mag exp with
          | some c => (c, 0)
          | none => (0x7E, 1)
        match decodeBits 3 c with
        | .fin _ k j =>
          let cs := vs.zipIdx.map (fun (v, i) =>
            kv4Elem (roundingFor 9 stochastic seed (index + i)) k j v)
          { elems := cs.map (·.bits), scales := [BitVec.ofNat 8 c], sat := beyond + count cs (·.sat) }
        | _ => { elems := vs.map (fun _ => 0), scales := [0x7F] }
    | _ => { elems := vs.map (fun _ => 0), scales := [0x7F] }

/-- A list cut into chunks of n, by a number of chunks. -/
def chunks {α : Type} (n : Nat) : Nat → List α → List (List α)
  | 0, _ => []
  | k + 1, l => l.take n :: chunks n k (l.drop n)

/-- Two converted pieces of one row. -/
def ConvRow.append (a b : ConvRow) : ConvRow :=
  ⟨a.elems ++ b.elems, a.scales ++ b.scales, a.sat + b.sat, a.dropped + b.dropped⟩

/-- A row of values converted to a format under a scale kind (R71, R72, R85), blocks of 32 along the row. -/
def convertRow (code scale : Nat) (stochastic nosat : Bool) (seed : W32) (index : Nat) (vs : List Num) : ConvRow :=
  match scale with
  | 0 => convertPlain code stochastic nosat seed index vs
  | k =>
    ((chunks 32 ((vs.length + 31) / 32) vs).zipIdx.map (fun (b, i) =>
      if k = 1 then writeBlockE8M0 code stochastic nosat seed (index + 32 * i) b
      else writeBlockKv4 stochastic nosat seed (index + 32 * i) b)).foldl ConvRow.append {}

/-! ### Packed rows and tiles (R75 to R77) -/

/-- The little-endian number of a byte string. -/
def leNat (bs : List Byte) : Nat := bs.foldr (fun b n => b.toNat + 256 * n) 0

/-- The low bytes of a number, little-endian (R4). -/
def leBytes : Nat → Nat → List Byte
  | 0, _ => []
  | k + 1, n => BitVec.ofNat 8 n :: leBytes k (n / 256)

/-- The n elements of w bits of a stored row (R75). -/
def unpackRow (w n : Nat) (bs : List Byte) : List Nat :=
  let v := leNat bs
  (List.range n).map (fun i => v / 2 ^ (w * i) % 2 ^ w)

/-- A stored row of elements of w bits (R75). -/
def packRow (w : Nat) (es : List Nat) : List Byte :=
  leBytes ((w * es.length + 7) / 8) (es.foldr (fun e n => e + 2 ^ w * n) 0)

/-- A number padded up to a multiple. -/
def padTo (k n : Nat) : Nat := (n + k - 1) / k * k

/-- Bytes of a stored row of c elements (R75). -/
def rowBytes (code c : Nat) : Nat := fmtWidth code * c / 8

/-- Bytes of the side area of a tile with the given stored rows and elements in a row (R76, R77). -/
def sideBytes (code scale rows cols : Nat) (weight : Bool) : Nat :=
  if scale = 1 || scale = 2 then (if weight then 256 else padTo 64 (rows * (cols / 32)))
  else if isCodebook code then 64 else 0

/-- Bytes of a weight tile (R76). -/
def weightTileBytes (code scale : Nat) : Nat := 128 * rowBytes code 64 + sideBytes code scale 128 64 true

/-- Bytes of a tile of rows along K (R77). -/
def rowTileBytes (code scale rows cols : Nat) : Nat := rows * rowBytes code cols + sideBytes code scale rows cols false

/-- A read of n bytes from an address of some memory. -/
abbrev Reader := Nat → Nat → List Byte

/-- The values of a weight tile at an address, K index by K index, 64 columns each; codebook entries stand for themselves
(R73), scales are applied (R70, R76). -/
def weightTileValues (rd : Reader) (addr code scale : Nat) : List (List Num) :=
  let rb := rowBytes code 64
  let side := addr + 128 * rb
  if isCodebook code then
    let book := rd side 16
    (List.range 128).map (fun k =>
      (unpackRow (fmtWidth code) 64 (rd (addr + k * rb) rb)).map (fun i => decodeBits 3 (book.getD i 0).toNat))
  else
    let sc := if scale = 0 then [] else rd side 256
    (List.range 128).map (fun k =>
      (unpackRow (fmtWidth code) 64 (rd (addr + k * rb) rb)).zipIdx.map (fun (e, n) =>
        elemValue code scale e (sc.getD (64 * (k / 32) + n) 0)))

/-! ### Sums of a pass (R78 to R81, R97) -/

/-- The classes of R78. -/
inductive PairClass where
  | fp32 | wide | narrow | standard
  deriving DecidableEq, Repr

/-- A format with a scale kind, narrow by R78: FP4 or INT4, with or without an E8M0 scale. -/
def isNarrow (code scale : Nat) : Bool := (code == 7 || code == 9) && scale ≠ 2

/-- The class of a pair (R78): the first row of the table whose condition the pair meets. -/
def pairClass (a sa b sb : Nat) : PairClass :=
  if a = 0 || b = 0 then .fp32
  else if a = 1 || a = 2 || b = 1 || b = 2 then .wide
  else if isNarrow a sa && isNarrow b sb then .narrow
  else .standard

/-- A pair that accumulates in INT32 (R79). -/
def pairInt32 (a sa b sb : Nat) : Bool := isInteger a && isInteger b && sa == 0 && sb == 0

/-- The exact dot product of two rows. -/
def dot (xs ys : List Num) : Num := Num.sum (xs.zipWith Num.mul ys)

/-- The running sum over groups of 32, each summed exactly and added with one rounding (R80). -/
def sumGroups : Nat → W32 → List Num → List Num → W32
  | 0, acc, _, _ => acc
  | k + 1, acc, xs, ys =>
    sumGroups k (toF32 ((ofF32 acc).add (dot (xs.take 32) (ys.take 32)))) (xs.drop 32) (ys.drop 32)

/-- The running sum of products rounded one by one (R80, wide and FP32 pairs). -/
def sumProducts (acc : W32) (xs ys : List Num) : W32 :=
  (xs.zip ys).foldl (fun a (x, y) => f32Add a (toF32 (x.mul y))) acc

/-- The result of a column for one pass (R80, R103): FP32 bits, or a two's complement INT32 for INT32 pairs. -/
def columnSum (c : PairClass) (int32 : Bool) (xs ys : List Num) : W32 :=
  if int32 then
    match dot xs ys with
    | .fin s m e => BitVec.ofInt 32 (Num.scaled s m e 0)
    | _ => 0
  else
    match c with
    | .standard => sumGroups ((xs.length + 31) / 32) 0 xs ys
    | .narrow => sumGroups ((xs.length + 31) / 32) 0 xs ys
    | .wide => sumProducts 0 xs ys
    | .fp32 => sumProducts 0 xs ys

/-- The checksum result of a pass (R97, R103), before it is held in 32 bits: exact for INT32 pairs. -/
def checkSum (c : PairClass) (int32 : Bool) (xs sums : List Num) : Num :=
  if int32 then dot xs sums else ofF32 (columnSum c false xs sums)

/-- The row sum of 64 weights (R97): exact for INT32 pairs, rounded once to FP32 otherwise. -/
def rowSum (int32 : Bool) (ws : List Num) : Num :=
  if int32 then Num.sum ws else ofF32 (toF32 (Num.sum ws))

/-- One saturating INT32 addition (R81): the sum and whether it saturated. -/
def int32Add (a b : W32) : W32 × Bool :=
  let k := a.toInt + b.toInt
  if k > 2147483647 then (0x7FFFFFFF, true)
  else if k < -2147483648 then (0x80000000, true)
  else (BitVec.ofInt 32 k, false)

/-- The value of an accumulator word. -/
def accValue (int32 : Bool) (w : W32) : Num := if int32 then Num.ofInt w.toInt else ofF32 w

/-! ### The checksum comparison (R82, R108, R109) -/

/-- τ of R109. -/
def tauValue (c : PairClass) (t : Nat) : Num :=
  if t = 0 then
    match c with
    | .standard => .fin false 1 (-16)
    | .narrow => .fin false 1 (-16)
    | .wide => .fin false 1 (-12)
    | .fp32 => .fin false 1 (-12)
  else .fin false 1 (-((t : Int) + 4))

/-- ε of R109. -/
def epsValue (e : Nat) : Num :=
  if e = 0 then .fin false 1 (-64) else if e = 0xFF then .zero else .fin false 1 ((e : Int) - 127)

/-- The verdict on a checked row. -/
inductive Verdict where
  | equal | skipped | mismatch (diff bound : Num)
  deriving DecidableEq, Repr

/-- The comparison of a row's 64 results with its checksum result (R82, R108). -/
def checkRow (c : PairClass) (int32 : Bool) (tau eps : Nat) (results : List W32) (check : Num) : Verdict :=
  let vs := results.map (accValue int32)
  if vs.any Num.isSpecial || check.isSpecial then .skipped
  else
    let d := (Num.sum vs).sub check
    if int32 then (if d.isZero then .equal else .mismatch d .zero)
    else
      let bound := ((tauValue c tau).mul (Num.sum (vs.map Num.abs))).add (epsValue eps)
      if bound.lt d.abs then .mismatch d bound else .equal

end Sys2Proof.Machine
end

