-- ==== Sys2Proof/Machine/Special.lean ====
section
/-! DEFINITION. The special functions of R115, each the exact value of its definition rounded once to FP32. The values that
are no ratio of integers are evaluated in fixed point with many guard bits (DEDUCED: notes/assumptions/10.md).
Rests on the log entries (notes/assumptions/<n>.md) 10 (DEDUCED), 20 (DEDUCED), 56 (DEDUCED). -/
namespace Sys2Proof.Machine

/-- Fraction bits of the fixed-point evaluation of exp, log and SiLU. -/
def fixBits : Nat := 320

/-- ln 2 in fixed point: 2 × Σ 1 / ((2k + 1) × 3^(2k+1)), summed from the last of n terms. -/
def ln2Terms (p : Nat) : Nat → Nat → Nat → Nat → Nat
  | 0, _, _, acc => acc
  | n + 1, k, t, acc => ln2Terms p n (k + 1) (t / 9) (acc + t / (2 * k + 1))

def ln2Fixed (p : Nat) : Nat := 2 * ln2Terms p (p / 3 + 2) 0 (2 ^ p / 3) 0

/-- Σ r^n / n! in fixed point, r in [0, 1). -/
def expTerms (p r : Nat) : Nat → Nat → Nat → Nat → Nat
  | 0, _, _, acc => acc
  | n + 1, k, t, acc => expTerms p r n (k + 1) (t * r / (2 ^ p * (k + 1))) (acc + t)

/-- e^x for a finite x of magnitude below 1,024: the mantissa in fixed point, in [1, 2), and the power of two. -/
def expFixed (p : Nat) (neg : Bool) (mag : Nat) (exp : Int) : Nat × Int :=
  let e := exp + p
  let a : Nat := if 0 ≤ e then mag * 2 ^ e.toNat else mag / 2 ^ (-e).toNat
  let x : Int := if neg then -(a : Int) else a
  let l : Int := ln2Fixed p
  let k := x / l
  let r := (x - k * l).toNat
  (expTerms p r 90 0 (2 ^ p) 0, k)

/-- exp (R115). -/
def f32Exp (x : W32) : W32 :=
  match ofF32 x with
  | .nan => f32Nan
  | .inf s => if s then 0 else f32PosInf
  | .fin s m e =>
    if m = 0 then f32One
    else if 7 ≤ floorLog2 m e then (if s then 0 else f32PosInf)
    else
      let (f, k) := expFixed fixBits s m e
      toF32 (.fin false f (k - fixBits))

/-- e^x rounded toward +∞ (R216). -/
def f32ExpUp (x : W32) : W32 :=
  match ofF32 x with
  | .nan => f32Nan
  | .inf s => if s then 0 else f32PosInf
  | .fin s m e =>
    if m = 0 then f32One
    else if 7 ≤ floorLog2 m e then (if s then 1 else f32PosInf)
    else
      let (f, k) := expFixed fixBits s m e
      toF32Up (.fin false (f + 1) (k - fixBits))

/-- reciprocal (R115). -/
def f32Recip (x : W32) : W32 :=
  match ofF32 x with
  | .nan => f32Nan
  | .inf s => toF32 (.fin s 0 0)
  | .fin s m e => if m = 0 then toF32 (.inf s) else f32Ratio s 1 m (-e)

/-- The integer square root, bit by bit: n bits of the root above r, r^2 at most v. -/
def isqrtBits (v : Nat) : Nat → Nat → Nat
  | 0, r => r
  | n + 1, r => let c := r + 2 ^ n; isqrtBits v n (if c * c ≤ v then c else r)

/-- floor(√v). -/
def isqrt (v : Nat) : Nat := isqrtBits v (Nat.log2 v / 2 + 1) 0


/-- rsqrt (R115). -/
def f32Rsqrt (x : W32) : W32 :=
  match ofF32 x with
  | .nan => f32Nan
  | .inf s => if s then f32Nan else 0
  | .fin s m e =>
    if m = 0 then toF32 (.inf s)
    else if s then f32Nan
    else
      let odd := e % 2 = 1
      let m2 := if odd then 2 * m else m
      let e2 := if odd then e - 1 else e
      let v := 2 ^ 256 / m2
      let r := isqrt v
      let exact := r * r * m2 = 2 ^ 256
      toF32 (.fin false (2 * r + (if exact then 0 else 1)) (-(e2 / 2) - 129)) 

/-- SiLU (R115). -/
def f32Silu (x : W32) : W32 :=
  match ofF32 x with
  | .nan => f32Nan
  | .inf s => if s then 0x80000000 else f32PosInf
  | .fin s m e =>
    if m = 0 then x
    else if 8 ≤ floorLog2 m e then (if s then 0x80000000 else x)
    else
      let (f, k) := expFixed fixBits true m e
      let one := 2 ^ ((fixBits : Int) - k).toNat
      f32Ratio s (m * (if s then f else one)) (one + f) e

/-- arctan(1 / n) in fixed point. -/
def atanTerms (n : Nat) : Nat → Nat → Int → Int → Int
  | 0, _, _, acc => acc
  | i + 1, k, t, acc => atanTerms n i (k + 1) (-t / (n * n : Nat)) (acc + t / (2 * k + 1 : Nat))

/-- π in fixed point, by Machin's formula. -/
def piFixed (p : Nat) : Int :=
  16 * atanTerms 5 (p / 4 + 8) 0 (2 ^ p / 5) 0 - 4 * atanTerms 239 (p / 15 + 4) 0 (2 ^ p / 239) 0

/-- Σ (−1)^n y^n / (n! (2n + 1)) in fixed point, y in fixed point. -/
def erfTerms (p : Nat) (y : Int) : Nat → Nat → Int → Int → Int
  | 0, _, _, acc => acc
  | i + 1, n, t, acc => erfTerms p y i (n + 1) (-(t * y) / (2 ^ p * (n + 1) : Nat)) (acc + t / (2 * n + 1 : Nat))

/-- GELU (R115): x × ½ × (1 + erf(x / √2)). -/
def f32Gelu (x : W32) : W32 :=
  match ofF32 x with
  | .nan => f32Nan
  | .inf s => if s then 0x80000000 else f32PosInf
  | .fin s m e =>
    if m = 0 then x
    else if 4 ≤ floorLog2 m e then (if s then 0x80000000 else x)
    else
      let p : Nat := 700
      let a : Int := Num.scaled false m (e + (p : Int)) 0
      let y := a * a / (2 ^ (p + 1) : Nat)
      let root : Int := isqrt (2 ^ (3 * p + 1) / (piFixed p).toNat)
      let erf := root * (a * erfTerms p y 640 0 (2 ^ p) 0 / (2 ^ p : Nat)) / (2 ^ p : Nat)
      let cdf := if s then 2 ^ p - erf else 2 ^ p + erf
      toF32 (.fin s (m * cdf.toNat) (e - (p : Int) - 1))

/-- Σ t^(2k+1) / (2k + 1) in fixed point. -/
def atanhTerms (p : Nat) (t2 : Int) : Nat → Nat → Int → Int → Int
  | 0, _, _, acc => acc
  | i + 1, k, t, acc => atanhTerms p t2 i (k + 1) (t * t2 / (2 ^ p : Nat)) (acc + t / (2 * k + 1 : Nat))

/-- log (R115). -/
def f32Log (x : W32) : W32 :=
  match ofF32 x with
  | .nan => f32Nan
  | .inf s => if s then f32Nan else f32PosInf
  | .fin s m e =>
    if m = 0 then f32NegInf
    else if s then f32Nan
    else
      let l := Nat.log2 m
      -- x = y × 2^k with y in [2/3, 4/3)
      let up := 3 * m ≥ 4 * 2 ^ l
      let d : Nat := if up then 2 ^ (l + 1) else 2 ^ l
      let k : Int := e + l + (if up then 1 else 0)
      let p := fixBits
      let t : Int := ((m : Int) - d) * 2 ^ p / ((m + d : Nat) : Int)
      let r : Int := 2 * atanhTerms p (t * t / (2 ^ p : Nat)) 90 0 t 0 + k * ln2Fixed p
      toF32 (.fin (r < 0) r.natAbs (-(p : Int)))

end Sys2Proof.Machine
end

