-- ==== Sys2Proof/Config.lean ====
section
/-! DEFINITION. What one implementation fixes and the manual leaves open, and the free values: constants without a body,
of which no proof can see a value (notes/assumptions 3 to 8).
Rests on the log entries (notes/assumptions/<n>.md) 3 (DESIGN CHOICE), 4 (DESIGN CHOICE), 5 (DESIGN CHOICE), 6 (DESIGN CHOICE), 7 (DESIGN CHOICE), 8
(DESIGN CHOICE), 14 (DESIGN CHOICE), 15 (DESIGN CHOICE), 16 (DESIGN CHOICE), 18 (DESIGN CHOICE), 24 (DESIGN CHOICE), 57 (DESIGN CHOICE). -/
namespace Sys2Proof.Config

/-- A fresh free value: the n-th value the manual does not state (DESIGN CHOICE, log entry 3). The State counts them, so that each use
takes one of its own. -/
opaque freeBits : Nat → BitVec 64

/-- The results of an operation whose formula or order of summation the manual does not give (DESIGN CHOICE, log entry 16): a function of what
the operation is, of the bytes it reads, and of the element, so that the same inputs always give the same bits (R83). -/
opaque results : (what : List Nat) → (inputs : List Byte) → (element : Nat) → BitVec 32

/-- The format of ATTN_TRAIN's probabilities, one of those of R213 (DESIGN CHOICE, log entry 18): 0 FP8 with a scale, 1 BF16, 2 FP32. -/
opaque trainFormat : Fin 3
/-- Where ATTN_TRAIN cuts the positions of a sequence that begins at a row into blocks of 64 (DESIGN CHOICE, log entry 18). -/
opaque trainCut : (start : Nat) → Nat

/-- An accumulator element that was held in the one kind as an operation that accumulates in the other reads it (R178; DESIGN CHOICE, log
entry 15). -/
opaque heldAs : (int32 : Bool) → BitVec 32 → BitVec 32

/-- GLB_ID.STEPPING: a figure of the silicon, from 1 (R257); no rule gives one (DESIGN CHOICE, log entry 4). -/
opaque stepping : BitVec 8

/-- The random source of the service die from which the nonce of R517 is drawn (DESIGN CHOICE, log entry 5): the n-th draw, 32 bytes. -/
opaque nonce : Nat → BitVec 256

/-- SHA-384 of a byte string (R502, R514), which the manual takes from its standard (DESIGN CHOICE, log entry 6). -/
opaque sha384 : List Byte → BitVec 384

/-- The verdict of the ECDSA P-384 and LMS verification of R491 over a message, a signature block and the root keys of the
boot ROM, which the manual takes from its standards (DESIGN CHOICE, log entry 6): both signatures verify. -/
opaque signaturesVerify : (message : List Byte) → (block : List Byte) → Bool

/-- The digest of R493 that the boot ROM holds in a root key slot for the ECDSA key. -/
opaque romEcdsaDigest : Fin 4 → BitVec 384
/-- The digest of R493 that the boot ROM holds in a root key slot for the LMS key. -/
opaque romLmsDigest : Fin 4 → BitVec 384

/-- The signature of a service die's identity key over a message (R513): the key never leaves the die. -/
opaque spdmSign : (die : Fin 2) → List Byte → List Byte
/-- The certificate chain the factory wrote for a service die (R513). -/
opaque certChain : Fin 2 → List Byte
/-- SHA-384 of a service die's boot ROM (R514, measurement 1). -/
opaque romMeasurement : Fin 2 → BitVec 384

/-- What a seam group carries (R16): a fabric link, the direct path from the cluster at a compute site to a neighbouring segment, a
coupling of the Meridian mesh, or a sense pair of a compute site. Links and couplings are named by the fabric position at their
west or north end. -/
inductive SeamUse where
  | link (pos : Nat) (south : Bool)
  | path (site neighbour : Nat)
  | coupling (pos : Nat) (south : Bool)
  | sense (site : Nat) (duplicate : Bool)
  deriving DecidableEq, Repr, Inhabited

/-- What the group of a seam line carries: a figure of the base wafer's layout (DESIGN CHOICE, log entry 57). -/
opaque seamCarries : (line group : Nat) → SeamUse
/-- The channels of a memory die, of its four, whose signals use one of its bond groups (DESIGN CHOICE, log entry 57). -/
opaque bondChannels : (die group : Nat) → BitVec 4
/-- The PCIe lanes in a bond group of the host die (DESIGN CHOICE, log entry 57). -/
opaque bondLanes : (group : Nat) → BitVec 16

/-- How far a crack loop's resistance, as the factory measured it (R353), lies above one micro-ohm. -/
opaque crackFactoryAbove : Nat → Nat

/-- A crack loop's resistance as the factory measured it, in micro-ohms (R353): a positive number (DESIGN CHOICE, log entry 4). -/
def crackFactory (k : Nat) : Nat := crackFactoryAbove k + 1

/-- Which of the next positions on shortest paths the service die's tables take, for the links out of service, a virtual channel, a router and a
destination (R284; DESIGN CHOICE, log entry 24). -/
opaque routeChoice : (linksOut : List (Nat × Bool)) → (vc router destination : Nat) → Nat

/-- The position that the service die takes as the root of the order by which routes keep free of cycles of buffer dependencies, where its shortest
paths are not (R284; DESIGN CHOICE: notes/assumptions/24.md). -/
opaque routeRoot : (linksOut : List (Nat × Bool)) → (vc : Nat) → Nat

/-- What the Pilot is given of an operation (R186), what it has learned of its phase (R371), the cap, and what it foresees of the other partitions
(R372). -/
structure PilotInput where
  phase   : Byte
  split   : Byte
  pair    : Byte              -- operand-pair class, as CLASS of R111
  dims    : List Nat
  learned : List Nat
  cap     : Nat
  clusters : Nat              -- of the partition
  others  : List (List (List Nat))    -- of every other partition: its clusters, the operation that runs and the next, with what is learned of each
  calibration : List Nat      -- the module's own, in PWR_MODE 1 only (R376)

/-- The frequency of a partition that the Pilot chooses for an operation from what R186 gives it and from what it has learned of the context's
phase, in 50 MHz units, before the limits of R29, R359 and R373 are applied (R372: the manual states what is held, not the number; log entry 7). -/
opaque pilotTarget : PilotInput → Nat

/-- What a faulty V-core makes of byte i of a row that it holds, where no audit shows the fault (R523, log entry 14): v is a free value. -/
opaque faultByte : (v : BitVec 64) → (i : Nat) → BitVec 8

/-- The words of a text answer of the console that the manual does not fix (help, log entry 8). -/
opaque helpText : List Nat → List Nat

end Sys2Proof.Config
end

