-- ==== Sys2Proof/Machine/Ops.lean ====
section
/-! DEFINITION. The named operations that several families share: time, free values, memory and its ownership, what the
configuration record and the cluster map say, grade, reports to the management side, and what is sent to the host.
Rests on the log entries (notes/assumptions/<n>.md) 2 (DESIGN CHOICE), 3 (DESIGN CHOICE), 9 (DESIGN CHOICE), 11 (DEDUCED), 12 (DEDUCED), 23 (DEDUCED),
37 (DEDUCED), 38 (DEDUCED), 39 (DEDUCED), 51 (DEDUCED), 58 (DESIGN CHOICE), 61 (PRESUMED). -/
namespace Sys2Proof.Machine

/-! ### Time and free values -/

/-- The Reckoner as the anchor instance shows it (R339). -/
def State.now (s : State) : W64 := s.reck.now

/-- A fresh free value, and the state that has taken it (DESIGN CHOICE: notes/assumptions/3.md). -/
def takeFree (s : State) : BitVec 64 × State := (Config.freeBits s.freeIx, { s with freeIx := s.freeIx + 1 })

/-- Reckoner ticks in a second. -/
def ticksPerSecond : Nat := 4000000000

/-- Ticks since a moment, modulo 2^64. -/
def State.since (s : State) (t : W64) : Nat := (s.now - t).toNat

/-- Reckoner ticks in n milliseconds. -/
def msTicks (n : Nat) : Nat := 4000000 * n

/-- The count one tick later. While it slews, every eighth tick counts twice or not at all: 9 ticks per node cycle or 7, until at most one is left
to correct (R340, R342). -/
def Reckoner.counted (r : Reckoner) : Reckoner :=
  if r.slew.natAbs ≤ 1 then { r with now := r.now + 1, slewTick := 0 }
  else if r.slewTick < 7 then { r with now := r.now + 1, slewTick := r.slewTick + 1 }
  else if 0 < r.slew then { r with now := r.now + 2, slew := r.slew - 1, slewTick := 0 }
  else { r with slew := r.slew + 1, slewTick := 0 }

/-- One Reckoner tick, which passes when no command waits and the mesh is locked (R339; DESIGN CHOICE: notes/assumptions/9.md). -/
def Reckoner.tick (r : Reckoner) : Reckoner :=
  let r := r.counted
  if r.lifeTicks + 1 < ticksPerSecond then { r with lifeTicks := r.lifeTicks + 1 }
  else { r with lifeTicks := 0, lifeSec := r.lifeSec + 1 }

/-- What passes on an empty queue. -/
def idle (s : State) : State := if s.life.meshLocked then { s with reck := s.reck.tick } else s

/-! ### Memory (R134, R135, R145, R154, R155) -/

/-- The byte at an address. -/
def Memory.read (m : List Host.Cell) (a : Nat) : Byte := Tab.getD m a Memory.blank

/-- A memory with the byte at an address written, in canonical form. -/
def Memory.write (m : List Host.Cell) (a : Nat) (v : Byte) : List Host.Cell :=
  if v = Memory.blank then Tab.drop m a else Tab.put m a v

/-- n bytes from an address. -/
def Memory.readN (m : List Host.Cell) (a n : Nat) : List Byte := (List.range n).map (fun i => Memory.read m (a + i))

/-- A memory with a byte string written from an address. -/
def Memory.writeN (m : List Host.Cell) (a : Nat) : List Byte → List Host.Cell
  | [] => m
  | b :: bs => Memory.writeN (Memory.write m a b) (a + 1) bs

/-- A memory with n bytes from an address cleared. -/
def Memory.clear (m : List Host.Cell) (a n : Nat) : List Host.Cell := m.filter (fun c => c.1 < a || a + n ≤ c.1)

/-- Bytes of a segment, of an ownership granule and of a row (R134). -/
def segmentBytes : Nat := 2 ^ 29
def granuleBytes : Nat := 2 ^ 21

/-- The state of an ownership entry (R154). -/
def State.owner (s : State) (g : Nat) : Byte :=
  if g / 256 ≥ 96 then 0x43
  else if s.build.segmentsOut.contains (g / 256) then 0x42
  else s.owners.getD g 0x40

/-- The words of 64 bytes that a range touches. -/
def wordsOf (a n : Nat) : List Nat := if n = 0 then [] else (List.range ((a + n - 1) / 64 + 1 - a / 64)).map (· + a / 64)

/-- A range touches a word of 64 bytes. -/
def touchesWord (a n w : Nat) : Bool := decide (n ≠ 0) && decide (a / 64 ≤ w) && decide (w ≤ (a + n - 1) / 64)

/-- A range covers a word of 64 bytes whole. -/
def coversWord (a n w : Nat) : Bool := decide (a ≤ 64 * w) && decide (64 * w + 64 ≤ a + n)

/-- The granules that a range touches. -/
def granulesOf (a n : Nat) : List Nat :=
  if n = 0 then [] else (List.range ((a + n - 1) / granuleBytes + 1 - a / granuleBytes)).map (· + a / granuleBytes)

/-- Every byte of a range lies in granules that a context owns (R155). -/
def openTo (s : State) (c : CtxId) (a n : Nat) : Bool :=
  (granulesOf a n).all (fun g => s.owner g == BitVec.ofNat 8 c.val)

/-- A range holds a poisoned word (R145). -/
def poisoned (s : State) (a n : Nat) : Bool := s.memPoison.any (touchesWord a n)

/-- n bytes of the shared store. -/
def State.ssRead (s : State) (a n : Nat) : List Byte := Memory.readN s.mem a n

/-- Queued write-backs of segment words that a write touches, cancelled (R143). The stores of segments are numbered from 3000. -/
def cancelQueued (a n : Nat) (t : Tab StoreRec) : Tab StoreRec :=
  t.mapVal (fun k r => if 3000 ≤ k then { r with queue := r.queue.filter (fun w => !touchesWord a n ((k - 3000) * 2 ^ 23 + w)) } else r)

/-- Bytes written to the shared store: a whole word written is no longer poisoned (R145, R269), its form tag is clear unless the write sets
it (R245), and a queued write-back of a word written is cancelled (R143). -/
def ssWrite (s : State) (a : Nat) (bs : List Byte) : State :=
  { s with
    stores := cancelQueued a bs.length s.stores
    mem := Memory.writeN s.mem a bs
    memPoison := s.memPoison.filter (fun w => !coversWord a bs.length w)
    memForms := s.memForms.filter (fun w => !touchesWord a bs.length w) }

/-- A range of the shared store set to zero. -/
def ssClear (s : State) (a n : Nat) : State :=
  { s with
    stores := cancelQueued a n s.stores
    mem := Memory.clear s.mem a n
    memPoison := s.memPoison.filter (fun w => !touchesWord a n w)
    memForms := s.memForms.filter (fun w => !touchesWord a n w) }

/-- A word of the shared store written as poison: its data goes nowhere (R145), and its form tag is clear (R245). -/
def ssPoison (s : State) (w : Nat) : State :=
  { s with
    stores := cancelQueued (64 * w) 64 s.stores
    mem := Memory.clear s.mem (64 * w) 64
    memPoison := if s.memPoison.contains w then s.memPoison else w :: s.memPoison
    memForms := s.memForms.filter (· ≠ w) }

/-- Rows of 4 KiB that a write touches, noted for the next mirror point of a context that is secured or syncing (R439). -/
def dirtyRows (c : CtxId) (a n : Nat) (s : State) : State :=
  { s with ctxs := s.ctxs.modify c.val (fun k =>
      if k.securing = .notSecured then k
      else
        let rows := if n = 0 then [] else (List.range ((a + n - 1) / 4096 + 1 - a / 4096)).map (· + a / 4096)
        { k with dirty := k.dirty ++ rows.filter (fun r => !k.dirty.contains r), changed := true }) }

/-- A write made for a context: by its operations, its descriptors, or an agent acting for it. -/
def ctxWrite (c : CtxId) (a : Nat) (bs : List Byte) (s : State) : State := dirtyRows c a bs.length (ssWrite s a bs)

/-- The dense row bytes of the 64 × 64 tile slot at an address: a slot whose first word carries a form tag is expanded by its
bitmap, its payload read no further than the side area (R246, R248). -/
def tileRows (s : State) (a w : Nat) : List Byte :=
  let dense := 512 * w
  if s.memForms.contains (a / 64) then
    let map := leNat (s.ssRead (a + 0x40) 512)
    let pay := leNat (s.ssRead (a + 0x240) (dense - 0x240))
    let n := (dense - 0x240) * 8 / w
    let es := ((List.range 4096).foldl (fun (l, k) i =>
      if map.testBit i then ((if k < n then pay / 2 ^ (w * k) % 2 ^ w else 0) :: l, k + 1) else (0 :: l, k)) ([], 0)).1.reverse
    packRow w es
  else s.ssRead a dense

/-! ### Sites, dies, map and record (R1, R9, R14, R15, R27 to R32) -/

/-- Site x and y of a compute site index (R14). -/
def siteX (i : Nat) : Nat := i % 10
def siteY (i : Nat) : Nat := i / 10

/-- The region of a compute site, and the sites of a region (R331). -/
def siteRegion (i : Nat) : Nat := 5 * (siteY i / 2) + siteX i / 2
def regionSites (r : Nat) : List Nat :=
  let x := 2 * (r % 5)
  let y := 2 * (r / 5)
  [10 * y + x, 10 * y + x + 1, 10 * (y + 1) + x, 10 * (y + 1) + x + 1]

/-- The sites of the 22 ring dies, in the order of R15. -/
def ringSites : List (Int × Int) :=
  [(1, -1), (4, -1), (6, -1), (8, -1), (10, 1), (10, 2), (10, 4), (10, 5), (10, 7), (10, 8), (1, 10), (3, 10), (4, 10), (6, 10),
   (8, 10), (-1, 1), (-1, 2), (-1, 4), (-1, 5), (-1, 6), (-1, 7), (-1, 8)]

/-- Site of a die. -/
def dieSite (d : Nat) : Int × Int :=
  if d < 100 then ((siteX d : Int), (siteY d : Int)) else ringSites.getD (d - 100) (-1, -1)

/-- The kinds of die (R14), numbered as DIE_KIND of R477. -/
def dieKind (d : Nat) : Nat :=
  if d < 100 then 0
  else if [100, 101, 103, 104, 106, 109, 110, 112, 114, 115, 117, 121].contains d then 1
  else if d = 118 then 2
  else if [102, 107, 113, 119].contains d then 3
  else if [105, 116].contains d then 4
  else if [108, 120].contains d then 5
  else 6

/-- The memory dies in the order MA0 to MD2, the Consort dies by port, the service and flash dies. -/
def memoryDies : List Nat := [100, 101, 103, 104, 106, 109, 110, 112, 114, 115, 117, 121]
def consortDies : List Nat := [102, 107, 113, 119]
def serviceDies : List Nat := [105, 116]
def hostDie : Nat := 118
def resonatorDie : Nat := 111

def State.site (s : State) (i : Nat) : SiteRec := s.sites.getD i {}
def State.die (s : State) (d : Nat) : DieRec := s.dies.getD d {}
def State.chan (s : State) (c : Nat) : ChanRec := s.chans.getD c {}
def State.bay (s : State) (b : Nat) : BayRec := s.bin.bays.getD b {}
def State.fnr (s : State) (f : Nat) : FnRegs := s.fns.getD f {}
def State.region (s : State) (r : Nat) : RegionRec := s.power.regions.getD r {}
def State.mark (s : State) (k : Nat) : Mark := s.marks.getD k {}
def State.port (s : State) (p : Nat) : PortRec := s.pair.ports.getD p {}
def State.ctx (s : State) (c : Nat) : Option Context := s.ctxs.find c
def State.part (s : State) (p : Nat) : Option Partition := s.parts.find p

def updSite (i : Nat) (f : SiteRec → SiteRec) (s : State) : State := { s with sites := s.sites.update i {} f }
def updDie (d : Nat) (f : DieRec → DieRec) (s : State) : State := { s with dies := s.dies.update d {} f }
def updChan (c : Nat) (f : ChanRec → ChanRec) (s : State) : State := { s with chans := s.chans.update c {} f }
def updBay (b : Nat) (f : BayRec → BayRec) (s : State) : State := { s with bin := { s.bin with bays := s.bin.bays.update b {} f } }
def updFn (n : Nat) (f : FnRegs → FnRegs) (s : State) : State := { s with fns := s.fns.update n {} f }
def updRegion (r : Nat) (f : RegionRec → RegionRec) (s : State) : State :=
  { s with power := { s.power with regions := s.power.regions.update r {} f } }
def updCtx (c : Nat) (f : Context → Context) (s : State) : State := { s with ctxs := s.ctxs.modify c f }
def updPart (p : Nat) (f : Partition → Partition) (s : State) : State := { s with parts := s.parts.modify p f }
def updSeq (n : Nat) (f : Seq → Seq) (s : State) : State := { s with seqs := s.seqs.modify n f }
def updPort (p : Nat) (f : PortRec → PortRec) (s : State) : State :=
  { s with pair := { s.pair with ports := s.pair.ports.update p {} f } }
def updStep (p : Nat) (f : Step → Step) (s : State) : State := updPart p (fun q => { q with step := q.step.map f }) s

/-- The state that the module is in leaves compute sites dark (R363). -/
def darkState (s : State) : Bool := s.life.power = .doze || s.life.power = .sleep || s.life.power = .off

/-- A site of a region is powered. -/
def regionRuns (s : State) (r : Nat) : Bool := (regionSites r).any (fun i => decide ((s.site i).power ≠ .dark))

/-- A change of the state where a test holds. -/
def onlyIf (b : Bool) (f : State → State) (s : State) : State := if b then f s else s

/-- Clusters that a grade may place (R9): 0 where there is no record. -/
def placeableLimit (code : Nat) : Nat :=
  match code with
  | 1 => 96 | 2 => 84 | 3 => 72 | _ => 0

/-- The rows of R1: maximum clock in 50 MHz units, maximum cap in 100 W units, clusters disabled, channels, ports. -/
def gradeRow (code : Nat) : Option (Nat × Nat × Nat × Nat × Nat) :=
  match code with
  | 1 => some (40, 210, 0, 48, 4)
  | 2 => some (36, 170, 8, 48, 4)
  | 3 => some (36, 140, 16, 32, 2)
  | _ => none

def State.orderCode (s : State) : Nat :=
  match s.build.record with
  | some r => r.orderCode.toNat
  | none => 0

/-- The largest permitted cap in 100 W units (R1, R369): the record's MAX_CAP; while no record is accepted it is MIN_CAP, 9.0 kW, which every
grade has (DESIGN CHOICE: notes/assumptions/58.md). -/
def State.maxCap (s : State) : Nat :=
  match s.build.record with
  | some r => r.maxCap.toNat
  | none => 90

/-- Bit n of a mask. -/
def bit {w : Nat} (m : BitVec w) (n : Nat) : Bool := m.getLsbD n

def siteDisabled (s : State) (i : Nat) : Bool :=
  match s.build.record with
  | some r => bit r.clusterDis i
  | none => true

def siteSpare (s : State) (i : Nat) : Bool :=
  match s.build.record with
  | some r => r.spareSites.any (fun b => b.toNat == i)
  | none => false

def chanEnabled (s : State) (c : Nat) : Bool :=
  match s.build.record with
  | some r => !bit r.channelDis c
  | none => false

def portEnabled (s : State) (p : Nat) : Bool :=
  match s.build.record with
  | some r => !bit r.consortDis p
  | none => false

/-- The site of a logical number (R31). -/
def State.siteOf (s : State) (n : Nat) : Nat := s.build.map.getD n n

/-- The logical number at a site. -/
def State.logicalAt (s : State) (i : Nat) : Nat := (s.build.map.findIdx? (· == i)).getD i

/-- The snake order of the compute sites (R31). -/
def snake : List Nat :=
  (List.range 10).flatMap (fun y => (List.range 10).map (fun x => 10 * y + (if y % 2 = 0 then x else 9 - x)))

/-- The logical cluster map as a start builds it (R31): enabled sites, then disabled, then spare sites. -/
def buildMap (s : State) : List Nat :=
  snake.filter (fun i => !siteDisabled s i && !siteSpare s i) ++ snake.filter (fun i => siteDisabled s i && !siteSpare s i)
    ++ snake.filter (fun i => siteSpare s i)

/-- The cluster of a logical number is in service: mapped, and neither retired nor lost. -/
def clusterGood (s : State) (n : Nat) : Bool :=
  let r := s.site (s.siteOf n)
  n < s.build.map.length && !s.build.unmapped.contains n && !r.retired && !r.lost

/-- A group that a partition may be formed from (R9, R32). -/
def groupPlaceable (s : State) (g : Nat) : Bool :=
  12 * g + 12 ≤ placeableLimit s.orderCode && (List.range 12).all (fun k => clusterGood s (12 * g + k))

/-- The logical clusters of a partition, in ascending order (R32). -/
def Partition.clusters (p : Partition) : List Nat := p.groups.flatMap (fun g => (List.range 12).map (fun k => 12 * g + k))

/-- The partition that holds a logical cluster. -/
def partOf (s : State) (n : Nat) : Option Nat := (s.parts.find? (fun e => e.2.groups.contains (n / 12))).map (·.1)

/-- Fabric hops between two sites. -/
def hops (a b : Int × Int) : Nat := (a.1 - b.1).natAbs + (a.2 - b.2).natAbs

/-! ### Positions and the instances of the Reckoner (R282, R339, R340) -/

/-- The site of a fabric position (R282). -/
def posSite (n : Nat) : Int × Int := ((n % 12 : Nat) - 1, (n / 12 : Nat) - 1)

/-- The fabric position of a site. -/
def sitePos (xy : Int × Int) : Nat := ((xy.2 + 1) * 12 + (xy.1 + 1)).toNat

/-- What is left of a difference: an instance slews by one tick in eight until it lies within −1 to 1 (R340). -/
def Drift.left (x : Drift) (now : W64) : Int :=
  let k : Int := (now - x.at_).toNat / 8
  if x.d < -1 then min (-1) (x.d + k) else if 1 < x.d then max 1 (x.d - k) else x.d

/-- The reading of a position's instance: the anchor's count with what is left of its difference, never less than it has read (R339). -/
def instanceReads (s : State) (pos : Nat) : W64 :=
  match s.reck.offset.find pos with
  | none => s.now
  | some x =>
    let v := s.now + BitVec.ofInt 64 (x.left s.now)
    if v < x.floor then x.floor else v

/-- The instance in service nearest a position, ties to the lower position. -/
def nearestInstance (s : State) (pos : Nat) : Nat :=
  ((List.range 144).filter (fun p => !s.reck.faulty.contains p)).foldl
    (fun b p => if hops (posSite pos) (posSite p) < hops (posSite pos) (posSite b) || s.reck.faulty.contains b then p else b) pos

/-- The Reckoner at a position (R339). At a faulty instance's site it is the nearest instance in service, as it read a hop delay ago and with that
delay added, which is what it reads now (R340). -/
def instanceNow (s : State) (pos : Nat) : W64 :=
  if s.reck.faulty.contains pos then instanceReads s (nearestInstance s pos) else instanceReads s pos

/-- The Reckoner at a die's site or ring position, of which a timestamp made there is taken (R339). -/
def dieNow (s : State) (d : Nat) : W64 := instanceNow s (sitePos (dieSite d))

/-- The Reckoner at the active service die (R339; which die takes a record's timestamp: DEDUCED, notes/assumptions/39.md). -/
def serviceNow (s : State) : W64 := dieNow s (serviceDies.getD ((s.mgmt.active).getD 0).val 105)

/-- A difference found at an epoch; the instance reads on from what it reads now. -/
def setDrift (pos : Nat) (d : Int) (s : State) : State :=
  let v := instanceNow s pos
  { s with reck := { s.reck with offset :=
      if d = 0 && v ≤ s.now then s.reck.offset.drop pos else s.reck.offset.put pos ⟨d, s.now, v⟩ } }

/-! ### Units (R25) -/

/-- A site coordinate as a chart byte. -/
def xyByte (i : Int) : Byte := BitVec.ofInt 8 i

/-- A unit at a die's site. -/
def dieUnit (unit : Byte) (d : Nat) (a b : Nat) (c : Nat) : UnitRef :=
  ⟨unit, xyByte (dieSite d).1, xyByte (dieSite d).2, BitVec.ofNat 16 a, BitVec.ofNat 16 b, BitVec.ofNat 32 c⟩

/-- A unit at the site of a logical cluster. -/
def clusterUnit (s : State) (unit : Byte) (n a b c : Nat) : UnitRef := dieUnit unit (s.siteOf n) a b c

/-- A unit that names no site. -/
def bareUnit (unit : Byte) (a b : Nat) (c : Nat := 0) : UnitRef :=
  ⟨unit, 0x7F, 0x7F, BitVec.ofNat 16 a, BitVec.ofNat 16 b, BitVec.ofNat 32 c⟩

/-- The die at a unit's site. -/
def unitDie (u : UnitRef) : Option Nat :=
  (List.range 122).find? (fun d => xyByte (dieSite d).1 == u.x && xyByte (dieSite d).2 == u.y)

/-- A group's number: seam groups by line and group, bond groups by die and die-local group. -/
def groupKey (u : UnitRef) : Nat :=
  if u.unit = 0x01 then 2 ^ 32 + u.a.toNat * 2 ^ 16 + u.b.toNat
  else 2 ^ 33 + (unitDie u).getD 0 * 2 ^ 16 + u.a.toNat

/-- The wire or pad of a group that a unit names. -/
def groupWire (u : UnitRef) : Nat := if u.unit = 0x01 then u.c.toNat else u.b.toNat

/-! ### Grade and status (R17, R18, R257) -/

def chansInService (s : State) : List Nat :=
  (List.range 48).filter (fun c => chanEnabled s c && decide ((s.chan c).state = .inService))

/-- Enabled channels out of service (R17, R309): one that is being taken out serves until it stops (R323). -/
def chansOut (s : State) : Nat :=
  count (List.range 48) (fun c => chanEnabled s c && decide ((s.chan c).state ≠ .inService) && decide ((s.chan c).state ≠ .takingOut))

def sv (s : State) (d : Nat) : ServiceDie := if d = 0 then s.mgmt.sv0 else s.mgmt.sv1

/-- The other of two service dies. -/
def otherDie (n : Fin 2) : Fin 2 := if n = 0 then 1 else 0

/-- The grade state of R17: 0 in grade, 1 degraded, 2 out of grade (DEDUCED: notes/assumptions/11.md says how its rows are read). A PCIe
link that is down is not judged (DESIGN CHOICE: notes/assumptions/58.md). -/
def gradeOf (s : State) : Nat :=
  let lost := s.wafer.wires.any (fun e => e.2.length ≥ 2)
  let unmapped := s.build.unmapped.any (fun n => n < placeableLimit s.orderCode)
  let ports := (List.range 4).filter (fun p => portEnabled s p && s.bin.consortCables.has p)
  let trained := ports.filter (fun p => decide ((s.port p).lanes > 0))
  let services := (if s.mgmt.sv0.works then 1 else 0) + (if s.mgmt.sv1.works then 1 else 0)
  let flashes := (if s.flash0.works then 1 else 0) + (if s.flash1.works then 1 else 0)
  if s.build.recordBad || lost || s.life.firmware = .recovery || s.life.firmware = .none || unmapped || s.wafer.longRoutes || !s.build.segmentsOut.isEmpty || decide (chansOut s > 4)
      || (!ports.isEmpty && trained.isEmpty) || services == 0 || flashes == 0 || (s.die hostDie).failed
      || (s.power.ownBad && decide (s.power.source ≠ .partner)) then 2
  else if decide (chansOut s > 0) || decide (trained.length < ports.length) || services == 1 || flashes == 1 || s.power.ownBad
      || (s.link.up && (decide (s.link.width < 16) || decide (s.link.speed < 7))) then 1
  else 0

/-- Clusters placed or placeable (R257): those of partitions, a number that no cluster serves apart (R34), and those of placeable groups. -/
def clustersUsable (s : State) : Nat :=
  count (List.range 96) (fun n =>
    !s.build.unmapped.contains n && (s.parts.any (fun e => e.2.groups.contains (n / 12)) || groupPlaceable s (n / 12)))

/-- Placeable groups that are in no partition (R257). -/
def groupsFree (s : State) : Nat :=
  count (List.range 8) (fun g => groupPlaceable s g && !s.parts.any (fun e => e.2.groups.contains g))

/-- FW_ACTIVATION: from the end of the hold to the commit (R504). -/
def Update.activating (u : Update) : Bool :=
  match u.phase with
  | .switching _ => true
  | .checking _ => true
  | .idle => false
  | .standbyRestart => false
  | .hold => false

/-- GLB_STATUS (R257). -/
def glbStatus (s : State) : W32 :=
  let b (x : Bool) (n : Nat) : Nat := if x then 2 ^ n else 0
  BitVec.ofNat 32 (2 ^ 24 * (chansInService s).length + 2 ^ 16 * groupsFree s + 2 ^ 8 * clustersUsable s
    + b s.update.activating 5 + b s.life.resetting 4 + b s.life.ready 3
    + b (s.build.recordBad && decide (s.mgmt.active ≠ none)) 2 + s.build.grade)

/-- GLB_DIMM_GB (R257). -/
def glbDimmGb (s : State) : W32 := BitVec.ofNat 32 (s.build.channelGb * (chansInService s).length)

/-! ### Settings (R315, R369, R385, R434, R466 to R468) -/

/-- The number under which the store keeps a setting. -/
def settingNum : Setting → Nat
  | .trainMode => 0 | .pwrCap => 1 | .pwrAutoWake => 2 | .pwrMode => 3 | .errAuditInterval => 4
  | .cnsMode => 5 | .cnsPairId => 6 | .cnsRole => 7 | .cnsStepLoss => 8 | .cnsHoldMax => 9 | .cnsTakeover => 10
  | .cnsPartnerAddr => 11 | .svcIpMode => 12 | .svcIpv4 => 13 | .svcIpv6 => 14 | .svcHttpsPort => 15
  | .svcCollectorAddr => 16 | .svcCollectorPort => 17 | .svcStreamLevel => 18 | .svcSessionTimeout => 19
  | .svcConsoleBaud => 20 | .svcConsoleIdle => 21

/-- The value at default; an address that is none is 0 (R369, R385, R434, R468). -/
def settingDefault (maxCap : Nat) : Setting → Nat
  | .trainMode => 0 | .pwrCap => maxCap | .pwrAutoWake => 1 | .pwrMode => 0 | .errAuditInterval => 64
  | .cnsMode => 1 | .cnsPairId => 0 | .cnsRole => 0 | .cnsStepLoss => 8 | .cnsHoldMax => 1000 | .cnsTakeover => 1
  | .cnsPartnerAddr => 0 | .svcIpMode => 0 | .svcIpv4 => 0 | .svcIpv6 => 0 | .svcHttpsPort => 443
  | .svcCollectorAddr => 0 | .svcCollectorPort => 5940 | .svcStreamLevel => 2 | .svcSessionTimeout => 600
  | .svcConsoleBaud => 115200 | .svcConsoleIdle => 900

/-- A setting as the store holds it; no stored PWR_CAP stands above the grade's limit (R1). -/
def State.setting (s : State) (k : Setting) : Nat :=
  let v := s.settings.values.getD (settingNum k) (settingDefault s.maxCap k)
  if k = .pwrCap then min v s.maxCap else v

/-! ### Reports (R401, R472 to R475, R485) -/

/-- The level of a stream record (R473); a report outside the stream has none. -/
def Report.level : Report → Nat
  | .module _ _ => 1 | .die _ _ _ => 2 | .counters _ _ _ => 2 | .event _ => 0 | .voltage _ _ _ => 2 | .energy _ _ => 1
  | .lookout _ _ => 1 | .binnacle _ => 1 | .note _ _ _ => 0 | .grade _ _ => 0 | .platformEvent _ _ => 0

/-- Records kept while the collector is unreachable (R475). -/
def Report.isKept : Report → Bool
  | .event _ => true | .energy _ _ => true | .lookout _ _ => true | .binnacle _ => true
  | .module _ _ => false | .die _ _ _ => false | .counters _ _ _ => false | .voltage _ _ _ => false
  | .note _ _ _ => false | .grade _ _ => false | .platformEvent _ _ => false

/-- The collector counts as unreachable (R475). -/
def collectorDown (s : State) : Bool := !s.bin.ethernet || !s.mgmt.reachable

/-- Datagrams that carry a record: a Lookout record travels in parts of at most 40 entries (R474). -/
def Report.datagrams : Report → Nat
  | .lookout _ parts => parts
  | _ => 1

/-- A record kept within the 4,096 of R401. -/
def keepRecord (r : Report) (s : State) : State :=
  if s.mgmt.kept.length < 4096 then { s with mgmt := { s.mgmt with kept := s.mgmt.kept ++ [r] } }
  else { s with mgmt := { s.mgmt with kept := s.mgmt.kept.drop 1 ++ [r] }, errs := { s.errs with lost := s.errs.lost + 1 } }

/-- A record put on the stream: its datagrams take the next numbers of the epoch (R472). -/
def sendNow (r : Report) (s : State) : State :=
  let m := s.mgmt
  { s with mgmt := { m with
    stream := m.stream ++ [r], headers := m.headers ++ [⟨m.seq, m.epoch, m.active.getD 0⟩], seq := m.seq + BitVec.ofNat 32 r.datagrams } }

/-- A record of the stream sent, kept or dropped (R472, R473, R475): a datagram carries one record
(DEDUCED: notes/assumptions/12.md). -/
def sendRecord (r : Report) (s : State) : State :=
  if s.mgmt.active.isNone || s.setting .svcCollectorAddr = 0 || s.setting .svcStreamLevel < r.level then s
  else if collectorDown s then (if r.isKept then keepRecord r s else s)
  else sendNow r s

/-- A report to the management network, made while a service die is active. One made while the Ethernet link is down is kept and stands with
the others (R55; DESIGN CHOICE: notes/assumptions/58.md). -/
def note (k : NoteKind) (a b : Nat) (s : State) : State :=
  if s.mgmt.active.isNone then s else { s with mgmt := { s.mgmt with notes := s.mgmt.notes ++ [.note k a b] } }

/-- A PlatformEventMessage over the sideband (R485). -/
def platformEvent (k : PlatformKind) (a : Nat) (s : State) : State :=
  if s.mgmt.active.isNone then s else { s with mgmt := { s.mgmt with i3c := s.mgmt.i3c ++ [.platformEvent k a] } }

/-- An answer to a requester of the management side. -/
def answer (a : Answer) (s : State) : State := { s with mgmt := { s.mgmt with answers := s.mgmt.answers ++ [a] } }

/-- A Binnacle event, kept in the logbook for 365 days and sent (R473, R482). -/
def binnacleEvent (event bay : Byte) (detail : W16) (s : State) : State :=
  if s.mgmt.active.isNone then s
  else
    let e : BinnacleEvent := ⟨serviceNow s, event, bay, detail⟩
    let kept := s.log.binnacle.filter (fun x => decide ((serviceNow s - x.time).toNat < 365 * 86400 * ticksPerSecond))
    sendRecord (.binnacle e) { s with log := { s.log with binnacle := kept ++ [e] } }

/-- A list with the members of another that it does not hold. -/
def union (a b : List Nat) : List Nat := b.foldl (fun l x => if l.contains x then l else l ++ [x]) a

/-! ### Host writes and events (R256, R257, R277) -/

/-- A request of the W96 on a function's behalf: sent, held while Bus Master Enable is clear (R256), dropped with no link. -/
def emit (f : Nat) (w : HostWrite) (s : State) : State :=
  if !s.link.up then s
  else if (s.fnr f).bme then { s with hostOut := s.hostOut ++ [w] }
  else updFn f (fun r => { r with held := r.held ++ [w] }) s

/-- A number as a function; the PF for any other. -/
def asFn (f : Nat) : Fn := if h : f < 9 then ⟨f, h⟩ else 0

/-- An MSI-X vector of a function raised (R277): its message is sent, or its pending bit set while the vector or the function is masked; with
MSI-X not enabled nothing is sent (PRESUMED: notes/assumptions/61.md). -/
def interrupt (f v : Nat) (s : State) : State :=
  let r := s.fnr f
  let e := r.vectors.getD v {}
  if !r.msixOn then s
  else if r.msixMask || e.masked then updFn f (fun r => { r with pba := union r.pba [v] }) s
  else emit f (.interrupt (asFn f) v e.addr e.data) s

/-- Vectors of a function that pend and are no longer masked are sent (R277). -/
def sendPending (f : Nat) (s : State) : State :=
  (s.fnr f).pba.foldl (fun s v => interrupt f v (updFn f (fun r => { r with pba := r.pba.filter (· ≠ v) }) s)) s

/-- An event set in a function, which raises the function's vector where its mask bit is set (R257, R277). -/
def raise (f : Nat) (n : Nat) (s : State) : State :=
  let r := s.fnr f
  let s := updFn f (fun r => { r with event := r.event ||| BitVec.ofNat 6 (2 ^ n) }) s
  if bit r.mask n then interrupt f r.eventVec.toNat s else s

/-- The bits of GLB_EVENT. -/
def evStatus : Nat := 0
def evScrub : Nat := 1
def evLookout : Nat := 2
def evSetup : Nat := 3
def evLink : Nat := 4
def evHalted : Nat := 5

/-- A group has two failed wires or more (R16). -/
def groupLost (s : State) (key : Nat) : Bool := decide (2 ≤ (s.wafer.wires.getD key []).length)

/-- A chart entry names a repair that takes the module out of grade, or degrades it (R17, R18): a group with two failed wires, a cluster
without a replacement, an enabled channel, a link where a route is too long, a segment, a service or flash die, or an enabled port. -/
def setsGrade (s : State) (e : ChartEntry) : Bool :=
  match e.unit.unit.toNat with
  | 0x01 => groupLost s (groupKey e.unit)
  | 0x02 => groupLost s (groupKey e.unit)
  | 0x08 => e.action == 0x05
  | 0x0A => chanEnabled s (12 * e.unit.a.toNat + e.unit.b.toNat)
  | 0x0B => s.wafer.longRoutes
  | 0x0C => true
  | 0x0D => true
  | 0x0E => true
  | 0x0F => e.unit.b == 0xFF && portEnabled s e.unit.a.toNat
  | _ => false

/-- The chart entries that set the grade state (R18). -/
def gradeEntries (s : State) : List ChartEntry := (s.build.chart ++ s.build.volatile).filter (setsGrade s)

/-- A report to the management network of the grade state and the entries that set it (R18). -/
def noteGrade (g : Nat) (s : State) : State :=
  if s.mgmt.active.isNone then s else { s with mgmt := { s.mgmt with notes := s.mgmt.notes ++ [.grade g (gradeEntries s)] } }

/-- The grade state as it stands now; a start leaves it as it was. -/
def regrade (s : State) : State :=
  let g := if s.life.phase = .running then gradeOf s else s.build.grade
  if g = s.build.grade then s else { s with build := { s.build with grade := g, gradeDue := true } }

/-- A grade state to report is reported, by the first service die that is active (R18, R404, R485). -/
def reportGrade (s : State) : State :=
  let s := regrade s
  if s.build.gradeDue && s.mgmt.active.isSome then
    platformEvent .grade s.build.grade (noteGrade s.build.grade { s with build := { s.build with gradeDue := false } })
  else s

/-- After a command: a changed grade is reported, and a changed GLB_STATUS or GLB_DIMM_GB raises STATUS_CHANGED in the PF
(R18, R257). -/
def settle (before s : State) : State :=
  let s := reportGrade s
  if glbStatus before ≠ glbStatus s || glbDimmGb before ≠ glbDimmGb s then raise 0 evStatus s else s

/-- The answer of a command whose effect may change the module's status. -/
def done (s : State) (f : State → State) : Out := .next (settle s (f s))

/-- A context halts (R273); one that is halted already stays so, with no second event. -/
def haltCtx (c : Nat) (s : State) : State :=
  match s.ctx c with
  | none => s
  | some k =>
    if k.halted then s else
    let s := updCtx c (fun k => { k with halted := true }) s
    raise (k.part.val + 1) evHalted (raise 0 evHalted s)

end Sys2Proof.Machine
end

