-- ==== Sys2Proof/Machine/Network.lean ====
section
/-! DEFINITION. The fabric: its positions and links, routes, virtual channels and their arbitration, and the messages on VC0 between Navigators and mark
units (R282 to R290, R293).
Rests on the log entries (notes/assumptions/<n>.md) 24 (DESIGN CHOICE). -/
namespace Sys2Proof.Machine

/-! ### Positions and links (R282, R290) -/

/-- The links of a position: east, south, west, north, where the grid has them. -/
def linksAt (pos : Nat) : List (Nat × Bool) :=
  (if pos % 12 < 11 then [(pos, false)] else []) ++ (if pos / 12 < 11 then [(pos, true)] else [])
    ++ (if pos % 12 = 0 then [] else [(pos - 1, false)]) ++ (if pos / 12 = 0 then [] else [(pos - 12, true)])

/-- Neighbours of a position over links in service. -/
def neighbours (out : List (Nat × Bool)) (pos : Nat) : List Nat :=
  ((linksAt pos).filter (fun l => !out.contains l)).map (fun l =>
    if l.1 ≠ pos then l.1 else if l.2 then pos + 12 else pos + 1)

/-- Positions within n links of some positions. -/
def reachSet (out : List (Nat × Bool)) : Nat → List Nat → List Nat
  | 0, l => l
  | n + 1, l => reachSet out n (union l (l.flatMap (neighbours out)))

/-- The host die's position (−1, 5). -/
def hostPos : Nat := 72

/-- Site of a mark unit. -/
def unitSite (u : Nat) : Int × Int := (1 + (u % 8 : Nat), 1 + (u / 8 : Nat))

/-- The mark unit nearest a site, ties to the lower unit. -/
def nearestUnit (xy : Int × Int) : Nat :=
  (List.range 64).foldl (fun b u => if hops xy (unitSite u) < hops xy (unitSite b) then u else b) 0

/-- Site of a partition's lead cluster. -/
def leadSite (s : State) (p : Nat) : Int × Int :=
  match s.part p with
  | some q => dieSite (s.siteOf (q.clusters.headD 0))
  | none => (0, 0)

/-- Position of a mark unit. -/
def unitAt (u : Nat) : Nat := sitePos (unitSite u)

/-! ### Routes (R284) -/

/-- The next position of a route that goes x first and then y. -/
def xyNext (a b : Nat) : Nat :=
  if a % 12 < b % 12 then a + 1 else if b % 12 < a % 12 then a - 1 else if a / 12 < b / 12 then a + 12 else if b / 12 < a / 12 then a - 12 else a

/-- Links between two positions by the shortest way over links in service. -/
def distance (out : List (Nat × Bool)) (a b : Nat) : Option Nat := (List.range 144).find? (fun n => (reachSet out n [a]).contains b)

/-- A next position on a shortest path, of which the service die takes one (DESIGN CHOICE: notes/assumptions/24.md). -/
def shortestHop (out : List (Nat × Bool)) (vc : Fin 4) (a b : Nat) : Nat :=
  match distance out b a with
  | some (n + 1) =>
    let next := (neighbours out a).filter (fun p => (reachSet out n [b]).contains p)
    next.getD (Config.routeChoice out vc.val a b % next.length) a
  | _ => a

/-- The positions of a route, from its source, by a table of next positions. -/
def routeFrom (next : Nat → Nat → Nat) (b : Nat) : Nat → Nat → List Nat
  | 0, a => [a]
  | n + 1, a => if a = b then [a] else a :: routeFrom next b n (next a b)

/-- The port of a router towards a neighbour: 0 north, 1 east, 2 south, 3 west; 4 is the die's, 5 the segment's and 6 the mark unit's. -/
def exitPort (a b : Nat) : Nat := if b + 12 = a then 0 else if b = a + 1 then 1 else if b = a + 12 then 2 else 3

/-- A link direction's number. -/
def dirKey (a b : Nat) : Nat := 4 * a + exitPort a b

/-- The link directions of a route, in order. -/
def dirsOf (path : List Nat) : List Nat := (path.zip (path.drop 1)).map (fun x => dirKey x.1 x.2)

/-- The buffer dependencies of a table: a link direction whose flits wait for the buffer of another. -/
def dependencies (next : Nat → Nat → Nat) : List (Nat × Nat) :=
  ((List.range 144).flatMap (fun a => (List.range 144).flatMap (fun b =>
    let ds := dirsOf (routeFrom next b 143 a)
    ds.zip (ds.drop 1)))).eraseDups

/-- Dependencies left when those on a link direction that depends on none are taken away, some times over. -/
def peel : Nat → List (Nat × Nat) → List (Nat × Nat)
  | 0, l => l
  | n + 1, l => peel n (l.filter (fun e => l.any (fun f => f.1 == e.2)))

/-- No virtual channel has a cycle of buffer dependencies under a table (R284). -/
def acyclic (next : Nat → Nat → Nat) : Bool := (peel 528 (dependencies next)).isEmpty

/-- The order of positions that keeps routes free of cycles: by distance from a root, then by number. -/
def rank (out : List (Nat × Bool)) (root a : Nat) : Nat := (distance out root a).getD 144 * 144 + a

/-- Positions from which a destination is reached in n links or fewer that all lead away from the root. -/
def downSet (out : List (Nat × Bool)) (root : Nat) : Nat → List Nat → List Nat
  | 0, l => l
  | n + 1, l => downSet out root n (union l (l.flatMap (fun a => (neighbours out a).filter (fun p => decide (rank out root p < rank out root a)))))

/-- Links from a position to a destination where a route first goes towards the root, as far as it must, and then only away from it. -/
def upDownLength (out : List (Nat × Bool)) (root b : Nat) : Nat → Nat → Option Nat
  | 0, _ => none
  | n + 1, a =>
    match (List.range 144).find? (fun k => (downSet out root k [b]).contains a) with
    | some k => some k
    | none => (((neighbours out a).filter (fun p => decide (rank out root p < rank out root a))).filterMap (upDownLength out root b n)).min?.map (· + 1)

/-- The next position of such a route, of the shortest. -/
def upDownHop (out : List (Nat × Bool)) (vc : Fin 4) (a b : Nat) : Nat :=
  let root := Config.routeRoot out vc.val % 144
  let up (p : Nat) : Bool := decide (rank out root p < rank out root a)
  let next := match (List.range 144).find? (fun k => (downSet out root k [b]).contains a) with
    | some (k + 1) => (neighbours out a).filter (fun p => !up p && (downSet out root k [b]).contains p)
    | some 0 => []
    | none => (neighbours out a).filter (fun p => up p && (upDownLength out root b 143 p).map (· + 1) == upDownLength out root b 144 a)
  next.headD a

/-- The entry of a router's table for a destination on a virtual channel (R284): with every link in service x first and then y; otherwise a next
position on a shortest path, or, where those paths have a cycle of buffer dependencies, on the shortest that goes towards a root and then away from it,
which has none (DESIGN CHOICE: notes/assumptions/24.md). -/
def nextHop (out : List (Nat × Bool)) (vc : Fin 4) (a b : Nat) : Nat :=
  if out.isEmpty then xyNext a b
  else if acyclic (shortestHop out vc) then shortestHop out vc a b
  else upDownHop out vc a b

def fabricRoute (out : List (Nat × Bool)) (vc : Fin 4) (a b : Nat) : List Nat := routeFrom (nextHop out vc) b 143 a

/-- A route goes from one position to the next. -/
def crosses (path : List Nat) (a b : Nat) : Bool := (path.zip (path.drop 1)).contains (a, b)

/-! ### Link directions and outputs (R283, R286, R287) -/

/-- The n-th flit of a virtual channel that a direction's replay buffer holds, oldest first. -/
def LinkDir.unacknowledged (d : LinkDir) (vc : Fin 4) (n : Nat) : Option Flit := (d.replay.filter (·.vc == vc))[n]?

/-- A retry of a flit fails: its count rises. A flit sent once enters the replay buffer so, with the next number, and holds a buffer of the receiver,
which the sender has a credit for. -/
def LinkDir.failed (vc : Fin 4) (n : Nat) (d : LinkDir) : LinkDir :=
  match d.unacknowledged vc n with
  | some f => { d with replay := d.replay.map (fun x => if x = f then { x with retries := x.retries + 1 } else x) }
  | none =>
    if d.credits.getD vc.val 0 = 0 then d
    else { seq := d.seq + 1, replay := d.replay ++ [⟨vc, d.seq, 1⟩], credits := d.credits.modify vc.val (· - 1) }

/-- A flit is acknowledged: it leaves the replay buffer, and its credit returns. -/
def LinkDir.acknowledged (vc : Fin 4) (n : Nat) (d : LinkDir) : LinkDir :=
  match d.unacknowledged vc n with
  | some f => { d with replay := d.replay.filter (· ≠ f), credits := d.credits.modify vc.val (· + 1) }
  | none => d

/-- Every link of a route has a credit left for a virtual channel (R286). -/
def pathOpen (s : State) (vc : Fin 4) (path : List Nat) : Bool :=
  (dirsOf path).all (fun k => decide (0 < (s.wafer.dirs.getD k {}).credits.getD vc.val 0))

/-- Round robin among inputs that compete (R286): the first after the one served last. -/
def nextInput (last : Nat) (inputs : List Nat) : Option Nat :=
  match inputs.filter (fun i => decide (last < i)) with
  | i :: _ => some i
  | [] => inputs.head?

/-- The virtual channel that an output serves next (R286, R287): VC0 ahead of all; of the others in turn one that has some of its weight left, with the
weight that an idle channel leaves unused going to those that wait. -/
def nextVc (share : List Nat) (waits : Fin 4 → Bool) : Option (Fin 4) × List Nat :=
  let bulk : List (Fin 4) := [1, 2, 3]
  if waits 0 then (some 0, share)
  else
    match bulk.find? (fun v => waits v && decide (0 < share.getD (v.val - 1) 0)) with
    | some v => (some v, share.modify (v.val - 1) (· - 1))
    | none =>
      match bulk.find? waits with
      | some v => (some v, vcWeights.modify (v.val - 1) (· - 1))
      | none => (none, share)

/-- An output serves one of the flits that wait for it, each with its input and virtual channel: of a channel with a credit, by its priority, and
of that channel's inputs in round robin. -/
def OutPort.serve (credits : List Nat) (waiting : List (Nat × Fin 4)) (o : OutPort) : Option (Nat × Fin 4) × OutPort :=
  let ready := waiting.filter (fun w => decide (0 < credits.getD w.2.val 0))
  match nextVc o.share (fun v => ready.any (fun w => w.2 == v)) with
  | (some v, share) =>
    match nextInput (o.served.getD v.val 0) ((ready.filter (fun w => w.2 == v)).map (·.1)) with
    | some i => (some (i, v), { served := o.served.set v.val i, share := share })
    | none => (none, o)
  | (none, _) => (none, o)

/-- Flits of a packet cross from a router to its neighbour: the output has served them, and the link has counted them. The credit of each returns as the
neighbour sends it on. -/
def crossLink (a b input : Nat) (vc : Fin 4) (flits : Nat) (s : State) : State :=
  let d := s.wafer.dirs.getD (dirKey a b) {}
  { s with wafer := { s.wafer with
      outs := s.wafer.outs.update (8 * a + exitPort a b) {} (fun o => (o.serve d.credits [(input, vc)]).2)
      dirs := s.wafer.dirs.put (dirKey a b) { d with seq := d.seq + flits } } }

/-- A packet goes along a route. -/
def followRoute (vc : Fin 4) (flits : Nat) : List Nat → Nat → State → State
  | a :: b :: rest, input, s => followRoute vc flits (b :: rest) ((exitPort a b + 2) % 4) (crossLink a b input vc flits s)
  | _, _, s => s

/-- Inputs with a packet for one output on one virtual channel, in the order in which its round robin serves them (R286): each entry is a number and its
input. -/
def servedOrder (vc : Fin 4) : Nat → List (Nat × Nat) → OutPort → List Nat × OutPort
  | 0, l, o => (l.map (·.1), o)
  | n + 1, l, o =>
    match o.serve vcBuffers (l.map (fun x => (x.2, vc))) with
    | (some (i, _), o) =>
      match l.find? (fun x => x.2 == i) with
      | some x =>
        let (r, o) := servedOrder vc n (l.erase x) o
        (x.1 :: r, o)
      | none => (l.map (·.1), o)
    | (none, o) => (l.map (·.1), o)

/-! ### Messages on VC0 (R285, R287, R293) -/

/-- A signal or a wait, on its way to a mark unit. -/
def Message.isSignal (m : Message) : Bool :=
  match m.body with
  | .signal _ _ _ => true
  | .ack => false
  | .wake => false

/-- Where a message comes from and goes to: the partition's lead cluster and the unit. -/
def Message.ends (s : State) (m : Message) : Nat × Nat :=
  let a := sitePos (leadSite s m.part.val)
  if m.isSignal then (a, unitAt m.unit) else (unitAt m.unit, a)

/-- Its key among sequence numbers. -/
def Message.key (s : State) (m : Message) : Nat := (m.ends s).1 * 144 + (m.ends s).2

/-- Its route by the tables installed. -/
def Message.path (s : State) (m : Message) : List Nat := fabricRoute s.wafer.routesFor 0 (m.ends s).1 (m.ends s).2

/-- The buffers on its route have room for it (R286). -/
def Message.mayCross (s : State) (m : Message) : Bool := pathOpen s 0 (m.path s)

/-- Its destination has not had it. -/
def Message.fresh (s : State) (m : Message) : Bool := decide (s.net.got.getD (m.key s) 0 ≤ m.seq)

/-- Two messages have one sender. -/
def Message.sameSender (m x : Message) : Bool := m.isSignal == x.isSignal && (if m.isSignal then m.part == x.part else m.unit == x.unit)

/-- Local ports accept what they may: nothing while routes change, and at most 4 messages of a sender outstanding (R285, R287). -/
def admitMessages (s : State) : State :=
  if s.wafer.stopped then s
  else s.net.ports.foldl (fun s m =>
    if count s.net.fabric (m.sameSender ·) < 4 then { s with net := { s.net with fabric := s.net.fabric ++ [m], ports := s.net.ports.erase m } }
    else s) s

/-- A message is handed to the fabric. -/
def sendMsg (p : PartId) (unit : Nat) (body : MsgBody) (s : State) : State :=
  let m : Message := ⟨p, unit, 0, body⟩
  let n := s.net.sent.getD (m.key s) 0
  admitMessages { s with net := { s.net with sent := s.net.sent.put (m.key s) (n + 1), ports := s.net.ports ++ [{ m with seq := n }] } }

/-- A message reaches its destination, which discards any further copy of it; its sender may send another. -/
def received (m : Message) (s : State) : State :=
  let s := followRoute 0 1 (m.path s) (if m.isSignal then 4 else 6) s
  admitMessages { s with net := { s.net with
    fabric := s.net.fabric.filter (· ≠ m), stuck := s.net.stuck.filter (· ≠ m), got := s.net.got.put (m.key s) (m.seq + 1) } }

/-- The first message in the fabric that meets a test, with credits on its route, is received. -/
def takeMsg (f : Message → Bool) (s : State) : Option State := (s.net.fabric.find? (fun m => f m && m.mayCross s)).map (fun m => received m s)

/-- A message that meets a test waits where it cannot arrive. -/
def msgWaits (f : Message → Bool) (s : State) : Bool :=
  s.net.ports.any f || s.net.stuck.any f || s.net.fabric.any (fun m => f m && !m.mayCross s)

/-- Messages whose route uses a link that has gone wait in a replay buffer (R285). -/
def strand (pos : Nat) (south : Bool) (s : State) : State :=
  let far := if south then pos + 12 else pos + 1
  let hit (m : Message) : Bool := crosses (m.path s) pos far || crosses (m.path s) far pos
  { s with net := { s.net with fabric := s.net.fabric.filter (fun m => !hit m), stuck := s.net.stuck ++ s.net.fabric.filter hit } }

end Sys2Proof.Machine
end

