-- ==== Sys2Proof/Machine/Faults.lean ====
section
/-! DEFINITION. Errors and repairs as operations that several families share: detection and outcome records, the chart, spare
resources, the retirement of a cluster and the loss of a segment (R16 to R34, R150 to R153, R378 to R401, R519).
Rests on the log entries (notes/assumptions/<n>.md) 14 (DESIGN CHOICE), 39 (DEDUCED), 41 (DESIGN CHOICE), 44 (DEDUCED), 45 (DEDUCED), 48 (DEDUCED), 57
(DESIGN CHOICE), 58 (DESIGN CHOICE), 60 (DEDUCED). -/
namespace Sys2Proof.Machine

/-! ### Counters of R399 -/

/-- A 32-bit saturating count. -/
def satAdd (a b : Nat) : Nat := min (a + b) 0xFFFFFFFF

def updCounters (d : Nat) (f : DieCounters → DieCounters) : State → State :=
  updDie d (fun r => { r with counters := f r.counters })

/-! ### Event records (R400) -/

/-- Event records the logbook holds (R482). -/
def logbookEvents : Nat := 2097152

/-- A record put in the logbook: when it is full, the oldest transient, no-fault or inconclusive record gives way; lasting
ones never do, and among those alone a new record finds no place (DESIGN CHOICE: notes/assumptions/58.md). -/
def logEvent (r : EventRecord) (l : Logbook) : Logbook :=
  let gives (e : EventRecord) : Bool := e.outcome == 0x01 || e.outcome == 0x03 || e.outcome == 0x04
  if l.events.length < logbookEvents then { l with events := l.events ++ [r] }
  else if l.events.any gives then { l with events := l.events.eraseP gives ++ [r] }
  else l

/-- An event record given its number, sent and logged; none while no service die is active. -/
def recordEvent (r : EventRecord) (s : State) : State :=
  if s.mgmt.active.isNone then s
  else
    let r := { r with no := s.errs.nextNo, time := serviceNow s, lifeSec := BitVec.ofNat 64 s.reck.lifeSec }
    sendRecord (.event r)
      { s with errs := { s.errs with nextNo := s.errs.nextNo + 1 }, log := logEvent r s.log }

/-- What met an error: a context's step, or none. -/
structure Met where
  ctx     : Byte := 0xFF
  status  : Byte := 0xFF
  step    : W32 := 0xFFFFFFFF
  op      : W32 := 0xFFFFFFFF
  suspect : W32 := 0xFFFFFFFF
  part    : Option PartId := none
  deriving DecidableEq, Repr

/-- The Sextant of a unit's site shows a droop alarm within the last microsecond, or less than 10 ps of slack on a margin monitor (R391). -/
def inDoubt (s : State) (u : UnitRef) : Bool :=
  match unitDie u with
  | some d => (s.die d).droopAt.any (fun t => decide (s.since t ≤ 4000)) || (s.die d).slacks.any (fun x => decide (x < 10))
  | none => false

/-- The die that holds a unit (R399): the one at its site; for the units that name no site the memory die of a channel, a service or flash die, and
the Consort die of a port. -/
def unitHome (u : UnitRef) : Option Nat :=
  match u.unit.toNat with
  | 0x0A => memoryDies[(12 * u.a.toNat + u.b.toNat) / 4]?
  | 0x0D => some (if u.a = 0 then 105 else 116)
  | 0x0E => some (if u.a = 0 then 108 else 120)
  | 0x0F => consortDies[u.a.toNat]?
  | _ => unitDie u

/-- An error is detected: its detection record is made (R400) and its targeted self-test is queued, one test for a unit and a
class (R389, R394). -/
def detect (cls : Byte) (u : UnitRef) (m : Met) (s : State) : State :=
  let no := s.errs.nextNo
  if s.mgmt.active.isNone then s
  else
    let s := recordEvent { no := no, kind := 1, cls := cls, outcome := 0, unit := u, ctx := m.ctx, status := m.status, time := 0, lifeSec := 0, step := m.step, op := m.op, suspectFrom := m.suspect } s
    let s := match unitHome u with
      | some d => updDie d (fun r => { r with detections := r.detections + 1 }) s
      | none => s
    if s.errs.tests.any (fun t => t.unit == u && t.cls == cls) then
      { s with errs := { s.errs with tests := s.errs.tests.map (fun t =>
          if t.unit == u && t.cls == cls then { t with extra := t.extra ++ [no], time := s.now, doubt := t.doubt || inDoubt s u } else t) } }
    else
      { s with errs := { s.errs with tests := s.errs.tests ++ [{ detectNo := no, cls := cls, unit := u, time := s.now, doubt := inDoubt s u, part := m.part, ctx := m.ctx }] } }

/-- The outcome record of a test (R400). -/
def outcomeRecord (t : TestRec) (outcome : Byte) (chartSeq : W32) (s : State) : State :=
  recordEvent { no := 0, kind := 2, cls := t.cls, outcome := outcome, unit := t.unit, ctx := t.ctx, time := 0, lifeSec := 0, chartSeq := chartSeq, detectNo := t.detectNo } s

/-! ### Errors that a step meets (R110, R146, R379 to R381) -/

/-- Status codes of R272. -/
def stDone : Byte := 0x00
def stOpcode : Byte := 0x01
def stFormat : Byte := 0x02
def stSplit : Byte := 0x03
def stShape : Byte := 0x04
def stKernel : Byte := 0x05
def stAddress : Byte := 0x06
def stMark : Byte := 0x07
def stAccess : Byte := 0x08
def stMemory : Byte := 0x09
def stChecksum : Byte := 0x0A
def stAborted : Byte := 0x10
def stDesc : Byte := 0x11
def stConfig : Byte := 0x12
def stAdmit : Byte := 0x13
def stSlot : Byte := 0x14
def stProgram : Byte := 0x15
def stHostRead : Byte := 0x16
def stBusy : Byte := 0x17
def stPermit : Byte := 0x18

def State.stepOf (s : State) (p : Nat) : Option Step := (s.part p).bind (·.step)

/-- A number as a context. -/
def asCtx (c : Nat) : CtxId := if h : c < 64 then ⟨c, h⟩ else 0
def asPart (p : Nat) : PartId := if h : p < 8 then ⟨p, h⟩ else 0
def asRing (n : Nat) : RingId := if h : n < 256 then ⟨n, h⟩ else 0

/-- What an error of a partition's step names. -/
def stepMet (s : State) (p : Nat) (status : Byte) : Met :=
  match s.stepOf p with
  | some t => { ctx := BitVec.ofNat 8 t.ctx.val, status := status, step := t.number, op := BitVec.ofNat 32 t.op, part := some (asPart p) }
  | none => { part := some (asPart p) }

/-- The step fails: the first status that reaches the Navigator stands (R381). -/
def failStep (status : Byte) (p : Nat) : State → State :=
  updStep p (fun t => { t with failed := if t.failed.isSome then t.failed else some (status, BitVec.ofNat 32 t.op) })

/-- Counts of a partition's step changed. -/
def countStep (p : Nat) (f : Counts → Counts) : State → State := updStep p (fun t => { t with counts := f t.counts })

/-- An access of a partition's step to a granule that is not open to its context (R155). -/
def denyStep (p : Nat) (s : State) : State :=
  failStep stAccess p (updStep p (fun t => { t with counts := { t.counts with accessDenied := satAdd t.counts.accessDenied 1 } }) s)

/-- An error of a unit that the step of a partition meets: the step fails and the unit is tested (R380, R389). -/
def stepError (cls : Byte) (u : UnitRef) (p : Nat) (s : State) : State :=
  let status := if cls = 0x05 || cls = 0x07 || cls = 0x09 then stMemory else stChecksum
  let m := stepMet s p status
  let m := match s.stepOf p with
    | some t =>
      if cls = 0x02 then
        { m with suspect := match (s.ctx t.ctx.val).bind (·.lastAudit) with
            | some n => BitVec.ofNat 32 (n + 1)
            | none => 0 }
      else m
    | none => m
  let fails := (s.stepOf p).any (fun t => t.failed.isNone)
  let s := detect cls u m (failStep status p s)
  let s := match s.stepOf p with
    | some t => if cls = 0x01 || cls = 0x02 || cls = 0x03 then updCtx t.ctx.val (fun k => { k with auditNext := true }) s else s
    | none => s
  match unitDie u with
  | some d => updCounters d (fun c => { c with
      hwStepFails := if fails then satAdd c.hwStepFails 1 else c.hwStepFails
      auditMismatch := if cls = 0x02 then satAdd c.auditMismatch 1 else c.auditMismatch
      lockstepDiff := if cls = 0x03 then satAdd c.lockstepDiff 1 else c.lockstepDiff }) s
  | none => s

/-! ### Spare resources -/

/-- Where the State keeps a memory's repair (R150): core stores, accumulator buffers, segments. -/
def storeKey : StoreRef → Nat
  | .core c k => c.val * 7 + k.val
  | .accumulator c m a => 1000 + c.val * 16 + m.val * 4 + a.val
  | .segment n => 3000 + n.val

/-- Spare units of a memory (R150): of a bank, of a buffer, of a segment. -/
def sparesOf : StoreRef → Nat
  | .core _ _ => 32
  | .accumulator _ _ _ => 16
  | .segment _ => 2624

/-- Two rows of a memory draw on the same spares: rows of one bank in a core store, where a row is line × 64 + bank. -/
def sameSpares (m : StoreRef) (r q : Nat) : Bool :=
  match m with
  | .core _ _ => r % 64 == q % 64
  | .accumulator _ _ _ => true
  | .segment _ => true

def State.store (s : State) (m : StoreRef) : StoreRec := s.stores.getD (storeKey m) {}

def updStore (m : StoreRef) (f : StoreRec → StoreRec) (s : State) : State :=
  { s with stores := s.stores.update (storeKey m) {} f }

/-- The spares for a row that are unused and have not failed (R151, R160), lowest first. -/
def sparesLeft (s : State) (m : StoreRef) (row : Nat) : List Nat :=
  let r := s.store m
  let used := ((r.remap ++ r.badSpares ++ r.badFree).filter (fun e => sameSpares m e.1 row)).map (·.2)
  (List.range (sparesOf m)).filter (fun k => !used.contains k)

/-- The next unused spare for a row that has not failed (R151), none when all are used. -/
def nextSpare (s : State) (m : StoreRef) (row : Nat) : Option Nat := (sparesLeft s m row).head?

/-- The chart unit of a memory's row (R25). -/
def rowUnit (s : State) (m : StoreRef) (row : Nat) : UnitRef :=
  match m with
  | .core c k => clusterUnit s 0x04 c.val k.val (row % 64) (row / 64)
  | .accumulator c a b => clusterUnit s 0x05 c.val a.val b.val row
  | .segment n => clusterUnit s 0x03 n.val 0 0 row

/-! ### The chart (R19 to R26) -/

def chartCapacity : Nat := 16384

/-- The next entry sequence number: one above the highest in the chart. After a revision that leaves a lower highest number, numbers that the
removed entries had come again (DESIGN CHOICE: notes/assumptions/58.md). -/
def nextSeqNo (l : List ChartEntry) : W32 := l.foldl (fun m e => if m ≤ e.seqNo then e.seqNo + 1 else m) 1

/-- A repair that has been applied is written to copy 0 and then copy 1, and reported complete (R20); with the region full
it holds for this power cycle only (R23). The answer is the entry's SEQ_NO, 0 for none. -/
def chartWrite (source : Byte) (u : UnitRef) (action cause : Byte) (s : State) : W32 × State :=
  if s.mgmt.active.isNone then (0, s)
  else
    let e : ChartEntry := ⟨nextSeqNo s.build.chart, BitVec.ofNat 64 s.reck.lifeSec, source, u, action, cause, true⟩
    if s.build.chart.length ≥ chartCapacity then
      (0, note .chartFull 0 0 { s with build := { s.build with volatile := s.build.volatile ++ [e], chartFull := true } })
    else
      (e.seqNo, note .chartRepaired e.seqNo.toNat 0 { s with
        flash0 := if s.flash0.works then { s.flash0 with chart := s.flash0.chart ++ [e] } else s.flash0
        flash1 := if s.flash1.works then { s.flash1 with chart := s.flash1.chart ++ [e] } else s.flash1
        build := { s.build with chart := s.build.chart ++ [e] }
        log := { s.log with chartHistory := s.log.chartHistory ++ [e] } })

/-! ### Sites, clusters and their replacement (R33, R34, R358, R519) -/

/-- A cluster whose power is gone: arrays, buffers and core stores hold nothing; the substitutions of R92 are kept, as the
chart gives them. -/
def ClusterRec.cold (r : ClusterRec) : ClusterRec :=
  { cores := r.cores.mapVal (fun _ c => { arrays := c.arrays.mapVal (fun _ a => { spareRow := a.spareRow, spareCol := a.spareCol }) }) }

/-- A compute die loads the images in use, and takes a staged one into its other slot, from logical segment 96 (R497, R503, R505). -/
def loadImages (i : Nat) (s : State) : State :=
  updDie i (fun d => { d with active := s.update.seg96.find 2, other := s.update.seg96Next.find 2, library := s.update.seg96.find 6, model := s.update.seg96.find 7 }) s

/-- The memories of a cluster: its core stores and its accumulator buffers. -/
def clusterStores (n : Nat) : List Nat := (List.range 7).map (n * 7 + ·) ++ (List.range 16).map (1000 + n * 16 + ·)

/-- Queued write-backs of a cluster's memories cancelled, every word of them being written (R143, R157). -/
def dropQueues (n : Nat) (s : State) : State :=
  { s with stores := s.stores.mapVal (fun k r => if (clusterStores n).contains k then { r with queue := [] } else r) }

/-- A region without a powered site: both of its PLLs stop, and no change of it is pending (R338). -/
def pllsStop (g : RegionRec) : RegionRec :=
  { g with want := none, next := none, behind := false, stopped := false, realign := false, halved := false, alarming := [], pllOn := false }

/-! ### The chains of the relay (R500 to R504) -/

/-- The dies of a chain in its order (R500): the powered compute dies, the memory dies, the Consort dies, the host die, the standby. -/
def chainDies (s : State) (c : RelayChain) : List Nat :=
  let up (l : List Nat) : List Nat := l.filter (fun d => !(s.die d).failed)
  match c with
  | .compute => snake.filter (fun i => decide ((s.site i).power = .on))
  | .memory => up memoryDies
  | .consort => up consortDies
  | .host => up [hostDie]
  | .service => match s.mgmt.active with
    | some n => if (sv s (otherDie n).val).works then [serviceDies.getD (otherDie n).val 105] else []
    | none => []

/-- The target that a chain carries. -/
def chainTarget : RelayChain → Byte
  | .compute => 2 | .memory => 3 | .host => 4 | .consort => 5 | .service => 1

def allChains : List RelayChain := [.compute, .memory, .consort, .host, .service]

/-- The digest that a chain's image must show. -/
def chainHash (s : State) (c : RelayChain) : Option (BitVec 384) :=
  s.update.staged.bind (fun m => (m.images.find? (fun e => e.target == chainTarget c)).map (·.hash))

/-- An activation begins: the standby restarts from the staged bank (R504). -/
def beginActivation (s : State) : State := { s with update := { s.update with phase := .standbyRestart, orderWaits := false } }

/-- Every die of every chain has reported the digest of its image: the update is staged, and an order that has waited begins. -/
def relayDone (s : State) : State :=
  let done := allChains.all (fun c => (chainDies s c).all (fun d => match s.update.dies.find d with
    | some r => r.digest == chainHash s c && r.digest.isSome
    | none => false))
  if s.update.relaying && done then
    let s := { s with update := { s.update with relaying := false, relayed := true } }
    if s.update.orderWaits then beginActivation s else s
  else s

/-! ### A site without power -/

/-- A site goes dark (R338, R358): its clock is gated off and its outputs clamped; its arrays, buffers, core stores and drains hold nothing more, nor
does the die's firmware store (R505), and it leaves its chain of the relay (R503). Its router, node and segment stay in service (R13). -/
def siteDark (i : Nat) (s : State) : State :=
  let s := { updDie i (fun d => { d with active := none, other := none, library := none, model := none })
      (updSite i (fun r => { r with power := .dark, requested := false, clockGated := true, clamped := true }) (dropQueues (s.logicalAt i) s)) with
    clusters := s.clusters.modify (s.logicalAt i) ClusterRec.cold }
  let r := siteRegion i
  relayDone (if regionRuns s r then updRegion r (fun g =>
      let l := g.alarming.filter (· ≠ i)
      { g with alarming := l, halved := !l.isEmpty && g.halved }) s
    else updRegion r pllsStop s)

/-- The clusters that may take a retired cluster's place: standby clusters first, then spares, nearest first, ties to the
higher logical number (R33). -/
def replacementFor (s : State) (n : Nat) : Option Nat :=
  let home := dieSite (s.siteOf n)
  let free (m : Nat) : Bool :=
    decide (m ≠ n) && clusterGood s m && !siteDisabled s (s.siteOf m) && !s.build.exchanges.any (fun e => e.m == m)
  let pool := (List.range 100).filter (fun m => decide (placeableLimit s.orderCode ≤ m) && free m)
  let dist (m : Nat) : Nat := hops home (dieSite (s.siteOf m))
  let best (l : List Nat) : Option Nat := l.foldl (fun b m =>
    match b with
    | none => some m
    | some k => if dist m ≤ dist k then some m else some k) none
  match best (pool.filter (fun m => !siteSpare s (s.siteOf m))) with
  | some m => some m
  | none => best (pool.filter (fun m => siteSpare s (s.siteOf m)))

/-- The steps of a partition are held by a unit under test or replacement (R34, R379). -/
def holdPart (p : Nat) (no : Nat) : State → State := updPart p (fun q => { q with held := if q.held.contains no then q.held else q.held ++ [no] })

/-- The number under which an exchange of a logical number holds its partition. -/
def exchangeHold (n : Nat) : Nat := 2 ^ 33 + n

/-- A partition has a cluster that no other replaces: it reads failed, and its contexts halt until they are destroyed (R34, R397,
R423). One that is still being formed stays so. -/
def failPart (p : Nat) (s : State) : State :=
  (s.ctxs.select (fun _ k => k.part.val == p)).keys.foldl (fun s c => haltCtx c s)
    (updPart p (fun q => { q with state := if q.state = .forming then .forming else .failed }) s)

/-- A hold on a partition's steps is released. -/
def releasePart (p no : Nat) : State → State := updPart p (fun q => { q with held := q.held.filter (· ≠ no) })

/-- A logical number that no cluster is left for stays unmapped, and a partition that holds it fails (R34). -/
def leaveUnmapped (n : Nat) (s : State) : State :=
  let s := { s with build := { s.build with unmapped := s.build.unmapped ++ [n] } }
  match partOf s n with
  | some p => failPart p s
  | none => s

/-- A replacement has been retired before its exchange: the number that awaited it takes another, or none is left (R33, R34, R519). -/
def otherReplacement (m : Nat) (s : State) : State :=
  match s.build.exchanges.find? (fun e => e.m == m) with
  | none => s
  | some e =>
    match replacementFor s e.n with
    | some m2 => { s with build := { s.build with exchanges := s.build.exchanges.map (fun x => if x.n = e.n then ⟨e.n, m2⟩ else x) } }
    | none =>
      let s := leaveUnmapped e.n { s with build := { s.build with exchanges := s.build.exchanges.filter (fun x => x.n ≠ e.n) } }
      match partOf s e.n with
      | some p => releasePart p (exchangeHold e.n) s
      | none => s

/-- A cluster is retired in hardware and its entry written (R33, R519): a standby or unmapped spare with ACTION 0x08, one with
no replacement with 0x05, which leaves it unmapped (R34), and otherwise with 0x04, an exchange awaiting its time. The answer
is the entry's SEQ_NO. -/
def retireCluster (source cause : Byte) (n : Nat) (s : State) : W32 × State :=
  let i := s.siteOf n
  if (s.site i).retired then (0, s)
  else
    let u := clusterUnit s 0x08 n 0 0 0
    let s := siteDark i (updSite i (fun r => { r with retired := true }) s)
    if placeableLimit s.orderCode ≤ n then chartWrite source u 0x08 cause (otherReplacement n s)
    else
      match replacementFor s n with
      | none => chartWrite source u 0x05 cause (leaveUnmapped n s)
      | some m =>
        let s := { s with build := { s.build with exchanges := s.build.exchanges ++ [⟨n, m⟩] } }
        let s := match partOf s n with
          | some p => holdPart p (exchangeHold n) s
          | none => s
        chartWrite source u 0x04 cause s

/-- The contexts that own a granule of a segment. -/
def ownersIn (s : State) (n : Nat) : List Nat :=
  s.ctxs.keys.filter (fun c => (List.range 256).any (fun k => s.owner (256 * n + k) == BitVec.ofNat 8 c))

/-- A segment with no spare row left is mapped out whole: its granules become mapped out, its data is gone, and the contexts
that own a granule in it halt (R153, R382). -/
def segmentOut (source cause : Byte) (n : Nat) (s : State) : W32 × State :=
  if s.build.segmentsOut.contains n then (0, s)
  else
    let hit := ownersIn s n
    let s := ssClear { s with build := { s.build with segmentsOut := s.build.segmentsOut ++ [n] } } (n * segmentBytes) segmentBytes
    let s := { s with owners := s.owners.filter (fun e => e.1 / 256 ≠ n) }
    chartWrite source (clusterUnit s 0x0C n 0 0 0) 0x02 cause (hit.foldl (fun s c => haltCtx c s) s)

/-- A failing row takes the next spare; where none is left, a core store or accumulator buffer retires its cluster and a segment is mapped out
(R151, R153). A row that is mapped already has a failing spare, which is itself replaced. The answer says whether a spare was taken. -/
def takeSpare (source cause : Byte) (m : StoreRef) (row : Nat) (s : State) : Bool × State :=
  let s := updStore m (fun r => { r with
    badSpares := r.badSpares ++ r.remap.filter (fun e => e.1 == row), remap := r.remap.filter (fun e => e.1 != row) }) s
  match nextSpare s m row with
  | some k => (true, updStore m (fun r => { r with remap := r.remap ++ [(row, k)] }) s)
  | none =>
    match m with
    | .core c _ => (false, (retireCluster source cause c.val s).2)
    | .accumulator c _ _ => (false, (retireCluster source cause c.val s).2)
    | .segment n => (false, (segmentOut source cause n.val s).2)

/-- A failing row mapped, without a chart entry; ROWS_MAPPED counts it (R160). -/
def mapRow (source cause : Byte) (m : StoreRef) (row : Nat) (s : State) : Bool × State :=
  let r := takeSpare source cause m row s
  (r.1, if r.1 then updStore m (fun r => { r with counters := { r.counters with mapped := satAdd r.counters.mapped 1 } }) r.2 else r.2)

/-- A row mapped where it is not mapped yet: a poisoned word that is read again lies poisoned in its spare, and is no new failure. -/
def mapOnce (source cause : Byte) (m : StoreRef) (row : Nat) (s : State) : State :=
  if (s.store m).remap.any (fun e => e.1 == row) then s else (mapRow source cause m row s).2

/-- A channel has been taken out of service: the repairs that waited for it are written and reported (R20). -/
def repairsDone (ch : Nat) (s : State) : State :=
  (s.errs.due.filter (fun d => d.chan == ch)).foldl (fun s d =>
    let (no, s) := chartWrite d.source (bareUnit 0x0A (ch / 12) (ch % 12)) 0x02 0x0A s
    match d.test with
    | some (t, code) => outcomeRecord t code no s
    | none => s) { s with errs := { s.errs with due := s.errs.due.filter (fun d => d.chan != ch) } }

/-! ### Leaving the pair (R448, R454) -/

/-- TYPE of a frame (R432). -/
def FrameOut.type : FrameOut → Nat
  | .identity _ => 0x01 | .ack _ _ _ => 0x02 | .heartbeat _ _ _ _ _ => 0x03 | .departing _ _ => 0x04 | .timeReq _ => 0x05
  | .timeResp _ _ _ => 0x06 | .setup _ => 0x07 | .desc _ _ _ _ _ => 0x08 | .stepStart _ _ _ => 0x09 | .digest _ => 0x0A
  | .clusterDigest _ _ _ _ => 0x0B
  | .mirrorData _ _ => 0x0C | .mirrorEnd _ _ _ => 0x0D | .mirrorAck _ _ => 0x0E | .snapshot _ _ => 0x0F | .copyReq _ _ _ _ => 0x10
  | .copyData _ _ => 0x11 | .probe _ => 0x00 | .probeAnswer _ => 0x00

/-- CONTEXT of a frame (R431). -/
def FrameOut.context : FrameOut → Nat
  | .stepStart c _ _ => c.toNat | .digest d => d.ctx.toNat | .mirrorData c _ => c.toNat | .mirrorEnd c _ _ => c.toNat
  | .mirrorAck c _ => c.toNat | .snapshot c _ => c.toNat | .copyReq c _ _ _ => c.toNat | .copyData c _ => c.toNat
  | .identity _ => 0xFF | .ack _ _ _ => 0xFF | .heartbeat _ _ _ _ _ => 0xFF | .departing _ _ => 0xFF | .timeReq _ => 0xFF
  | .timeResp _ _ _ => 0xFF | .setup _ => 0xFF | .desc c _ _ _ _ => c.toNat | .clusterDigest c _ _ _ => c.toNat | .probe _ => 0xFF | .probeAnswer _ => 0xFF

/-- A frame sent on a port: it takes the port's next LINK_SEQ and, where it is no link frame, its stream's next STREAM_SEQ, and is
kept until it is acknowledged (R430, R431). -/
def sendOn (p : Nat) (f : FrameOut) (s : State) : State :=
  let r := s.port p
  let key := f.type * 256 + f.context
  let n : W32 := if f.type ≤ 4 then 0 else s.pair.streamOut.getD key 0
  { s with pair := { s.pair with
      ports := s.pair.ports.put p { r with sendSeq := r.sendSeq + 1, replay := r.replay ++ [(r.sendSeq, f)] }
      streamOut := if f.type ≤ 4 then s.pair.streamOut else s.pair.streamOut.put key (n + 1)
      sent := s.pair.sent ++ [⟨p, r.sendSeq, n, f, s.pair.epoch, s.now⟩] } }

/-- Ports that are trained. -/
def portsTrained (s : State) : List Nat := (List.range 4).filter (fun p => decide ((s.port p).lanes > 0))

/-- The Reckoner at the Consort die of the lowest-numbered trained port (R339, R342). -/
def portNow (s : State) : W64 :=
  match (portsTrained s).head? with
  | some p => dieNow s (consortDies.getD p 102)
  | none => s.now

/-- A stream's frame sent on the lowest-numbered trained port; with none trained there is no one to send to. -/
def sendFrame (f : FrameOut) (s : State) : State :=
  match (portsTrained s).head? with
  | some p => sendOn p f s
  | none => s

/-- A number as a port. -/
def asPort (p : Nat) : Port := if h : p < 4 then ⟨p, h⟩ else 0

/-- A DEPARTING frame on every trained port: 1 module reset, 2 power-cycle request, 3 input fault, 4 entry to OFF, 5 planned
takeover (R432, R454). -/
def depart (reason : Byte) (s : State) : State := (portsTrained s).foldl (fun s p => sendOn p (.departing (asPort p) reason) s) s

/-- The primary of a mirrored or locked pair. -/
def isPrimary (s : State) : Bool := s.pair.formed && decide (s.pair.role = .primary) && decide (2 ≤ s.pair.mode)

/-- The module is the secondary of a mirrored or locked pair (R437). -/
def isSecondary (s : State) : Bool := s.pair.formed && decide (s.pair.role = .secondary) && decide (2 ≤ s.pair.mode)

/-- Whether a change of the hardware makes the pair hand over (R448, R453): a segment was mapped out that held granules of a SECURED
context, the grade was lost and a partition can no longer be formed, or a cluster whose digests differed has been retired. -/
def mustHandOver (before s : State) : Bool :=
  let lost := s.build.segmentsOut.filter (fun n => !before.build.segmentsOut.contains n)
  isPrimary s &&
    (lost.any (fun n => (ownersIn before n).any (fun c => match before.ctx c with
        | some k => decide (k.securing = .secured)
        | none => false))
      || s.pair.differ.any (fun n => (s.build.unmapped.contains n || s.build.exchanges.any (fun e => e.n == n))
          && !(before.build.unmapped.contains n || before.build.exchanges.any (fun e => e.n == n)))
      || (decide (gradeOf before < 2) && decide (gradeOf s = 2) && s.parts.any (fun e => !e.2.groups.all (groupPlaceable s))))

/-- Every port goes down, to train again. -/
def dropPorts (s : State) : State :=
  { s with pair := { s.pair with ports := s.pair.ports.mapVal (fun _ p =>
      { p with lanes := 0, down := true, training := p.training || decide (p.lanes > 0), replay := [] }) } }

/-- Contexts whose copy on the secondary of a mirrored or locked pair a change of the hardware has destroyed in part: it asks the primary for their
state, which makes them SYNCING there (R441, R461). -/
def copiesLost (before s : State) : State :=
  let lost := s.build.segmentsOut.filter (fun n => !before.build.segmentsOut.contains n)
  let hit := lost.flatMap (ownersIn before)
    ++ (before.ctxs.select (fun _ k => match before.parts.find k.part.val with
        | some q => q.groups.all (groupPlaceable before) && !q.groups.all (groupPlaceable s)
        | none => false)).keys
  if isSecondary s then hit.eraseDups.foldl (fun s c => sendFrame (.copyReq (BitVec.ofNat 8 c) 0x08 0 44) s) s else s

/-- The planned takeover of R448: DEPARTING is sent, the primary runs its contexts no more, and rejoins as secondary. -/
def plannedTakeover (before s : State) : State :=
  if mustHandOver before s then
    let s := s.ctxs.keys.foldl (fun s c => haltCtx c s) (depart 5 s)
    note .takeover 5 0 (dropPorts { s with pair := { s.pair with role := .secondary, formed := false } })
  else copiesLost before s

/-! ### The reference (R328, R342, R343) -/

/-- This module leads the pair's time: it is the primary, or in independent mode has the lower serial number. -/
def timeLeader (s : State) : Bool :=
  if 2 ≤ s.pair.mode then decide (s.pair.role = .primary)
  else match s.pair.partner with
    | some b => decide (s.serial.toNat < b.serial.toNat)
    | none => true

/-- The first source that is present and good: a follower of a formed pair takes the leader's reference, any other module its own. -/
def chooseRef (s : State) : RefSource :=
  let partner := s.pair.formed && !s.power.partnerBad
  if partner && !timeLeader s then .partner
  else if !s.power.ownBad then .own
  else if partner then .partner
  else .holdover

def RefSource.code : RefSource → Nat
  | .own => 0 | .partner => 1 | .holdover => 2

/-- The anchor moves to another source without a clock stop, and the change is reported. -/
def settleRef (s : State) : State :=
  let r := chooseRef s
  if r = s.power.source then s else note .referenceState r.code 0 { s with power := { s.power with source := r } }

/-! ### Ports and silence (R428, R430, R455, R457) -/

/-- The contexts that a pair secures, held while the partner is silent. -/
def holdSecured (s : State) : State :=
  { s with pair := { s.pair with held := true, heldAt := s.now }, ctxs := s.ctxs.mapVal (fun _ k => if k.securing = .secured then { k with pairHold := true } else k) }

/-- Every port is down: the partner is silent; a primary holds its secured contexts, and a follower returns to its own reference. -/
def partnerSilent (s : State) : State :=
  if !s.pair.formed || s.pair.silent || !(portsTrained s).isEmpty then s
  else
    let s := note .partnerSilent 0 0 { s with
      pair := { s.pair with silent := true, silentAt := s.now, answered := false, probing := false, probedAt := none }, power := { s.power with partnerBad := true } }
    let s := settleRef s
    if isPrimary s then holdSecured s else s

/-- Frames of a port that are not acknowledged, sent again on the ports that remain, under the numbers of their streams (R428). -/
def replayOn (p : Nat) (l : List (W32 × FrameOut)) (s : State) : State :=
  (l.filter (fun e => 4 < e.2.type)).foldl (fun s e =>
    match (portsTrained s).head? with
    | none => s
    | some q =>
      let x := s.port q
      { s with pair := { s.pair with
          ports := s.pair.ports.put q { x with sendSeq := x.sendSeq + 1, replay := x.replay ++ [(x.sendSeq, e.2)] }
          sent := s.pair.sent ++ [⟨q, x.sendSeq, ((s.pair.sent.find? (fun y => y.port == p && y.link == e.1 && y.frame == e.2)).elim 0 (·.stream)), e.2, s.pair.epoch, s.now⟩] } }) s

/-- A port is untrained, to be trained again or not: what it had not had acknowledged goes on the ports that remain, and with the last port the partner
falls silent. -/
def portLost (p : Nat) (again : Bool) (s : State) : State :=
  let r := s.port p
  let s := updPort p (fun r => { r with lanes := 0, down := true, training := again, replay := [] }) s
  if r.lanes = 0 && r.down then s
  else partnerSilent (replayOn p r.replay (note .portState p 0 s))

/-- A port drops out, and retrains in the background. -/
def portFalls (p : Nat) (s : State) : State :=
  let r := s.port p
  if r.lanes = 0 && r.down then s else portLost p true s

/-! ### Wire groups and ring dies (R16) -/

/-- The width at which a port trains over the lanes that work: all eight, one half, or none (R427). -/
def trainWidth (ok : Nat → Bool) : Nat :=
  if (List.range 8).all ok then 8
  else if (List.range 4).all ok || (List.range 4).all (fun n => ok (n + 4)) then 4
  else 0

/-- A port or a lane of it mapped out: a port left with too few lanes is lost. -/
def portMappedOut (u : UnitRef) (s : State) : State :=
  let p := u.a.toNat
  if u.b = 0xFF then portLost p false (updPort p (fun r => { r with mapped := true }) s)
  else
    let l := if (s.port p).lanesOut.contains u.b.toNat then (s.port p).lanesOut else (s.port p).lanesOut ++ [u.b.toNat]
    let w := min (s.port p).lanes (trainWidth (fun n => !l.contains n))
    if w = 0 then portLost p true (updPort p (fun r => { r with lanesOut := l }) s)
    else updPort p (fun r => { r with lanesOut := l, lanes := w }) s

def updCluster (n : Nat) (f : ClusterRec → ClusterRec) (s : State) : State := { s with clusters := s.clusters.update n {} f }
def updCore (n m : Nat) (f : MCore → MCore) : State → State :=
  updCluster n (fun r => { r with cores := r.cores.update m {} f })
def updArray (n m a : Nat) (f : ArrayRec → ArrayRec) : State → State :=
  updCore n m (fun r => { r with arrays := r.arrays.update a {} f })
def State.cluster (s : State) (n : Nat) : ClusterRec := s.clusters.getD n {}
def State.core (s : State) (n m : Nat) : MCore := (s.cluster n).cores.getD m {}
def State.array (s : State) (n m a : Nat) : ArrayRec := (s.core n m).arrays.getD a {}

/-- A fabric link at a position out of service: messages whose route uses it wait (R285). -/
def linkOut (pos : Nat) (south : Bool) (s : State) : State :=
  if s.wafer.linksOut.contains (pos, south) then s
  else strand pos south { s with wafer := { s.wafer with linksOut := s.wafer.linksOut ++ [(pos, south)] } }

/-- The fabric position of a unit's site: 12 (y + 1) + (x + 1). -/
def unitPos (u : UnitRef) : Nat := ((u.y.toInt + 1) * 12 + (u.x.toInt + 1)).toNat

/-- A fabric link whose wires are lost: routers accept nothing from their local ports until new tables are installed (R16, R285). -/
def linkWiresLost (pos : Nat) (south : Bool) (s : State) : State :=
  linkOut pos south { s with wafer := { s.wafer with stopped := true } }

/-- A bay whose channel has gone out of service by itself: its DIMM is mapped out; where its removal had been accepted it is powered down, which
ends the removal (R47, R49; DESIGN CHOICE: notes/assumptions/58.md). -/
def bayOut (b : BayRec) : BayRec :=
  { b with state :=
      if b.state = .queued || b.state = .migrating then .faulted else if b.state.powered then .mappedOut else b.state }

/-- A channel out of service is in the queue of removals and in the procedure of R323 no more. -/
def forgetChannel (c : Nat) (s : State) : State :=
  { s with
    bin := { s.bin with removals := s.bin.removals.filter (· ≠ c) }
    dimmWork := { s.dimmWork with
      requests := s.dimmWork.requests.filter (· ≠ c), forced := s.dimmWork.forced.filter (· ≠ c)
      active := if s.dimmWork.active = some c then none else s.dimmWork.active } }

/-- A channel whose memory die or bond group is lost, or that is out for this power cycle: it is mapped out, with the DIMM of its powered bay. -/
def channelOut (c : Nat) (s : State) : State := forgetChannel c (updBay c bayOut (updChan c (fun r => { r with state := .fault }) s))

/-- The width at which the link trains over the host die's lanes that remain: the widest of R251 that begins at lane 0 or, reversed,
at lane 15; 0 with neither end left (DESIGN CHOICE: notes/assumptions/57.md). -/
def hostWidth (out : BitVec 16) : Nat :=
  (([16, 8, 4, 2, 1] : List Nat).find? (fun w =>
    (List.range w).all (fun n => !bit out n) || (List.range w).all (fun n => !bit out (15 - n)))).getD 0

/-- Lanes of the host die are lost: a link that is up goes on at the width that remains; with none left it goes down by
SURPRISE_LINK_DOWN. -/
def lanesLost (m : BitVec 16) (s : State) : State :=
  let out := s.link.lanesOut ||| m
  let s := { s with link := { s.link with lanesOut := out } }
  let w := hostWidth out
  if s.link.up && decide (0 < w) && decide (w < s.link.width) then
    note .linkState w s.link.speed (raise 0 evLink { s with link := { s.link with width := w } })
  else s

/-- A service die works no more: it is active no more, and with none left the grace time of R465 begins. -/
def serviceDieGone (d : Nat) (s : State) : State :=
  let m := s.mgmt
  let m := if d = 105 then { m with sv0 := { m.sv0 with works := false } } else { m with sv1 := { m.sv1 with works := false } }
  let m := if m.active = some (if d = 105 then 0 else 1) then { m with active := none } else m
  { s with mgmt := if !m.sv0.works && !m.sv1.works then { m with graceNo := some (m.graceNo.getD s.now) } else m }

/-- A ring die has failed or its bond group is lost: the duplicate carries on, or what the die serves goes out of service
(R16, R17). A failed active service die leaves its place to the standby by STANDBY_TAKEOVER. -/
def ringDieLost (d : Nat) (s : State) : State :=
  let s := updDie d (fun r => { r with failed := true }) s
  relayDone (match dieKind d with
  | 1 =>
    let k := (memoryDies.findIdx? (· == d)).getD 0
    [4 * k, 4 * k + 1, 4 * k + 2, 4 * k + 3].foldl (fun s c => channelOut c s) s
  | 3 =>
    let p := (consortDies.findIdx? (· == d)).getD 0
    updPort p (fun r => { r with training := false, mapped := true }) (portFalls p s)
  | 4 => serviceDieGone d s
  | 5 => if d = 108 then { s with flash0 := { s.flash0 with works := false } } else { s with flash1 := { s.flash1 with works := false } }
  | 6 => settleRef { s with power := { s.power with ownBad := true } }
  | _ => s)

/-- A bond group of a ring die is lost: of a memory die the channels that use it, of the host die its lanes, of another the die or its
port (R16). -/
def bondLost (d g : Nat) (s : State) : State :=
  match dieKind d with
  | 1 =>
    let k := (memoryDies.findIdx? (· == d)).getD 0
    (List.range 4).foldl (fun s n => if bit (Config.bondChannels d g) n then channelOut (4 * k + n) s else s) s
  | 2 => lanesLost (Config.bondLanes g) s
  | _ => ringDieLost d s

/-- What a lost group takes out of the hardware, by what it carries (R16). A compute die's group, and the second of a site's sense pairs,
take the cluster as well. -/
def groupOut (u : UnitRef) (s : State) : State :=
  if u.unit = 0x01 then
    match Config.seamCarries u.a.toNat u.b.toNat with
    | .link pos south => linkWiresLost pos south s
    | .path i j => { s with wafer := { s.wafer with pathsOut := s.wafer.pathsOut.filter (· ≠ (i, j)) ++ [(i, j)] } }
    | .coupling pos south => { s with wafer := { s.wafer with couplingsOut := s.wafer.couplingsOut.filter (· ≠ (pos, south)) ++ [(pos, south)] } }
    | .sense i dup => updSite i (fun r => if dup then { r with duplicateOpen := true } else { r with primaryOpen := true }) s
  else
    match unitDie u with
    | some d => if d < 100 then s else bondLost d u.a.toNat s
    | none => s

/-- A wire joins the failed ones of its group. -/
def wireOut (u : UnitRef) (s : State) : State :=
  { s with wafer := { s.wafer with wires := s.wafer.wires.update (groupKey u) [] (fun l => if l.contains (groupWire u) then l else l ++ [groupWire u]) } }

/-- Failed wires of a unit's group. -/
def wiresOut (s : State) (u : UnitRef) : Nat := (s.wafer.wires.getD (groupKey u) []).length

/-- A wire of a group fails, its group with it where it is the second: the answer says whether the group has been lost by it. -/
def wireFails (u : UnitRef) (s : State) : Bool × State :=
  let t := wireOut u s
  if wiresOut s u < 2 && decide (2 ≤ wiresOut t u) then (true, groupOut u t) else (false, t)

/-! ### Applying an entry (R21, R26, R30) -/

/-- The effect of a chart entry on the hardware at a start (R21, R30). The retirement of clusters is applied to the map
afterwards, in order of entry. -/
def applyEntry (e : ChartEntry) (s : State) : State :=
  let u := e.unit
  let i := (unitDie u).getD 0
  let n := s.logicalAt i
  match u.unit.toNat with
  | 0x01 => (wireFails u s).2
  | 0x02 => (wireFails u s).2
  | 0x03 => if h : n < 100 then (takeSpare e.source e.cause (.segment ⟨n, h⟩) u.c.toNat s).2 else s
  | 0x04 => if h : n < 100 ∧ u.a.toNat < 7 then (takeSpare e.source e.cause (.core ⟨n, h.1⟩ ⟨u.a.toNat, h.2⟩) (64 * u.c.toNat + u.b.toNat) s).2 else s
  | 0x05 =>
    if h : n < 100 ∧ u.a.toNat < 4 ∧ u.b.toNat < 4 then
      (takeSpare e.source e.cause (.accumulator ⟨n, h.1⟩ ⟨u.a.toNat, h.2.1⟩ ⟨u.b.toNat, h.2.2⟩) u.c.toNat s).2 else s
  | 0x06 => if e.action = 0x01 then updArray n u.a.toNat u.b.toNat (fun r => { r with spareRow := some u.c.toNat }) s else s
  | 0x07 => if e.action = 0x01 then updArray n u.a.toNat u.b.toNat (fun r => { r with spareCol := some u.c.toNat }) s else s
  | 0x08 => updSite i (fun r => { r with retired := true, power := .dark }) s
  | 0x09 => updSite i (fun r => { r with phasesOff := if r.phasesOff.contains u.a.toNat then r.phasesOff else r.phasesOff ++ [u.a.toNat] }) s
  | 0x0A => channelOut (12 * u.a.toNat + u.b.toNat) s
  | 0x0B => linkOut (unitPos u) (u.a = 1) s
  | 0x0C => { s with build := { s.build with segmentsOut := if s.build.segmentsOut.contains n then s.build.segmentsOut else s.build.segmentsOut ++ [n] } }
  | 0x0D => ringDieLost (if u.a = 0 then 105 else 116) s
  | 0x0E => ringDieLost (if u.a = 0 then 108 else 120) s
  | 0x0F => portMappedOut u s
  | _ => s

end Sys2Proof.Machine
end

