-- ==== Sys2Proof/Machine/Stores.lean ====
section
/-! DEFINITION. Core stores as memory: placement, reads and writes, the errors that a read finds, the range scoreboard and the engine
instructions that it orders (R118 to R146, R160).
Rests on the log entries (notes/assumptions/<n>.md) 3 (DESIGN CHOICE), 14 (DESIGN CHOICE), 58 (DESIGN CHOICE), 60 (DEDUCED). -/
namespace Sys2Proof.Machine

/-! ### Placement (R121 to R125) -/

/-- Lines of a core store: 12 MiB of an M-core, 6 MiB of a V-core, 4 MiB of the S-core (R121). -/
def coreLines (k : Nat) : Nat := if k < 4 then 3072 else if k < 6 then 1536 else 1024

/-- Where byte x of stored row r of a tile with the given granule columns lies, from its base line (R123). -/
def tileByte (base columns r x : Nat) : Nat :=
  let c := x / 64
  (base + r / 64 * columns + c) * 4096 + (r + c) % 64 * 64 + x % 64

/-- Where byte x of a linear region lies (R124). -/
def linearByte (base x : Nat) : Nat :=
  (base + x / 4096) * 4096 + ((x / 64) % 64 + x / 4096) % 64 * 64 + x % 64

/-- The word that the i-th granule moved goes to: row by row of a tile of some granule columns, or, with none, of a linear region. -/
def granuleWord (base columns i : Nat) : Nat :=
  (if columns = 0 then linearByte base (64 * i) else tileByte base columns (i / columns) (64 * (i % columns))) / 64

def CoreStore.byte (t : CoreStore) (a : Nat) : Byte := Memory.read t.cells a

/-- The bytes of a word. -/
def CoreStore.word (t : CoreStore) (w : Nat) : List Byte := (List.range 64).map (fun i => t.byte (64 * w + i))

/-- A reader of stored row r of a tile. -/
def rowReader (t : CoreStore) (base columns r : Nat) : Reader := fun x n =>
  (List.range n).map (fun i => t.byte (tileByte base columns r (x + i)))

/-- A reader of a linear region. -/
def linearReader (t : CoreStore) (base : Nat) : Reader := fun x n =>
  (List.range n).map (fun i => t.byte (linearByte base (x + i)))

/-- The words that n bytes from byte x of a linear region touch. -/
def linearWords (base x n : Nat) : List Nat :=
  if n = 0 then [] else (List.range ((x + n + 63) / 64 - x / 64)).map (fun g => linearByte base (64 * (x / 64 + g)) / 64)

/-- The words that n bytes from byte x of a stored row touch. -/
def rowWords (base columns r x n : Nat) : List Nat :=
  if n = 0 then [] else (List.range ((x + n + 63) / 64 - x / 64)).map (fun g => tileByte base columns r (64 * (x / 64 + g)) / 64)

/-- The poisoned ones of some words. -/
def CoreStore.bad (t : CoreStore) (ws : List Nat) : List Nat := ws.filter (fun w => t.poison.contains w)

def State.coreStore (s : State) (n k : Nat) : CoreStore := (s.cluster n).stores.getD k {}
def updCoreStore (n k : Nat) (f : CoreStore → CoreStore) : State → State :=
  updCluster n (fun r => { r with stores := r.stores.update k {} f })

/-- A core of a cluster as a memory. -/
def coreRef (n k : Nat) : Option StoreRef := if h : n < 100 ∧ k < 7 then some (.core ⟨n, h.1⟩ ⟨k, h.2⟩) else none

/-- Queued write-backs of some words of a core store cancelled by a write to them (R143). -/
def cancelCore (n k : Nat) (ws : List Nat) (s : State) : State :=
  match coreRef n k with
  | some m => updStore m (fun r => { r with queue := r.queue.filter (fun w => !ws.contains w) }) s
  | none => s

/-- Bytes written to a core store at their places, within its lines (R121). A word written whole is poisoned no more (R145), and a queued
write-back of a word written is cancelled (R143). -/
def coreWrite (n k : Nat) (cells : List (Nat × Byte)) (s : State) : State :=
  let ok := cells.filter (fun c => decide (c.1 / 4096 < coreLines k))
  let ws := (ok.map (fun c => c.1 / 64)).eraseDups
  let whole := ws.filter (fun w => decide (count ok (fun c => c.1 / 64 == w) = 64))
  cancelCore n k ws (updCoreStore n k (fun t => { t with
    cells := ok.foldl (fun m c => Memory.write m c.1 c.2) t.cells
    poison := t.poison.filter (fun w => !whole.contains w) }) s)

/-- A word of a core store written as poison (R145). -/
def corePoison (n k w : Nat) (s : State) : State :=
  if w / 64 < coreLines k then
    cancelCore n k [w] (updCoreStore n k (fun t => { t with
      cells := Memory.clear t.cells (64 * w) 64, poison := if t.poison.contains w then t.poison else w :: t.poison }) s)
  else s

/-- A linear region written from byte x. -/
def writeLinear (n k base x : Nat) (bs : List Byte) : State → State :=
  coreWrite n k (bs.zipIdx.map (fun (b, i) => (linearByte base (x + i), b)))

/-- A stored row of a tile written from byte x (R122, R123). -/
def writeRow (n k base columns r x : Nat) (bs : List Byte) : State → State :=
  coreWrite n k (bs.zipIdx.map (fun (b, i) => (tileByte base columns r (x + i), b)))

/-! ### Errors that a read finds (R120, R140 to R147) -/

/-- Queue entries for write-back (R142); an accumulator buffer's 16 are the model's (DESIGN CHOICE: notes/assumptions/58.md). -/
def queueSize : StoreRef → Nat
  | .core _ _ => 16
  | .accumulator _ _ _ => 16
  | .segment _ => 256

/-- Whether the memory is a segment: classes 0x06 and 0x07, else 0x04 and 0x05 (R378). -/
def isSegment : StoreRef → Bool
  | .segment _ => true
  | .core _ _ => false
  | .accumulator _ _ _ => false

def clsRepeat (m : StoreRef) : Byte := if isSegment m then 0x06 else 0x04
def clsUncorrectable (m : StoreRef) : Byte := if isSegment m then 0x07 else 0x05

/-- The row unit that holds a word (R150): the word itself in a core store, the 4 KiB row in a segment. -/
def rowOfWord (m : StoreRef) (w : Nat) : Nat :=
  match m with
  | .core _ _ => w
  | .accumulator _ _ _ => w / 64
  | .segment _ => w / 64

/-- A word with n corrected codewords (R142, R143, R160): they are counted, and the word is queued for write-back once, dropped where the queue is
full. A word that shows an error again after its write-back is reported for its test (R144). -/
def correctable (m : StoreRef) (w n : Nat) (met : Met) (s : State) : State :=
  let r := s.store m
  let s := updStore m (fun r =>
    let k := { r.counters with ce := satAdd r.counters.ce n }
    if r.queue.contains w then { r with counters := k }
    else if r.queue.length ≥ queueSize m then { r with counters := { k with dropped := satAdd k.dropped 1 } }
    else { r with queue := r.queue ++ [w], counters := k }) s
  if r.written.contains w then
    updStore m (fun r => { r with written := r.written.filter (· ≠ w) }) (detect (clsRepeat m) (rowUnit s m (rowOfWord m w)) met s)
  else s

/-- A word marked poisoned in its memory (R145, R147). -/
def poisonWord (m : StoreRef) (w : Nat) (s : State) : State :=
  match m with
  | .core c k => corePoison c.val k.val w s
  | .accumulator c a b => updArray c.val a.val b.val (fun r => { r with acc := r.acc.update (w / 64) {} (fun k => { k with poison := true }) }) s
  | .segment n => ssPoison s (n.val * 2 ^ 23 + w)

/-- A word with u uncorrectable codewords and c corrected ones (R145 to R147, R160): they are counted, and the word is left poisoned. -/
def uncorrectable (m : StoreRef) (w c u : Nat) (s : State) : State :=
  poisonWord m w (updStore m (fun r => { r with counters := { r.counters with ce := satAdd r.counters.ce c, ue := satAdd r.counters.ue u } }) s)

/-- The spare that a row index beyond a memory's rows names: spares are numbered on from the last row (DEDUCED: notes/assumptions/60.md). -/
def spareNamed (m : StoreRef) (row : Nat) : Option Nat :=
  let (n, rows) := match m with
    | .core _ k => (row / 64, coreLines k.val)
    | .accumulator _ _ _ => (row, 2048)
    | .segment _ => (row, 131072)
  if rows ≤ n then some (n - rows) else none

/-- The codewords of a word that the ECC stage corrects, and those that it finds uncorrectable, of its eight: one flipped bit in a codeword is
corrected, two are detected (R140), and more are taken as detected too (DESIGN CHOICE: notes/assumptions/58.md). -/
def wordErrors (flips : WordFlips) : Nat × Nat :=
  let l := flips.take 8
  (count l (· == 1), count l (fun n => decide (2 ≤ n)))

/-- What the ECC stage finds in a word. -/
def wordFinds (flips : WordFlips) : Option EccKind :=
  if 0 < (wordErrors flips).2 then some .uncorrectable else if 0 < (wordErrors flips).1 then some .correctable else none

/-- A word read. -/
def readError (m : StoreRef) (w : Nat) (flips : WordFlips) (met : Met) (s : State) : State :=
  match wordFinds flips with
  | none => s
  | some .correctable => correctable m w (wordErrors flips).1 met s
  | some .uncorrectable => uncorrectable m w (wordErrors flips).1 (wordErrors flips).2 s

/-- The rows of the words that a reading has found uncorrectable, each once. -/
def badRows (m : StoreRef) (l : List (Nat × WordFlips)) : List Nat :=
  ((l.filter (fun x => wordFinds x.2 == some .uncorrectable)).map (fun x => rowOfWord m x.1)).eraseDups

/-- Words of a memory read by an engine, the host or a scrub: every row with an uncorrectable one is mapped, once (R142 to R147). -/
def readWordsOf (m : StoreRef) (l : List (Nat × WordFlips)) (met : Met) (s : State) : State :=
  (badRows m l).foldl (fun s row => (mapRow 0x03 (clsUncorrectable m) m row s).2) (l.foldl (fun s (w, e) => readError m w e met s) s)

/-- Errors that reads of the shared store find, by address / 64 (R141). -/
def segmentErrors (l : List (Nat × WordFlips)) (met : Met) (s : State) : State :=
  ((l.map (fun x => x.1 / 2 ^ 23)).eraseDups).foldl (fun s n =>
    if h : n < 100 then readWordsOf (.segment ⟨n, h⟩) ((l.filter (fun x => x.1 / 2 ^ 23 == n)).map (fun x => (x.1 % 2 ^ 23, x.2))) met s else s) s

/-- Poisoned words delivered to an engine counted (R160). -/
def countPoison (m : StoreRef) (n : Nat) : State → State :=
  updStore m (fun r => { r with counters := { r.counters with poison := satAdd r.counters.poison n } })

/-- The S-core of a cluster issues nothing more of the operation (R110). -/
def stopCluster (n : Nat) : State → State := updCluster n (fun c => { c with stopped := true })

/-- The S-core stops, and the cluster's core stores freeze (R110). -/
def freezeCluster (n : Nat) : State → State := updCluster n (fun c => { c with
  stopped := true
  stores := (List.range 7).foldl (fun t k => t.update k {} (fun x => { x with frozen := true })) c.stores })

/-- A cluster zeroed between contexts (R157): what it holds is lost but for the substitutions of R92 and a fault capture entry, which R159 treats
apart. -/
def ClusterRec.zeroed (r : ClusterRec) : ClusterRec :=
  { r.cold with
    cores := r.cores.mapVal (fun _ c => { arrays := c.arrays.mapVal (fun _ a => { spareRow := a.spareRow, spareCol := a.spareCol }), capture := c.capture })
    subs := r.subs }

/-- The cluster's core stores and operand buffers zeroed (R157). -/
def zeroCluster (n : Nat) (s : State) : State := dropQueues n { s with clusters := s.clusters.modify n ClusterRec.zeroed }

/-- A new step's clusters issue again, their core stores unfrozen. -/
def thawCluster (n : Nat) (s : State) : State :=
  { s with clusters := s.clusters.modify n (fun r => { r with stopped := false, stores := r.stores.mapVal (fun _ c => { c with frozen := false }) }) }

/-- Fault capture entries of a cluster zeroed (R159). -/
def dropCaptures (n : Nat) (gone : Capture → Bool) : State → State :=
  updCluster n (fun r => { r with cores := r.cores.mapVal (fun _ c => { c with capture := c.capture.filter (fun e => !gone e) }) })

/-- The entry of an M-core after a failing row: the first is captured, and a later one while it is held is counted where it is of the same step
(R111). -/
def Capture.onto (e : Capture) (old : Option Capture) : Capture :=
  match old with
  | some k =>
    if k.readBy then e
    else if k.step = e.step && k.ctx = e.ctx && !k.orphan then { k with mismatches := k.mismatches + e.mismatches } else k
  | none => e

def captureRow (n m : Nat) (e : Capture) : State → State := updCore n m (fun c => { c with capture := some (e.onto c.capture) })

/-- The rows of some words mapped, each once. -/
def mapRowsOf (m : StoreRef) (ws : List Nat) (s : State) : State :=
  ((ws.map (rowOfWord m)).eraseDups).foldl (fun s row => mapOnce 0x03 (clsUncorrectable m) m row s) s

/-- Poisoned words of its core store that an engine of a cluster received, or with none a parity error of its operand buffers (R120, R146): the
operation ends as after a mismatch (R110), with no capture and with MEMORY_UNCORRECTABLE, and the rows of the words are mapped. Every word is
reported (R381). -/
def enginePoison (n k : Nat) (ws : List Nat) (s : State) : State :=
  let p := (partOf s n).getD 8
  let s := freezeCluster n s
  match coreRef n k, ws with
  | some m, w :: rest =>
    mapRowsOf m (w :: rest) (((w :: rest).map (rowOfWord m)).eraseDups.foldl (fun s row => stepError 0x05 (rowUnit s m row) p s) (countPoison m ws.length s))
  | _, _ => stepError 0x05 (clusterUnit s 0x08 n k 0 0) p s

/-- Poisoned words of the shared store reached an engine: each is counted and its row is mapped and tested, and the operation fails with
MEMORY_UNCORRECTABLE (R146, R160, R380, R381). -/
def segmentPoison (ws : List Nat) (p : Nat) (s : State) : State :=
  ((ws.map (· / 2 ^ 23)).eraseDups).foldl (fun s n =>
    if h : n < 100 then
      let m : StoreRef := .segment ⟨n, h⟩
      let mine := (ws.filter (fun w => w / 2 ^ 23 == n)).map (· % 2 ^ 23)
      mapRowsOf m mine ((mine.map (rowOfWord m)).eraseDups.foldl (fun s row => stepError 0x07 (rowUnit s m row) p s) (countPoison m mine.length s))
    else failStep stMemory p s) s

/-- What the read path of a drain finds: a single-bit error is corrected; an uncorrectable one ends the operation, and its accumulator row is poisoned,
an accumulator row's own being mapped too (R120, R145). -/
def drainError (n m a : Nat) (e : DrainError) (s : State) : State :=
  let p := (partOf s n).getD 8
  if h : n < 100 ∧ m < 4 ∧ a < 4 then
    let r : StoreRef := .accumulator ⟨n, h.1⟩ ⟨m, h.2.1⟩ ⟨a, h.2.2⟩
    match e with
    | .accumulator row .correctable => correctable r (64 * row) 1 (stepMet s p 0xFF) s
    | .accumulator row .uncorrectable =>
      let s := (mapRow 0x03 0x05 r row (uncorrectable r (64 * row) 0 1 s)).2
      freezeCluster n (stepError 0x05 (rowUnit s r row) p (countPoison r 1 s))
    | .softmax _ .correctable => s
    | .softmax row .uncorrectable => enginePoison n m [] (poisonWord r (64 * row) s)
  else s

/-- A difference between the two runs of a unit in an audit step (R387): no step that is not an audit step runs a second. -/
def auditDiffer (n k : Nat) (s : State) : State :=
  let p := (partOf s n).getD 8
  match s.stepOf p with
  | some t => if t.audit then stepError 0x02 (clusterUnit s 0x08 n k 0 0) p (freezeCluster n s) else s
  | none => s

/-! ### The range scoreboard (R131 to R133) -/

def rangesOverlap (a b c d : Nat) : Bool := decide (a < c + d) && decide (c < a + b)

/-- An instruction names at most four ranges (R131), which conflict with none pending, and entries are free for all of them (R132). -/
def mayIssue (board : List Held) (i : EngineInstr) : Bool :=
  i.ranges.all (fun r => !board.any (fun h => (r.write || h.write) && rangesOverlap r.base r.count h.base h.count))
    && decide (board.length + i.ranges.length ≤ 16) && decide (i.ranges.length ≤ 4)

/-- The ranges of an instruction held from its issue. -/
def holdRanges (board : List Held) (i : EngineInstr) : List Held :=
  board ++ i.ranges.map (fun r => ⟨i.owner, r.base, r.count, r.write⟩)

/-- A pending write range overlaps some lines (R100). -/
def pendingWrite (board : List Held) (base lines : Nat) : Bool := board.any (fun h => h.write && rangesOverlap base lines h.base h.count)

/-- Cycles that an instruction waits beyond its scheduled cycle count as schedule slip (R98, R127, R133); how many is not stated. -/
def slip (n : Nat) (s : State) : State :=
  let (v, s) := takeFree s
  updSite (s.siteOf n) (fun r => { r with slip := r.slip + 1 + (v.setWidth 16).toNat }) s

/-- The i-th word of an operand as a transfer brings it in holds poison: a word of the shared store, or, of a tile in bitmap form, the header, the
bitmap or the payload that it is expanded from (R145, R248). -/
def expandedPoison (s : State) (a w i : Nat) : Bool :=
  let bad (x : Nat) : Bool := s.memPoison.contains (a / 64 + x)
  if s.memForms.contains (a / 64) then
    let map := leNat (s.ssRead (a + 0x40) 512)
    let ones (n : Nat) : Nat := count (List.range n) (fun e => map.testBit e)
    let b0 := 0x1200 + w * ones (512 * i / w)
    let b1 := 0x1200 + w * ones (min 4096 ((512 * (i + 1) + w - 1) / w))
    (List.range 9).any bad || (decide (b0 < b1) && (List.range ((b1 + 511) / 512 - b0 / 512)).any (fun x => bad (b0 / 512 + x)))
  else bad i

/-- The work of an instruction once it has issued, with the words of the shared store that its transfer finds in error once the owner of their granules
has been checked (R139). A transfer moves whole words, poison as poison (R135, R145), which ends the operation (R146); one whose address is bad, or
whose granule is not open to the step's context, fails the operation (R135, R155). -/
def engineWork (n k : Nat) (w : EngineWork) (errors : List (Nat × WordFlips)) (s : State) : State :=
  let p := (partOf s n).getD 8
  let ctx := (s.stepOf p).map (·.ctx)
  match w with
  | .compute _ => s
  | .transferIn ss line words tile columns =>
    if ss % 64 ≠ 0 || ss + 64 * words > 100 * segmentBytes then failStep stAddress p s
    else
      match ctx with
      | none => s
      | some c =>
        if !openTo s c ss (64 * words) then denyStep p s
        else
          let s := segmentErrors (errors.filter (fun x => touchesWord ss (64 * words) x.1)) (stepMet s p 0xFF) s
          let bytes := match tile with
            | some f => tileRows s ss (fmtWidth f.toNat)
            | none => s.ssRead ss (64 * words)
          let bad (i : Nat) : Bool := match tile with
            | some f => expandedPoison s ss (fmtWidth f.toNat) i
            | none => s.memPoison.contains (ss / 64 + i)
          let hit := (wordsOf ss (64 * words)).filter (fun x => s.memPoison.contains x)
          let s := (chunks 64 ((bytes.length + 63) / 64) bytes).zipIdx.foldl (fun s (b, i) =>
            let g := granuleWord line columns i
            if bad i then corePoison n k g s else coreWrite n k (b.zipIdx.map (fun (v, j) => (64 * g + j, v))) s) s
          onlyIf (!hit.isEmpty) (fun s => segmentPoison hit p (freezeCluster n s)) s
  | .transferOut line ss words columns =>
    if ss % 64 ≠ 0 || ss + 64 * words > 100 * segmentBytes then failStep stAddress p s
    else
      match ctx with
      | none => s
      | some c =>
        if !openTo s c ss (64 * words) then denyStep p s
        else
          (List.range words).foldl (fun s i =>
            let t := s.coreStore n k
            let a := ss + 64 * i
            let g := granuleWord line columns i
            if t.poison.contains g then dirtyRows c a 64 (ssPoison s (a / 64)) else ctxWrite c a (t.word g) s) s

/-- The words of its core store that an instruction reads: a transfer out what it moves, and a pass or a kernel what it names of its read ranges. -/
def instrReads (i : EngineInstr) : List Nat :=
  match i.work with
  | .transferIn _ _ _ _ _ => []
  | .transferOut line _ words columns => (List.range words).map (granuleWord line columns)
  | .compute ws => ws.filter (fun w => i.ranges.any (fun r => !r.write && decide (r.base ≤ w / 64) && decide (w / 64 < r.base + r.count)))

/-- An instruction issues: its ranges are held, the words it reads pass the ECC stage, and it does its work (R132, R141). A poisoned word that reaches
the engine ends the operation (R146): a transfer writes it out as poison first, and a pass or a kernel does not run. -/
def issueInstr (n k : Nat) (i : EngineInstr) (s : State) : State :=
  let s := updCoreStore n k (fun t => { t with board := holdRanges t.board i }) s
  let p := (partOf s n).getD 8
  match coreRef n k with
  | none => s
  | some m =>
    let s := readWordsOf m i.errors (stepMet s p 0xFF) s
    let hit := (s.coreStore n k).bad (instrReads i)
    onlyIf (!hit.isEmpty) (enginePoison n k hit) (engineWork n k i.work i.storeErrors s)

/-- The waiting instructions of a core taken in order: each whose ranges are free, and before which no instruction of its
engine waits, issues (R132). -/
def retryWaiting (n k : Nat) : List EngineInstr → List Nat → State → State
  | [], _, s => s
  | i :: rest, held, s =>
    let t := s.coreStore n k
    if !(s.cluster n).stopped && !held.contains i.engine && mayIssue t.board i then
      retryWaiting n k rest held (issueInstr n k i (updCoreStore n k (fun t => { t with waiting := t.waiting.erase i }) s))
    else retryWaiting n k rest (i.engine :: held) s

/-- Ranges released, and what waited for them issued (R132, R133). -/
def releaseRanges (n k : Nat) (gone : Held → Bool) (s : State) : State :=
  let s := updCoreStore n k (fun t => { t with board := t.board.filter (fun h => !gone h) }) s
  retryWaiting n k (s.coreStore n k).waiting [] s

/-- Every range of a cluster released as its S-core ends the operation: by then every instruction has finished (R117, R133). -/
def clearBoards (n : Nat) (s : State) : State := (List.range 7).foldl (fun s k => releaseRanges n k (fun _ => true) s) s

end Sys2Proof.Machine
end

