-- ==== Sys2Proof/Machine/Cores.lean ====
section
/-! DEFINITION. Matrix cores: weight loads, passes, the drain's verdict, the capture entry and its replay, conversion, the online-softmax unit
and spare substitution (R90 to R117).
Rests on the log entries (notes/assumptions/<n>.md) 15 (DESIGN CHOICE), 28 (DESIGN CHOICE), 58 (DESIGN CHOICE). -/
namespace Sys2Proof.Machine

/-! ### Operands -/

/-- Elements of a stored row that fills the given granule columns. -/
def elemsPerRow (code columns : Nat) : Nat := columns * 512 / fmtWidth code

/-- The elements c of a stored row, by which its scales are found (R77). -/
def rowElems (o : OperandRef) (columns : Nat) : Nat := if o.elems = 0 then elemsPerRow o.fmt.toNat columns else o.elems

/-- n element codes of stored row r, from element k. -/
def rowCodes (t : CoreStore) (o : OperandRef) (columns r k n : Nat) : List Nat :=
  let w := fmtWidth o.fmt.toNat
  unpackRow w n (rowReader t o.line columns r (w * k / 8) ((w * n + 7) / 8))

/-- The scales of n elements of stored row r, from element k; none for an operand without block scales. -/
def rowScales (t : CoreStore) (o : OperandRef) (columns r k n : Nat) : List Byte :=
  if o.scale = 0 then [] else linearReader t o.sideLine (rowElems o columns / 32 * r + k / 32) ((n + 31) / 32)

/-- n elements of stored row r of a left operand, from element k (R77). -/
def leftRow (t : CoreStore) (o : OperandRef) (columns r k n : Nat) : List Num :=
  let es := rowCodes t o columns r k n
  if o.scale = 0 then es.map (decodeBits o.fmt.toNat ·)
  else
    let sc := rowScales t o columns r k n
    es.zipIdx.map (fun (e, i) => elemValue o.fmt.toNat o.scale.toNat e (sc.getD (i / 32) 0))

/-- The words that a left row's elements and scales lie in. -/
def leftWords (o : OperandRef) (columns r k n : Nat) : List Nat :=
  let w := fmtWidth o.fmt.toNat
  rowWords o.line columns r (w * k / 8) ((w * n + 7) / 8)
    ++ (if o.scale = 0 then [] else linearWords o.sideLine (rowElems o columns / 32 * r + k / 32) ((n + 31) / 32))

/-- A whole weight tile in a core store (R76). -/
def storedTile (t : CoreStore) (o : OperandRef) (index : Nat) : List (List Num) :=
  let size := weightTileBytes o.fmt.toNat o.scale.toNat
  weightTileValues (linearReader t o.line) (index * size) o.fmt.toNat o.scale.toNat

/-- The values of column n. -/
def column (rows : List (List Num)) (n : Nat) : List Num := rows.map (fun r => r.getD n .zero)

/-- A format code and scale that an engine reads (R64). -/
def readable (o : OperandRef) : Bool := fmtKnown o.fmt.toNat && scaleOk o.fmt.toNat o.scale.toNat

/-- A format code and scale that a drain writes (R64, R74). -/
def writable (d : ConvertArgs) : Bool := decide (d.fmt.toNat ≤ 9) && scaleOk d.fmt.toNat d.scale.toNat

/-! ### Verdicts (R108 to R111) -/

/-- What the drain has found while the rows of a pass drain. -/
structure PassFind where
  checked  : Nat := 0
  skipped  : Nat := 0
  bad      : Nat := 0
  first    : Option (Nat × Num × Num × List W32) := none
  deriving DecidableEq, Repr

/-- A row's verdict counted; the first mismatch of the pass is remembered. -/
def PassFind.add (f : PassFind) (row : Nat) (v : Verdict) (results : List W32) : PassFind :=
  match v with
  | .equal => { f with checked := f.checked + 1 }
  | .skipped => { f with skipped := f.skipped + 1 }
  | .mismatch d b =>
    { f with
      checked := f.checked + 1
      bad := f.bad + 1
      first := if f.first.isSome then f.first else some (row, d, b, results) }

/-- The counts of the operation that a partition's step runs, as its engines make them (R81, R82, R89), until its work has been done. -/
def countEngine (p : Nat) (f : Counts → Counts) : State → State :=
  updStep p (fun t => if t.done then t else { t with engine := f t.engine })

/-- CLASS of a capture entry (R111). -/
def classCode (c : PairClass) (int32 : Bool) : Byte :=
  let k : Byte := match c with
    | .narrow => 0 | .standard => 1 | .wide => 2 | .fp32 => 3
  if int32 then k ||| 0x80 else k

/-- What a pass is, for its capture entry. -/
structure PassInfo where
  os     : Bool
  cls    : PairClass
  int32  : Bool
  left   : OperandRef
  bcast  : OperandRef
  stride : Nat
  kLen   : Nat
  kBase  : Nat
  tau    : BitVec 4
  eps    : Byte
  deriving DecidableEq, Repr

/-- After a pass of array a of M-core m: the verdicts are counted, and on a mismatch the S-core stops, the cluster's core
stores freeze, the first failing row of the M-core is captured and the step fails (R82, R110, R111, R399). While an entry is held, a later
mismatch of its step is counted. -/
def passVerdict (n m a : Nat) (i : PassInfo) (f : PassFind) (s : State) : State :=
  let d := s.siteOf n
  let s := updCounters d (fun c => { c with
    csChecked := (c.csChecked + f.checked) % 2 ^ 64
    csMismatch := satAdd c.csMismatch f.bad
    csSkipped := satAdd c.csSkipped f.skipped }) s
  let p := (partOf s n).getD 8
  let s := onlyIf (0 < f.skipped) (countEngine p (fun t => { t with checkSkipped := satAdd t.checkSkipped f.skipped })) s
  match f.first with
  | none => s
  | some (row, diff, bound, results) =>
    let met := stepMet s p stChecksum
    let e : Capture := {
      step := met.step, op := met.op.setWidth 16, ctx := met.ctx, os := i.os, array := BitVec.ofNat 8 (4 * m + a)
      cls := classCode i.cls i.int32
      fmtLeft := BitVec.ofNat 8 (i.left.fmt.toNat + 16 * i.left.scale.toNat)
      fmtBcast := BitVec.ofNat 8 (i.bcast.fmt.toNat + 16 * i.bcast.scale.toNat)
      row := BitVec.ofNat 16 row, kLen := BitVec.ofNat 16 i.kLen, time := dieNow s (s.siteOf n), tau := i.tau.setWidth 8, eps := i.eps
      mismatches := BitVec.ofNat 32 f.bad, diff := toF64 diff, bound := if i.int32 then 0 else toF64 bound, results := results, kBase := i.kBase
      leftRef := i.left, bcastRef := i.bcast, stride := i.stride }
    stepError 0x01 (clusterUnit s 0x08 n m a 0) p (freezeCluster n (captureRow n m e s))

/-! ### Passes -/

/-- The bits that arrive at the drain at a column of a row: those of the sound array, or those of a fault. -/
def arrives (ups : List Upset) (row col : Nat) (sound : W32) : W32 :=
  match ups.find? (fun u => u.row == row && u.col.val == col) with
  | some u => u.bits
  | none => sound

/-- The results of one row of a pass as they arrive, and the checksum value the drain compares. -/
def passRow (k : PairClass) (int32 : Bool) (ups : List Upset) (row : Nat) (xs : List Num) (cols : List (List Num)) (sums : List Num) :
    List W32 × Num :=
  let rs := cols.zipIdx.map (fun (ys, n) => arrives ups row n (columnSum k int32 xs ys))
  let check := match ups.find? (fun u => u.row == row && u.col.val == 64) with
    | some u => accValue int32 u.bits
    | none => checkSum k int32 xs sums
  (rs, check)

/-- The columns of a row whose value is an infinity or NaN. -/
def specials (ws : List W32) : List Nat := (ws.zipIdx.filter (fun x => (ofF32 x.1).isSpecial)).map (·.2)

/-- The words of an accumulator row as a pass that accumulates in one kind finds them: a row that holds the other kind has free values, as the
accumulators held of R178 have (DESIGN CHOICE: notes/assumptions/15.md), and one that nothing has written holds zeros of either. -/
def AccRow.wordsAs (int32 : Bool) (k : AccRow) : List W32 :=
  if k.int32 = int32 || k.op = (0xFFFFFFFF, 0xFFFFFFFF) then k.words else k.words.map (Config.heldAs k.int32)

/-- A row written to, or added into, an accumulator row (R106); one of the other kind is added to by what its words read as in the new kind
(R81; DESIGN CHOICE: notes/assumptions/15.md). The first addition of an operation notes the columns that start from an infinity
or NaN, and an INT32 sum that saturates is noted (R81). -/
def accumulate (op : W32 × W32) (int32 add : Bool) (old : AccRow) (rs : List W32) : AccRow :=
  if add then
    let old := { old with words := old.wordsAs int32, int32 := int32 }
    let old := if old.op = op then old
      else { old with
        op := op, starts := if int32 then [] else specials old.words
        nans := if int32 then [] else (specials old.words).filter (fun n => (ofF32 (old.words.getD n 0)).isNan), sat := [], counted := false }
    let sums := (List.range 64).map (fun n =>
      let a := old.words.getD n 0
      let b := rs.getD n 0
      if int32 then int32Add a b else (f32Add a b, false))
    { old with
      words := sums.map (·.1)
      sat := (List.range 64).filter (fun n => old.sat.contains n || (sums.getD n (0, false)).2) }
  else { words := (List.range 64).map (fun n => rs.getD n 0), int32 := int32, op := op }

/-- What R81 counts of a row's final values, once. -/
def AccRow.count (k : AccRow) (t : Counts) : Counts :=
  if k.counted then t
  else if k.int32 then { t with intSat := satAdd t.intSat k.sat.length }
  else
    { t with
      accOverflow := satAdd t.accOverflow (k.words.zipIdx.filter (fun x => (ofF32 x.1).isInf && !k.starts.contains x.2)).length
      nanCreated := satAdd t.nanCreated (k.words.zipIdx.filter (fun x => (ofF32 x.1).isNan && !k.nans.contains x.2)).length }

/-- The rows of an accumulator buffer (R91). -/
def accRows : Nat := 2048

/-- The rows of a pass drained into the accumulator, with their verdicts. A row with a poisoned operand is marked poisoned and
not compared (R145). -/
def drainRows (op : W32 × W32) (k : PairClass) (int32 : Bool) (p : PassArgs) (ups : List Upset) (cols : List (List Num)) (sums : List Num)
    (lefts : List (List Nat × List Num)) (acc : Tab AccRow) : Tab AccRow × PassFind :=
  lefts.zipIdx.foldl (fun (t, f) ((bad, xs), row) =>
    let (rs, check) := passRow k int32 ups row xs cols sums
    let key := p.baseRow + row
    let new := accumulate op int32 p.add (t.getD key {}) rs
    if bad.isEmpty then
      (t.put key new, f.add row (checkRow k int32 p.tau.toNat p.eps.toNat rs check) (rs ++ [arrives ups row 64 (columnSum k int32 xs sums)]))
    else (t.put key { new with poison := true }, f)) (acc, {})

/-- The left rows of a pass with their poisoned words. Only the rows of the left operand are drained: those above its count are fed zeros and
deliver nothing (DESIGN CHOICE: notes/assumptions/58.md). -/
def leftRows (t : CoreStore) (p : PassArgs) (n : Nat) : List (List Nat × List Num) :=
  (List.range p.rows).map (fun r => (t.bad (leftWords p.left p.stride r p.kBase n), leftRow t p.left p.stride r p.kBase n))

/-- The step and operation that a cluster runs. -/
def opOf (s : State) (n : Nat) : W32 × W32 :=
  let m := stepMet s ((partOf s n).getD 8) 0xFF
  (m.step, m.op)

/-- The last bytes that a feeder queue holds of what it has streamed (R99). -/
def queueHolds (bs : List Byte) : List Byte := bs.drop (bs.length - 256)

/-- What the feeder queues hold of a WS pass: queue k the elements k of its tokens. -/
def wsFeeders (t : CoreStore) (p : PassArgs) : Tab (List Byte) :=
  let rows := (List.range p.rows).map (fun r => rowCodes t p.left p.stride r p.kBase 128)
  (List.range 128).map (fun k => (k, queueHolds (packRow (fmtWidth p.left.fmt.toNat) (rows.map (fun r => r.getD k 0)))))

/-- What the feeder queues hold of an OS pass: queue i the elements of left row i. -/
def osFeeders (t : CoreStore) (p : PassArgs) : Tab (List Byte) :=
  (List.range (min p.rows 128)).map (fun i => (i, queueHolds (packRow (fmtWidth p.left.fmt.toNat) (rowCodes t p.left p.stride i p.kBase p.kLen))))

/-- A pass streams its left operand: the scales go to the half that the last pass did not use, which then serves, and the queues hold
what they streamed last (R99, R127). -/
def ArrayRec.stream (r : ArrayRec) (feeders : Tab (List Byte)) (scales : List Byte) : ArrayRec :=
  if r.scaleHalf then { r with feeders := feeders, scales0 := scales, scaleHalf := false }
  else { r with feeders := feeders, scales1 := scales, scaleHalf := true }

/-- The scales of a pass's left rows. -/
def passScales (t : CoreStore) (p : PassArgs) (n : Nat) : List Byte :=
  (List.range p.rows).flatMap (fun r => rowScales t p.left p.stride r p.kBase n)

/-- Core-store lines that a pass reads of its left operand and its side area. -/
def passLines (p : PassArgs) : List (Nat × Nat) :=
  (p.left.line, (p.rows + 63) / 64 * p.stride)
    :: (if p.left.scale = 0 then [] else [(p.left.sideLine, (rowElems p.left p.stride / 32 * p.rows + 4095) / 4096)])

/-- A WS pass carries from 1 to 2,048 tokens (R101), into rows that the accumulator has. -/
def wsFits (p : PassArgs) : Bool :=
  decide (1 ≤ p.rows) && decide (p.rows ≤ 2048) && decide (p.baseRow + p.rows ≤ accRows) && decide (1 ≤ p.stride) && readable p.left

/-- An OS pass covers from 1 to 2,048 K indices from a multiple of 32, with 1 to 128 left rows (R103). -/
def osFits (p : PassArgs) : Bool :=
  decide (1 ≤ p.rows) && decide (p.rows ≤ 128) && decide (p.baseRow + p.rows ≤ accRows) && decide (1 ≤ p.stride) && readable p.left
    && decide (1 ≤ p.kLen) && decide (p.kLen ≤ 2048) && decide (p.kBase % 32 = 0)

/-- The poisoned words of a pass's left rows. -/
def leftBad (lefts : List (List Nat × List Num)) : List Nat := (lefts.flatMap (·.1)).eraseDups

/-- Tiles that pass through the staging buffer of an M-core in order: it holds the last two (R119). -/
def stage (n m : Nat) (tiles : List (List Byte)) : State → State :=
  updCore n m (fun c => { c with staging := (tiles.reverse ++ c.staging).take 2 })

/-- A weight-tile load issues: the tile, whole in the staging buffer, goes to the shadow registers of the selected arrays with its row
sums (R95 to R97); a parity error or a poisoned word ends the operation (R120). -/
def loadTile (n m : Nat) (arrays : List (Fin 4)) (t : TileLoad) (s : State) : State :=
  let st := s.coreStore n m
  let code := t.tile.fmt.toNat
  let scale := t.tile.scale.toNat
  let size := weightTileBytes code scale
  let bad := st.bad (linearWords t.tile.line 0 size)
  if t.parity || !bad.isEmpty then enginePoison n m bad s
  else
    let rows := storedTile st t.tile 0
    let w : LoadedTile := {
      rows := rows, sums := rows.map (rowSum (isInteger code && scale == 0)), fmt := t.tile.fmt, scale := t.tile.scale, ref := t.tile }
    let s := stage n m [linearReader st t.tile.line 0 size] s
    let s := arrays.foldl (fun s a => updArray n m a.val (fun r => { r with shadow := w, fresh := true }) s) s
    onlyIf t.differs (auditDiffer n m) s

/-- WS_PASS issues: the shadow weights become active with the pass's first element, tokens stream through, and the rows drain
(R98, R101, R102, R106). -/
def runWs (n m a : Nat) (p : PassArgs) (ups : List Upset) (s : State) : State :=
  let st := s.coreStore n m
  let r := s.array n m a
  let t := r.shadow
  if p.parity then enginePoison n m [] s
  else
    let k := pairClass p.left.fmt.toNat p.left.scale.toNat t.fmt.toNat t.scale.toNat
    let int32 := pairInt32 p.left.fmt.toNat p.left.scale.toNat t.fmt.toNat t.scale.toNat
    let lefts := leftRows st p 128
    let sums := (List.range 128).map (fun i => t.sums.getD i .zero)
    let (acc, f) := drainRows (opOf s n) k int32 p ups ((List.range 64).map (fun c => (List.range 128).map (fun i => (t.rows.getD i []).getD c .zero)))
      sums lefts r.acc
    let s := onlyIf p.late (slip n) s
    let s := updArray n m a (fun r => { (r.stream (wsFeeders st p) (passScales st p 128)) with fresh := false, active := t, acc := acc }) s
    let s := p.errors.foldl (fun s e => drainError n m a e s) s
    let s := passVerdict n m a
      { os := false, cls := k, int32 := int32, left := p.left, bcast := t.ref, stride := p.stride, kLen := 128, kBase := p.kBase, tau := p.tau, eps := p.eps } f s
    let bad := leftBad lefts
    onlyIf (!bad.isEmpty) (enginePoison n m bad) s

/-! ### The online-softmax unit (R113, R114) -/

/-- A score row: the new state of the row, and the probabilities in FP32. -/
def softmaxRow (o : SoftRow) (scores : List W32) (sigma : W32) (valid : Nat) : SoftRow × List W32 :=
  let z := scores.zipIdx.map (fun (x, j) => if j < valid then f32Mul x sigma else f32NegInf)
  let m := z.foldl f32Max o.m
  if m = f32NegInf then
    let l := f32Add (f32Mul o.l f32One) (toF32 .zero)
    ({ m := m, l := l, alpha := f32One }, z.map (fun _ => 0))
  else
    let alpha := f32Exp (f32Sub o.m m)
    let p := z.map (fun x => f32Exp (f32Sub x m))
    let l := f32Add (f32Mul o.l alpha) (toF32 (Num.sum (p.map ofF32)))
    ({ m := m, l := l, alpha := alpha }, p)

/-- A value pass added into an output row: acc × α + result, each rounded (R114). -/
def softmaxAdd (alpha : W32) (acc result : List W32) : List W32 :=
  result.zipIdx.map (fun (x, n) => f32Add (f32Mul (acc.getD n 0) alpha) x)

/-- The finish of a row (R114): acc × reciprocal(l), +0 where l is +0, NaN where m or l is NaN. -/
def softmaxFinish (o : SoftRow) (acc : List W32) : List W32 :=
  if (ofF32 o.m).isNan || (ofF32 o.l).isNan then acc.map (fun _ => f32Nan)
  else if o.l = 0 then acc.map (fun _ => 0)
  else acc.map (fun x => f32Mul x (f32Recip o.l))

/-- The top operand of an OS pass: K rows of 64 columns from consecutive weight tiles, from K index kBase (R103). -/
def topRows (t : CoreStore) (o : OperandRef) (kBase n : Nat) : List (List Num) :=
  let tiles := (List.range ((kBase + n + 127) / 128)).flatMap (storedTile t o)
  (tiles.drop kBase).take n

/-- The rows of an OS pass, 64 results and the checksum result, with their poison, and their verdicts as they arrive at the drain: the last row
first and row 0 last (R104). -/
def osRows (k : PairClass) (int32 : Bool) (p : PassArgs) (ups : List Upset) (cols : List (List Num)) (sums : List Num)
    (lefts : List (List Nat × List Num)) : List (Bool × List W32) × PassFind :=
  lefts.zipIdx.foldr (fun ((bad, xs), row) (l, f) =>
    let (rs, check) := passRow k int32 ups row xs cols sums
    let whole := rs ++ [arrives ups row 64 (columnSum k int32 xs sums)]
    ((!bad.isEmpty, whole) :: l,
      if bad.isEmpty then f.add row (checkRow k int32 p.tau.toNat p.eps.toNat rs check) whole else f)) ([], {})

/-- FP32 words as bytes (R4). -/
def wordBytes (ws : List W32) : List Byte := ws.flatMap (fun w => leBytes 4 w.toNat)

/-- The counts that a conversion adds to a step (R89). -/
def addConv (sat dropped : Nat) (t : Counts) : Counts :=
  { t with convSat := satAdd t.convSat sat, nanDropped := satAdd t.nanDropped dropped }

/-- A row of values converted to a destination in the core store: its elements to the stored row, its scales to the side area (R77, R84, R107). -/
def writeConverted (n m : Nat) (d : ConvertArgs) (row : Nat) (vs : List Num) (s : State) : State :=
  let code := d.fmt.toNat
  let cv := convertRow code d.scale.toNat (d.round = 1) d.nosat d.seed (d.index + vs.length * (row - d.row)) vs
  let o : OperandRef := ⟨d.line, d.fmt, d.scale, d.sideLine, d.elems⟩
  let s := writeRow n m d.line d.columns row d.x (packRow (fmtWidth code) cv.elems) s
  let s := if d.scale = 0 then s else writeLinear n m d.sideLine (rowElems o d.columns / 32 * row + 8 * d.x / fmtWidth code / 32) cv.scales s
  countEngine ((partOf s n).getD 8) (addConv cv.sat cv.dropped) s

/-- The state that a softmax start gives a row (R113). -/
def softStart (st : CoreStore) (i : Nat) : SoftStart → SoftRow
  | .negInf => { m := f32NegInf, l := 0, alpha := f32One }
  | .stored line => { m := BitVec.ofNat 32 (leNat (linearReader st line (4 * i) 4)), l := 0, alpha := f32One }

/-- What R81 and R114 count of the output elements of a finished row. -/
def countFinished (o : SoftRow) (ws : List W32) (t : Counts) : Counts :=
  if (ofF32 o.m).isNan || (ofF32 o.l).isNan then { t with nanCreated := satAdd t.nanCreated 1 }
  else { t with
    nanCreated := satAdd t.nanCreated (count ws (fun w => (ofF32 w).isNan)), accOverflow := satAdd t.accOverflow (count ws (fun w => (ofF32 w).isInf)) }

/-- A softmax starts on the rows of a pass: a mark that an earlier operand left on their accumulator rows ends (R113, R145). -/
def softmaxStarts (n m a : Nat) (p : PassArgs) : OsDest → State → State
  | .scores _ (some _) _ => updArray n m a (fun r => { r with acc := (List.range p.rows).foldl (fun t i =>
      t.modify (p.baseRow + i) (fun k => { k with poison := false })) r.acc })
  | .scores _ none _ => id
  | .accumulator => id
  | .values => id
  | .finish _ _ => id

/-- The rows of an OS pass sent where the pass says (R104, R106, R113, R114). A row that took a poisoned operand, or whose softmax state cannot be
read, marks its accumulator row, and goes no further (R120, R145). -/
def osDeliver (n m a : Nat) (p : PassArgs) (int32 : Bool) (dest : OsDest) (rows : List (Bool × List W32)) (s : State) : State :=
  let op := opOf s n
  match dest with
  | .accumulator =>
    updArray n m a (fun r => { r with acc := rows.zipIdx.foldl (fun t ((bad, rs), i) =>
      let new := accumulate op int32 p.add (t.getD (p.baseRow + i) {}) rs
      t.put (p.baseRow + i) { new with poison := new.poison || bad }) r.acc }) s
  | .scores args start d =>
    rows.zipIdx.foldl (fun s ((bad, rs), i) =>
      let key := p.baseRow + i
      let (sigma, valid) := args.getD i (0, 0)
      let old := match start with
        | some x => softStart (s.coreStore n m) i x
        | none => (s.array n m a).soft.getD key {}
      if bad || ((s.array n m a).acc.getD key {}).poison then updArray n m a (fun r => { r with acc := r.acc.update key {} (fun k => { k with poison := true }) }) s
      else
        let (o, ps) := softmaxRow old rs sigma valid
        writeConverted n m d (d.row + i) (ps.map ofF32) (updArray n m a (fun r => { r with soft := r.soft.put key o }) s)) s
  | .values =>
    updArray n m a (fun r => rows.zipIdx.foldl (fun r ((bad, rs), i) =>
      let key := p.baseRow + i
      let o := r.soft.getD key {}
      let acc := r.acc.getD key {}
      { r with
        acc := r.acc.put key { acc with words := softmaxAdd o.alpha (acc.wordsAs false) rs, poison := acc.poison || bad, int32 := false }
        soft := r.soft.put key { o with alpha := f32One } }) r) s
  | .finish line ml =>
    (List.range p.rows).foldl (fun s i =>
      let r := s.array n m a
      let o := r.soft.getD (p.baseRow + i) {}
      let k := r.acc.getD (p.baseRow + i) {}
      let out := softmaxFinish o k.words
      let bytes := wordBytes (out ++ (if ml then [o.m, o.l] else []))
      if k.poison then s
      else countEngine ((partOf s n).getD 8) (countFinished o out) (writeLinear n m line (i * bytes.length) bytes s)) s

/-- The weight tiles that an OS pass reads of its top operand: from the one that holds its first K index. -/
def topBytes (p : PassArgs) (top : OperandRef) : Nat × Nat :=
  let size := weightTileBytes top.fmt.toNat top.scale.toNat
  (p.kBase / 128 * size, ((p.kBase + p.kLen + 127) / 128 - p.kBase / 128) * size)

/-- The tiles of its top operand that an OS pass brings through the staging buffer. -/
def topTiles (st : CoreStore) (p : PassArgs) (top : OperandRef) : List (List Byte) :=
  let size := weightTileBytes top.fmt.toNat top.scale.toNat
  (List.range ((topBytes p top).2 / max 1 size)).map (fun t => linearReader st top.line ((topBytes p top).1 + t * size) size)

/-- OS_PASS issues: the outputs stay in the cells, the reduction runs along time, and the rows drain (R103 to R106). -/
def runOs (n m a : Nat) (p : PassArgs) (top : OperandRef) (dest : OsDest) (ups : List Upset) (s : State) : State :=
  let st := s.coreStore n m
  match dest with
  | .finish _ _ => onlyIf p.differs (auditDiffer n m) (osDeliver n m a p false dest [] (p.errors.foldl (fun s e => drainError n m a e s) s))
  | _ =>
    let badTop := st.bad (linearWords top.line (topBytes p top).1 (topBytes p top).2)
    if p.parity || !badTop.isEmpty then enginePoison n m badTop s
    else
      let k := pairClass p.left.fmt.toNat p.left.scale.toNat top.fmt.toNat top.scale.toNat
      let int32 := pairInt32 p.left.fmt.toNat p.left.scale.toNat top.fmt.toNat top.scale.toNat
      let rows := topRows st top p.kBase p.kLen
      let lefts := leftRows st p p.kLen
      let (out, f) := osRows k int32 p ups ((List.range 64).map (column rows)) (rows.map (rowSum int32)) lefts
      let s := onlyIf p.late (slip n) s
      let s := updArray n m a (fun r => { (r.stream (osFeeders st p) (passScales st p p.kLen)) with output := out.map (·.2), outShadow := out.map (·.2) })
        (stage n m (topTiles st p top) s)
      let s := p.errors.foldl (fun s e => drainError n m a e s) (softmaxStarts n m a p dest s)
      let s := osDeliver n m a p int32 dest (out.map (fun x => (x.1, x.2.take 64))) s
      let s := passVerdict n m a
        { os := true, cls := k, int32 := int32, left := p.left, bcast := top, stride := p.stride, kLen := p.kLen, kBase := p.kBase, tau := p.tau, eps := p.eps } f s
      let bad := leftBad lefts
      let s := onlyIf (!bad.isEmpty) (enginePoison n m bad) s
      onlyIf p.differs (auditDiffer n m) s

/-! ### Conversion (R84 to R88, R107) -/

/-- A row converted to its destination format, and what R81 counts of its final values counted; a poisoned row is not converted (R145). -/
def convertAcc (n m a row : Nat) (d : ConvertArgs) (s : State) : State :=
  let s := match d.error with
    | some e => drainError n m a (.accumulator row e) s
    | none => s
  let k := (s.array n m a).acc.getD row {}
  if k.poison then s
  else
    let s := countEngine ((partOf s n).getD 8) k.count s
    let s := updArray n m a (fun r => { r with acc := r.acc.put row { k with counted := true } }) s
    writeConverted n m d d.row (k.words.map (accValue k.int32)) s

/-! ### Issue (R96, R98, R100) -/

/-- The operands of an OS pass, and where it goes, are such as an array takes. -/
def osPassFits (p : PassArgs) (top : OperandRef) (dest : OsDest) : Bool :=
  match dest with
  | .finish _ _ => decide (p.baseRow + p.rows ≤ accRows)
  | .accumulator => osFits p && readable top
  | .values => osFits p && readable top
  | .scores args _ d => osFits p && readable top && writable d && decide (args.length = p.rows)

/-- A load or a pass of an M-core issues when the arrays it selects have used the tile in their shadow registers, or when the scoreboard shows
every line of its operands written. -/
def coreReady (s : State) (n m : Nat) (i : Instr) : Bool :=
  let board := (s.coreStore n m).board
  match i with
  | .weightTileLoad _ _ arrays t =>
    arrays.all (fun a => !(s.array n m a.val).fresh)
      && !pendingWrite board t.tile.line ((weightTileBytes t.tile.fmt.toNat t.tile.scale.toNat + 4095) / 4096)
  | .wsPass _ _ _ p _ => (passLines p).all (fun r => !pendingWrite board r.1 r.2)
  | .osPass _ _ _ p top _ _ =>
    ((top.line, ((topBytes p top).1 + (topBytes p top).2 + 4095) / 4096) :: passLines p).all (fun r => !pendingWrite board r.1 r.2)
  | _ => true

/-- Two commands of an M-core keep their order: loads on the one bus, and the passes and conversions of one array (R96, R100, R107). -/
def sameOrder (i j : Instr) : Bool :=
  match i, j with
  | .weightTileLoad _ _ _ _, .weightTileLoad _ _ _ _ => true
  | .wsPass _ _ a _ _, .wsPass _ _ b _ _ => a == b
  | .wsPass _ _ a _ _, .osPass _ _ b _ _ _ _ => a == b
  | .osPass _ _ a _ _ _ _, .wsPass _ _ b _ _ => a == b
  | .osPass _ _ a _ _ _ _, .osPass _ _ b _ _ _ _ => a == b
  | .weightTileLoad _ _ arrays _, .wsPass _ _ a _ _ => arrays.contains a
  | .wsPass _ _ a _ _, .weightTileLoad _ _ arrays _ => arrays.contains a
  | .wsPass _ _ a _ _, .accumulatorConvert _ _ b _ _ => a == b
  | .osPass _ _ a _ _ _ _, .accumulatorConvert _ _ b _ _ => a == b
  | .accumulatorConvert _ _ a _ _, .wsPass _ _ b _ _ => a == b
  | .accumulatorConvert _ _ a _ _, .osPass _ _ b _ _ _ _ => a == b
  | .accumulatorConvert _ _ a _ _, .accumulatorConvert _ _ b _ _ => a == b
  | _, _ => false

/-- The read ranges of the engine instruction that a pass is, released after its last verdict (R100, R133). -/
def passOver (n m : Nat) (owner : Option Nat) (s : State) : State :=
  match owner with
  | some o => releaseRanges n m (fun h => h.owner == o && !h.write) s
  | none => s

/-- A load or a pass carried out. -/
def runIssued (n m : Nat) (i : Instr) (s : State) : State :=
  match i with
  | .weightTileLoad _ _ arrays t => loadTile n m arrays t s
  | .wsPass _ _ a p ups => passOver n m p.owner (runWs n m a.val p ups s)
  | .osPass _ _ a p top dest ups => passOver n m p.owner (runOs n m a.val p top dest ups s)
  | .accumulatorConvert _ _ a row d => convertAcc n m a.val row d s
  | _ => s

/-- The loads and passes that wait at an M-core, in order: each that is ready, and before which none of its order waits, is carried out. -/
def runWaiting (n m : Nat) : List Instr → List Instr → State → State
  | [], _, s => s
  | i :: rest, before, s =>
    if !(s.cluster n).stopped && coreReady s n m i && !before.any (sameOrder i) then
      runWaiting n m rest before (runIssued n m i (updCore n m (fun c => { c with waiting := c.waiting.erase i }) s))
    else runWaiting n m rest (before ++ [i]) s

/-- What waits at an M-core tried, as often as something of it may have made way for another; a V-core or the S-core has none. -/
def runCore (n m : Nat) (s : State) : State :=
  if m < 4 then (List.range ((s.core n m).waiting.length)).foldl (fun s _ => runWaiting n m (s.core n m).waiting [] s) s else s

/-- A load or a pass arrives: it issues at once, or holds issue, the held cycles counting as slip. -/
def coreIssue (n m : Nat) (fits : Bool) (i : Instr) (s : State) : State :=
  if (s.cluster n).stopped || !fits then s
  else if coreReady s n m i && !(s.core n m).waiting.any (sameOrder i) then runCore n m (runIssued n m i s)
  else slip n (updCore n m (fun c => { c with waiting := c.waiting ++ [i] }) s)

/-- WEIGHT_TILE_LOAD: held while a selected array's shadow tile awaits its pass (R98). -/
def weightTileLoad (c : Cluster) (m : Fin 4) (arrays : List (Fin 4)) (t : TileLoad) : State → State :=
  coreIssue c.val m.val (readable t.tile) (.weightTileLoad c m arrays t)

def execWeightTileLoad (c : Cluster) (m : Fin 4) (arrays : List (Fin 4)) (t : TileLoad) (s : State) : Out :=
  .next (weightTileLoad c m arrays t s)

/-- WS_PASS. -/
def wsPass (c : Cluster) (m a : Fin 4) (p : PassArgs) (ups : List Upset) : State → State :=
  coreIssue c.val m.val (wsFits p) (.wsPass c m a p ups)

def execWsPass (c : Cluster) (m a : Fin 4) (p : PassArgs) (upsets : List Upset) (s : State) : Out := .next (wsPass c m a p upsets s)

/-- OS_PASS. -/
def osPass (c : Cluster) (m a : Fin 4) (p : PassArgs) (top : OperandRef) (dest : OsDest) (ups : List Upset) : State → State :=
  coreIssue c.val m.val (osPassFits p top dest) (.osPass c m a p top dest ups)

def execOsPass (c : Cluster) (m a : Fin 4) (p : PassArgs) (top : OperandRef) (dest : OsDest) (upsets : List Upset) (s : State) : Out :=
  .next (osPass c m a p top dest upsets s)

/-- ACCUMULATOR_CONVERT: a row goes to its destination format after the last verdict of the last pass that adds into it: one that comes while a pass
of its array waits is made after that pass. -/
def accumulatorConvert (c : Cluster) (m a : Fin 4) (row : Nat) (d : ConvertArgs) : State → State :=
  coreIssue c.val m.val (decide (row < accRows) && writable d) (.accumulatorConvert c m a row d)

def execAccumulatorConvert (c : Cluster) (m a : Fin 4) (row : Nat) (d : ConvertArgs) (s : State) : Out :=
  .next (accumulatorConvert c m a row d s)

/-! ### The capture entry (R111, R112, R148) -/

/-- FAULT_CAPTURE_FILL: the maintenance slot copies the failing row and the broadcast operand, as stored, into the M-core's
capture entry (R111, R148). A single-bit error of the entry is corrected; an uncorrectable one loses it, as an uncorrectable read (R120). -/
def faultCaptureFill (c : Cluster) (m : Fin 4) (error : Option EccKind) (s : State) : State :=
  let st := s.coreStore c.val m.val
  let s := updCore c.val m.val (fun k => { k with capture := k.capture.map (fun e =>
    if e.filled then e
    else
      let o := e.leftRef
      let w := fmtWidth o.fmt.toNat
      let b := e.bcastRef
      let size := weightTileBytes b.fmt.toNat b.scale.toNat
      let first := if e.os then e.kBase / 128 else 0
      let tiles := if e.os then (e.kBase + e.kLen.toNat + 127) / 128 - first else 1
      { e with
        left := rowReader st o.line e.stride e.row.toNat (w * e.kBase / 8) ((w * e.kLen.toNat + 7) / 8) ++ rowScales st o e.stride e.row.toNat e.kBase e.kLen.toNat
        bcast := linearReader st b.line (first * size) (tiles * size)
        filled := true }) }) s
  if error = some .uncorrectable && (s.core c.val m.val).capture.isSome then
    enginePoison c.val m.val [] (updCore c.val m.val (fun k => { k with capture := none }) s)
  else s

def execFaultCaptureFill (c : Cluster) (m : Fin 4) (error : Option EccKind) (s : State) : Out := .next (faultCaptureFill c m error s)

/-- The class that a capture entry's CLASS names. -/
def captureClass (e : Capture) : PairClass :=
  match e.cls.toNat % 128 with
  | 0 => .narrow
  | 1 => .standard
  | 2 => .wide
  | _ => .fp32

/-- The results of a replay fail the check of the entry's pass (R108). -/
def replayFails (e : Capture) (rs : List W32) : Bool :=
  let int32 := bit e.cls 7
  match checkRow (captureClass e) int32 e.tau.toNat e.eps.toNat (rs.take 64) (accValue int32 (rs.getD 64 0)) with
  | .mismatch _ _ => true
  | .equal => false
  | .skipped => false

/-- Replays that R112 makes: of the pass on the failing array and on its sibling, and with several columns apart of each row alone. -/
def replayCount : Nat := 16
def isolatedRows : Nat := 128

/-- What the replays of a capture entry show (R112): the column, or the checksum column, in which alone the array differs from its sibling; with
several, the row that differs with all others zeroed. A test that has not made all its replays has not run to its end (R391). -/
def replayFinding (u : UnitRef) (e : Capture) (own sibling : List (List W32)) (isolated : List (Nat × List W32 × List W32)) : TestFinding :=
  let differ := (List.range 65).filter (fun n => (own.zip sibling).any (fun x => x.1.getD n 0 != x.2.getD n 0))
  let part (unit : Byte) (i : Nat) : TestFinding :=
    .located { u with unit := unit, a := (e.array >>> 2).setWidth 16, b := (e.array &&& 3).setWidth 16, c := BitVec.ofNat 32 i }
  if own.length ≠ replayCount || sibling.length ≠ replayCount then .notReproduced false
  else
  match differ with
  | [] => if own.all (replayFails e) then .sameOnBoth else .notReproduced true
  | [n] => part 0x07 n
  | _ =>
    if !(List.range isolatedRows).all (fun r => isolated.any (fun x => x.1 == r)) then .notReproduced false
    else
    match isolated.filter (fun x => x.2.1 != x.2.2) with
    | [x] => part 0x06 x.1
    | _ => .unlocated

/-! ### Spare rows and columns (R92 to R94) -/

/-- An operation is in flight on a cluster. -/
def clusterBusy (s : State) (n : Nat) : Bool :=
  match (partOf s n).bind s.stepOf with
  | some t => t.current.isSome && !t.done
  | none => false

/-- A row or column of an array found faulty: the spare takes its place, or the cluster is retired when the array needs a
second spare of one kind (R92, R94). The answer is the chart entry's SEQ_NO. -/
def substitute (source cause : Byte) (n m a : Nat) (column : Bool) (index : Nat) (s : State) : W32 × State :=
  let r := s.array n m a
  let used := if column then r.spareCol else r.spareRow
  if used = some index then (0, s)
  else if used.isSome then retireCluster source cause n s
  else
    let s := updArray n m a (fun r => if column then { r with spareCol := some index } else { r with spareRow := some index }) s
    chartWrite source (clusterUnit s (if column then 0x07 else 0x06) n m a index) 0x01 cause s

/-- Substitutions that have waited are made, once no operation is in flight on the cluster; where one is a self-test's outcome, its record
follows. -/
def makeSubstitutions (n : Nat) (s : State) : State :=
  let l := (s.cluster n).subs
  if l.isEmpty || clusterBusy s n then s
  else l.foldl (fun s d =>
    let (no, s) := substitute d.source 0x01 n d.core d.array d.column d.index s
    match d.test with
    | some (t, code) => outcomeRecord t code no s
    | none => s) (updCluster n (fun r => { r with subs := [] }) s)

/-- A substitution made, or one that waits where an operation is in flight on the cluster (R92). -/
def fieldSubstitute (n : Nat) (d : SubDue) (s : State) : State := makeSubstitutions n (updCluster n (fun r => { r with subs := r.subs ++ [d] }) s)

/-- ARRAY_SPARE_SUBSTITUTE of a logical row 0 to 127 or column 0 to 64: a field substitution waits until no operation is in flight on the cluster
(R92); no result bit changes (R93). -/
def arraySpareSubstitute (c : Cluster) (m a : Fin 4) (column : Bool) (index : Nat) (s : State) : State :=
  if (if column then 65 else 128) ≤ index then s
  else fieldSubstitute c.val { core := m.val, array := a.val, column := column, index := index } s

def execArraySpareSubstitute (c : Cluster) (m a : Fin 4) (column : Bool) (index : Nat) (s : State) : Out :=
  done s (arraySpareSubstitute c m a column index)

end Sys2Proof.Machine
end

