-- ==== Sys2Proof/Machine/OnChip.lean ====
section
/-! DEFINITION. On-chip memory: engine instructions and the range scoreboard, correction, poison, patrol scrub, row mapping and
zero scrub (R118 to R160). -/
namespace Sys2Proof.Machine

/-! ### Engine instructions (R131 to R133) -/

/-- ENGINE_INSTRUCTION_ISSUE: ranges whose instructions have finished are released, waiting instructions issue where they
now may, and this one issues or waits (R131 to R133). A cluster that has stopped issues nothing (R110), and an instruction names at most
four ranges. -/
def engineInstructionIssue (c : Cluster) (core : Fin 7) (i : EngineInstr) (s : State) : State :=
  let n := c.val
  let k := core.val
  let s := runCore n core.val (releaseRanges n k (fun h => i.finished.contains (h.owner, h.write)) s)
  if (s.cluster n).stopped || decide (4 < i.ranges.length) then s
  else
    let t := s.coreStore n k
    if !t.waiting.any (fun j => j.engine == i.engine) && mayIssue t.board i then issueInstr n k i s
    else slip n (updCoreStore n k (fun t => { t with waiting := t.waiting ++ [i] }) s)

def execEngineInstructionIssue (c : Cluster) (core : Fin 7) (i : EngineInstr) (s : State) : Out :=
  done s (engineInstructionIssue c core i)

/-! ### Maintenance (R142 to R153) -/

/-- CE_WRITEBACK: the first word of the queue is written back (R142, R148). -/
def execCeWriteback (m : StoreRef) (s : State) : Out :=
  .next (updStore m (fun r =>
    match r.queue with
    | [] => r
    | w :: q => { r with queue := q, written := if r.written.contains w then r.written else r.written ++ [w] }) s)

/-- A word holds the poison syndrome already. -/
def isPoisoned (s : State) (m : StoreRef) (w : Nat) : Bool :=
  match m with
  | .core c k => (s.coreStore c.val k.val).poison.contains w
  | .accumulator c a b => ((s.array c.val a.val b.val).acc.getD (w / 64) {}).poison
  | .segment n => s.memPoison.contains (n.val * 2 ^ 23 + w)

/-- PATROL_SCRUB of a row: corrected words go to the write-back queue, an uncorrectable one is written as poison and its row
mapped; no context stops (R147, R149, R382). Accumulator buffers are not patrolled. -/
def patrolScrub (m : StoreRef) (row : Nat) (found : List (Nat × WordFlips)) (s : State) : State :=
  match m with
  | .accumulator _ _ _ => s
  | _ =>
    let words := (found.map (fun x => (64 * row + x.1 % 64, x.2))).filter (fun x => !(isPoisoned s m x.1 && wordFinds x.2 == some .uncorrectable))
    (badRows m words).foldl (fun s r => detect (clsUncorrectable m) (rowUnit s m r) {} s) (readWordsOf m words {} s)

def execPatrolScrub (m : StoreRef) (row : Nat) (found : List (Nat × WordFlips)) (s : State) : Out :=
  done s (patrolScrub m row found)

/-- ROW_MAP_COPY: the row's words are copied to a spare, poison as poison, and the remap table switches; its contents do not
change (R152). With no spare left the cluster is retired or the segment mapped out (R153). -/
def execRowMapCopy (m : StoreRef) (row : Nat) (cause : Byte) (s : State) : Out :=
  done s (fun s => plannedTakeover s (mapOnce 0x03 cause m row s))

/-! ### Zero scrub (R154, R157) -/

/-- GRANULE_SCRUB_DONE: the fenced granule has been written with zeros and becomes free (R157). -/
def granuleScrubDone (g : GranuleId) (s : State) : State :=
  if s.owner g.val = 0x41 then
    let s := ssClear s (g.val * granuleBytes) granuleBytes
    { s with
      owners := s.owners.drop g.val
      scrubs := s.scrubs.map (fun r => { r with granules := r.granules.filter (· ≠ g.val) }) }
  else s

def execGranuleScrubDone (g : GranuleId) (s : State) : Out := .next (granuleScrubDone g s)

/-- SCRUB_COMPLETE: the scrubs whose granules are all zeroed are reported to the host and the management network (R157). -/
def execScrubComplete (s : State) : Out :=
  let whole := s.scrubs.filter (fun r => r.granules.isEmpty)
  if whole.isEmpty then .next s
  else
    let s := { s with scrubs := s.scrubs.filter (fun r => !r.granules.isEmpty) }
    let s := whole.foldl (fun s r => note .scrubComplete r.ctx.val 0 s) s
    .next (raise 0 evScrub s)

end Sys2Proof.Machine
end

