-- ==== Sys2Proof/Machine/RingOps.lean ====
section
/-! DEFINITION. What the W96 writes into rings, and the interrupts that follow (R263, R271 to R274, R277, R279).
Rests on the log entries (notes/assumptions/<n>.md) 33 (DEDUCED), 37 (DEDUCED). -/
namespace Sys2Proof.Machine

/-- The address of the entry for an index (R263). -/
def Ring.slotAddr (r : Ring) (i : W32) (bytes : Nat) : W64 := r.base + BitVec.ofNat 64 (i.toNat % 2 ^ r.log2 * bytes)

/-- Entries between the consumer and the producer index. -/
def Ring.inUse (r : Ring) : Nat := (r.prod - r.cons).toNat

/-- Free entries. -/
def Ring.room (r : Ring) : Nat := 2 ^ r.log2 - r.inUse

/-- The vector of a ring raised for records not yet signalled, which count from 0 again (R277). -/
def Ring.raised (r : Ring) : Ring := { r with unsignalled := 0 }

/-- Whether records just written raise the vector (R277): at once, with no coalescing at all, or at COALESCE_COUNT. -/
def Ring.signals (r : Ring) (now : Bool) : Bool :=
  now || (r.coalCount == 0 && r.coalUs == 0) || (r.coalCount != 0 && decide (r.coalCount ≤ r.unsignalled))

/-- A record has been written to a ring with its write-back: its vector is raised, or it waits (R277). -/
def signalOne (now : Bool) (r : Ring) (s : State) : Ring × State :=
  let r := { r with unsignalled := r.unsignalled + 1 }
  match r.vector with
  | none => (r, s)
  | some v => if r.signals now then (r.raised, interrupt r.fn.val v s) else (r, s)

/-- n records have been written to a ring with one write-back: each of them raises its vector or waits (R277). -/
def signal (now : Bool) : Nat → Ring → State → Ring × State
  | 0, r, s => (r, s)
  | n + 1, r, s =>
    let (r, s) := signalOne now r s
    signal now n r s

/-- An index of a token ring has changed, or the ring has been created: STEPs that wait for its room are ready again (R269). -/
def wakeSteps (n : Nat) (s : State) : State :=
  { s with sq := s.sq.mapVal (fun _ q => if q.waitsFor.contains n then { q with waitsFor := [] } else q) }

/-! ### Token records (R225, R274) -/

/-- Token records written to a ring in order, with the write-back and the vector after the last. -/
def writeTokens (q : Nat) (recs : List TokenRec) (s : State) : State :=
  match s.tq.find q with
  | none => s
  | some r =>
    if recs.isEmpty then s
    else
      let s := recs.zipIdx.foldl (fun s (x, i) => emit r.fn.val (.token r.fn (r.slotAddr (r.prod + BitVec.ofNat 32 i) 32) x) s) s
      let r := { r with prod := r.prod + BitVec.ofNat 32 recs.length }
      let s := emit r.fn.val (.index r.fn r.wb r.prod) s
      let (r, s) := signal false recs.length r s
      wakeSteps q { s with tq := s.tq.put q r }

/-- Records held for a token ring, released while the ring has room and belongs to their context. -/
def releaseHeld (q : Nat) (s : State) : State :=
  match s.tq.find q with
  | none => s
  | some r =>
    let l := s.heldRecs.getD q []
    let mine := (l.filter (fun x => x.1 == r.ctx)).take r.room
    let rest := (l.filter (fun x => x.1 == r.ctx)).drop r.room ++ l.filter (fun x => x.1 != r.ctx)
    let s := { s with heldRecs := if rest.isEmpty then s.heldRecs.drop q else s.heldRecs.put q rest }
    mine.foldl (fun s x => writeTokens q [x.2] s) s

/-- A record outside a step (R274): it stands behind those that already wait, and is written at once where there is room. A secondary writes
no record (R452). -/
def tokenOutside (c : CtxId) (q : Nat) (x : TokenRec) (s : State) : State :=
  if isSecondary s then s
  else releaseHeld q { s with heldRecs := s.heldRecs.put q (s.heldRecs.getD q [] ++ [(c, x)]) }

/-- The step number that a record outside a step carries (R225). -/
def lastStepNo (s : State) (c : Nat) : W32 :=
  match s.ctx c with
  | some k => if k.begun = 0 then 0xFFFFFFFF else BitVec.ofNat 32 (k.begun - 1)
  | none => 0xFFFFFFFF

/-- A record without a token, outside a step. -/
def seqNotice (slot : Nat) (reason : Byte) (final : Bool) (s : State) : State :=
  match s.seqs.find slot with
  | none => s
  | some q =>
    if q.finalSent then s
    else
      let x : TokenRec :=
        { token := 0xFFFFFFFF, slot := BitVec.ofNat 16 slot, reason := reason, final := final, noToken := true
          index := BitVec.ofNat 32 q.generated, logprob := 0, hostTag := q.hostTag, step := lastStepNo s q.ctx.val }
      updSeq slot (fun q => { q with finalSent := final }) (tokenOutside q.ctx q.tokenRing.toNat x s)

/-! ### Completion records (R265, R271 to R273) -/

/-- A status halts the context (R272). -/
def halting (type status : Byte) : Bool :=
  let n := status.toNat
  (1 ≤ n && n ≤ 0x0A) || n == 0x11 || n == 0x16 || (n == 0x15 && type == 0x01)

/-- The 128 bytes of a completion record (R271). -/
def Completion.bytes (c : Completion) : List Byte :=
  let k := c.counts
  leBytes 4 c.tag.toNat ++ [c.status, c.type, BitVec.ofNat 8 ((if c.zero then 1 else 0) + if c.phase then 128 else 0), c.ctx, c.ring, 0]
    ++ leBytes 2 c.index.toNat ++ leBytes 4 c.result.toNat ++ leBytes 8 c.time.toNat
    ++ ([c.op.toNat, c.zeroOps.toNat, c.rows.toNat, k.convSat, k.accOverflow, k.nanCreated, k.nanDropped, k.intSat, k.checkSkipped, k.accessDenied
      , k.seqDeferred, k.pagesSealed, k.attnConsidered, k.attnFetched, k.attnBoundMax.toNat, k.summaryMiss, k.noToken
      , k.routeEntries, k.routeOverflow, k.indexDropped, k.tilesBitmap, k.tilesDense, k.auditSampled, k.auditMisses, k.auditMassLost.toNat
      , k.auditChanges].flatMap (leBytes 4))

/-- What a completion record says beyond its header. -/
structure DescEnd where
  status  : Byte := 0
  zero    : Bool := false
  result  : W32 := 0
  op      : W32 := 0xFFFFFFFF
  zeroOps : Nat := 0
  rows    : Nat := 0
  counts  : Counts := {}
  deriving DecidableEq, Repr

/-- A descriptor completes: its record is written as one write, then the write-back and any interrupt, and a halting status
halts the context (R271, R273, R279). A ring that no longer exists has its record discarded (R281). -/
def completeDesc (sub : Nat) (index tag : W32) (type : Byte) (irqNow : Bool) (x : DescEnd) (s : State) : State :=
  match s.sq.find sub with
  | none => s
  | some q =>
    let s := match s.cq.find q.compRing with
      | none => s
      | some r =>
        let rec_ : Completion :=
          { tag := tag, status := x.status, type := type, zero := x.zero
            phase := (r.prod.toNat / 2 ^ r.log2 + 1) % 2 = 1, ctx := BitVec.ofNat 8 q.ctx.val, ring := BitVec.ofNat 8 sub
            index := index.setWidth 16, result := x.result, time := dieNow s hostDie, op := x.op, zeroOps := BitVec.ofNat 32 x.zeroOps
            rows := BitVec.ofNat 32 x.rows, counts := x.counts }
        let s := emit r.fn.val (.completion r.fn (r.slotAddr r.prod 128) rec_) s
        let r := { r with prod := r.prod + 1, reserved := r.reserved - 1 }
        let s := emit r.fn.val (.index r.fn r.wb r.prod) s
        let (r, s) := signal irqNow 1 r s
        { s with cq := s.cq.put q.compRing r }
    let s := { s with sq := s.sq.modify sub (fun q => { q with begun := none }) }
    let s := updCtx q.ctx.val (fun k => { k with descDone := satAdd k.descDone 1 }) s
    if halting type x.status then haltCtx q.ctx.val s else s

end Sys2Proof.Machine
end

