-- ==== Sys2Proof/Machine/Pages.lean ====
section
/-! DEFINITION. KV pages in DIMM memory and the sequences that hold them: geometry, the pool-block map, allocation, reading and
writing, and the loss of pages (R195, R196, R199 to R204, R311, R313, R317 to R319, R447).
Rests on the log entries (notes/assumptions/<n>.md) 41 (DESIGN CHOICE). -/
namespace Sys2Proof.Machine

/-! ### Geometry (R195, R199, R317) -/

def KvConfig.groups (c : KvConfig) : Nat := (c.heads + c.perPage - 1) / c.perPage
def KvConfig.slotBytes (c : KvConfig) : Nat := if c.fp8 then 16384 else 8704
def KvConfig.stride (c : KvConfig) : Nat := padTo 4096 (c.slotBytes * c.perPage)
/-- Pages in a pool block. -/
def KvConfig.perBlock (c : KvConfig) : Nat := 2097152 / (c.stride + 1024)
def KvConfig.blocks (c : KvConfig) : Nat := (c.pool + c.perBlock - 1) / c.perBlock
/-- Format and scale kind of an element. -/
def KvConfig.code (c : KvConfig) : Nat := if c.fp8 then 3 else 9
def KvConfig.scale (c : KvConfig) : Nat := if c.fp8 then 0 else 2

/-- The DIMM address of a frame. -/
def Place.addr (p : Place) : Nat := p.chan * 2 ^ 38 + p.frame * 2 ^ 21

/-- The block and index of a pool page, where its block has a place. -/
def pagePlace (k : Context) (page : Nat) : Option (Place × Nat × KvConfig) :=
  match k.kv with
  | none => none
  | some c => (k.pool.find (page / c.perBlock)).map (fun p => (p, page % c.perBlock, c))

def pageAddr (k : Context) (page : Nat) : Option Nat := (pagePlace k page).map (fun (p, j, c) => p.addr + j * c.stride)
def summaryAddr (k : Context) (page : Nat) : Option Nat :=
  (pagePlace k page).map (fun (p, j, c) => p.addr + c.perBlock * c.stride + j * 1024)

/-- The directory index of a layer, group and position block of a sequence (R201). -/
def Seq.entry (q : Seq) (c : KvConfig) (layer group block : Nat) : Nat := q.dirBase + (layer * c.groups + group) * q.dirSpan + block

/-- Directory entries that a sequence holds (R202). -/
def Seq.run (q : Seq) (c : KvConfig) : Nat := c.layers * c.groups * q.dirSpan

/-! ### DIMM bytes (R311, R317) -/

def State.dimmRead (s : State) (a n : Nat) : List Byte := Memory.readN s.dimm a n

/-- Bytes written to a DIMM: a burst written whole is a sound codeword again. -/
def dimmWrite (a : Nat) (bs : List Byte) (s : State) : State :=
  { s with dimm := Memory.writeN s.dimm a bs
           dimmBad := s.dimmBad.filter (fun w => !coversWord a bs.length w) }

/-- A range of a DIMM zero-filled (R320). -/
def dimmClear (a n : Nat) (s : State) : State :=
  { s with dimm := Memory.clear s.dimm a n, dimmBad := s.dimmBad.filter (fun w => !touchesWord a n w) }

/-- A range of a DIMM reads: its channel serves, and no burst of it is uncorrectable. -/
def dimmReads (s : State) (a n : Nat) : Bool :=
  (decide ((s.chan (a / 2 ^ 38)).state = .inService) || decide ((s.chan (a / 2 ^ 38)).state = .takingOut))
    && !s.dimmBad.any (touchesWord a n)

/-! ### Allocation (R203, R204, R318) -/

/-- Channels that may take pages, in rotation from the one after a channel. -/
def rotationFrom (s : State) (last : Option Nat) : List Nat :=
  let l := chansInService s
  match last with
  | none => l
  | some c => l.filter (fun x => decide (c < x)) ++ l.filter (fun x => decide (x ≤ c))

/-- The lowest-numbered free page of a context on a channel. -/
def freePageOn (k : Context) (chan : Nat) : Option Nat :=
  match k.kv with
  | none => none
  | some c => (List.range c.pool).find? (fun p =>
      (match k.pool.find (p / c.perBlock) with
        | some pl => pl.chan == chan
        | none => false) && !k.used.has p && !k.returning.contains p)

/-- A page taken for a directory entry (R318): the context with the page in use and its rotation moved on. -/
def allocPage (s : State) (k : Context) (entry : Nat) : Option (Nat × Context) :=
  (rotationFrom s k.rotation).findSome? (fun c =>
    (freePageOn k c).map (fun p => (p, { k with used := k.used.put p ⟨entry⟩, rotation := some c })))

/-- Pages taken for several entries, all or none. -/
def allocPages (s : State) (k : Context) : List Nat → Option (List (Nat × Nat) × Context)
  | [] => some ([], k)
  | e :: l =>
    match allocPage s k e with
    | none => none
    | some (p, k) => (allocPages s k l).map (fun (ps, k) => ((e, p) :: ps, k))

/-- Pages leave use: those that a snapshot pass copies return to the pool only when it ends (R204). -/
def Context.giveUp (pages : List Nat) (k : Context) : Context :=
  { k with used := k.used.filter (fun e => !pages.contains e.1), returning := k.returning ++ pages.filter k.copying.contains }

/-- Directory entries set invalid and their pages returned to the pool. -/
def freeEntries (c : Nat) (es : List Nat) (s : State) : State :=
  let pages := es.filterMap (fun e => (s.dir.find e).map (·.page))
  updCtx c (Context.giveUp pages)
    { s with dir := s.dir.filter (fun e => !es.contains e.1) }

/-- Valid entries of a sequence. -/
def seqEntries (s : State) (q : Seq) : List Nat :=
  match (s.ctx q.ctx.val).bind (·.kv) with
  | none => []
  | some c => (s.dir.filter (fun e => decide (q.dirBase ≤ e.1) && decide (e.1 < q.dirBase + q.run c))).map (·.1)

/-- A sequence's slot is freed: its pages return and its directory run is released (R196, R202, R204). -/
def freeSeq (slot : Nat) (s : State) : State :=
  match s.seqs.find slot with
  | none => s
  | some q =>
    updCtx q.ctx.val (fun k => if k.securing = .notSecured then k else { k with freedSlots := k.freedSlots ++ [slot], changed := true })
      { freeEntries q.ctx.val (seqEntries s q) s with seqs := s.seqs.drop slot }

/-! ### Loss (R196, R224, R447) -/

/-- The sequence that holds a directory entry. -/
def holderOf (s : State) (c entry : Nat) : Option Nat :=
  match (s.ctx c).bind (·.kv) with
  | none => none
  | some k => (s.seqs.find? (fun e => e.2.ctx.val == c && decide (e.2.dirBase ≤ entry) && decide (entry < e.2.dirBase + e.2.run k))).map (·.1)

/-- Objects of the copy traffic (R432). -/
def objRow : Byte := 0x00
def objPage : Byte := 0x01
def objSummary : Byte := 0x02
def objSeq : Byte := 0x03

/-- A page, its summary and its sequence's entry asked back from the partner (R447). -/
def askPage (c slot page : Nat) (s : State) : State :=
  let bytes := ((s.ctx c).bind (·.kv)).elim 0 KvConfig.stride
  sendFrame (.copyReq (BitVec.ofNat 8 c) objSeq (BitVec.ofNat 64 slot) 64) <| sendFrame (.copyReq (BitVec.ofNat 8 c) objSummary (BitVec.ofNat 64 page) 1024)
    (sendFrame (.copyReq (BitVec.ofNat 8 c) objPage (BitVec.ofNat 64 (page * 65536)) (BitVec.ofNat 64 bytes)) s)

/-- A page of a context is lost: its sequence becomes LOST, with a record, or, where the context is secured, the page is asked
back from the partner, and the sequence keeps its state. Its copy goes into a free page, or with none free into the page itself. -/
def losePage (c page : Nat) (s : State) : State :=
  match s.ctx c with
  | none => s
  | some k =>
    match k.used.find page with
    | none => s
    | some u =>
      match holderOf s c u.entry with
      | none => s
      | some slot =>
        let lost (s : State) : State :=
          match s.seqs.find slot with
          | none => s
          | some q => if q.state = .lost then s else updSeq slot (fun q => { q with state := .lost, stopReason := 0x04 }) (seqNotice slot 0x04 true s)
        if k.securing = .secured && s.pair.formed then
          let (p, k) := (allocPage s { k with used := k.used.drop page } u.entry).getD (page, k)
          askPage c slot page { s with
            ctxs := s.ctxs.put c { k with pagesDue := k.pagesDue.put page u.entry }
            dir := s.dir.modify u.entry (fun d => { d with page := p }) }
        else lost s

/-- Pages in use of every context on a channel. -/
def pagesOn (s : State) (chan : Nat) : List (Nat × Nat) :=
  s.ctxs.flatMap (fun (c, k) => (k.used.filter (fun u =>
    match pagePlace k u.1 with
    | some (p, _, _) => p.chan == chan
    | none => false)).map (fun u => (c, u.1)))

/-- The page that holds a DIMM address. -/
def pageAt (s : State) (a : Nat) : Option (Nat × Nat) :=
  (pagesOn s (a / 2 ^ 38)).find? (fun (c, p) =>
    match (s.ctx c).bind (fun k => (pageAddr k p).bind (fun x => (summaryAddr k p).bind (fun y => k.kv.map (fun g => (x, y, g.stride))))) with
    | some (x, y, n) => (decide (x ≤ a) && decide (a < x + n)) || (decide (y ≤ a) && decide (a < y + 1024))
    | none => false)

/-! ### Error correction (R311, R312) -/

/-- The chart unit of a channel (R25). -/
def chanUnit (c : Nat) : UnitRef := bareUnit 0x0A (c / 12) (c % 12)

/-- What the decoder makes of a burst: delivered as it is, corrected, with the devices whose symbols it corrects, or uncorrectable. The eight
symbols of a marked device are erasures and do not count; of the others it corrects 8, with a device marked 4. The symbols of device d are
8 d to 8 d + 7, and errors beyond what R311 says are corrected are uncorrectable (DESIGN CHOICE:
notes/assumptions/41.md). -/
inductive BurstRead where
  | clean
  | corrected (devices : List Nat)
  | uncorrectable
  deriving DecidableEq, Repr

def burstRead (marks : List Nat) : BurstFinding → BurstRead
  | .clean => .clean
  | .errors sub l =>
    let wrong := (l.map (fun x => (x.val, sub.val * 16 + x.val / 8))).eraseDups.filter (fun x => !marks.contains x.2)
    let erased := count marks (fun d => d / 16 == sub.val)
    if wrong.isEmpty then .clean
    else if wrong.length ≤ (16 - 8 * erased) / 2 then .corrected (wrong.map (·.2)).eraseDups
    else .uncorrectable

/-- A device has given a correctable error in a burst: it is remembered for 24 h, and sixteen distinct bursts have the device tested (R312). -/
def deviceCorrected (ch a device : Nat) (s : State) : State :=
  let recent := ((s.chan ch).repeats.getD device []).filter (fun x => decide (s.since x.2 < msTicks 86400000) && x.1 != a / 64)
  let l := recent ++ [(a / 64, s.now)]
  let s := updChan ch (fun r => { r with repeats := if l.length < 16 then r.repeats.put device l else r.repeats.drop device }) s
  if l.length < 16 then s else detect 0x08 { chanUnit ch with c := BitVec.ofNat 32 device } {} s

/-- A burst of a channel is read: a correctable error is counted and written back, an uncorrectable one stands (R311 to R313). -/
def readBurst (a : Nat) (f : BurstFinding) (s : State) : State :=
  let ch := a / 2 ^ 38
  match burstRead (s.chan ch).marks f with
  | .clean => s
  | .corrected ds => ds.foldl (fun s d => deviceCorrected ch a d s) (updChan ch (fun r => { r with ce := satAdd r.ce 1 }) s)
  | .uncorrectable => { s with dimmBad := if s.dimmBad.contains (a / 64) then s.dimmBad else s.dimmBad ++ [a / 64] }

/-- Every page in use on a channel is lost, and the channel's blocks leave their pools (R50, R323). -/
def loseChannel (chan : Nat) (s : State) : State :=
  let ps := pagesOn s chan
  let s := updChan chan (fun r => { r with lostPages := r.lostPages + ps.length }) (ps.foldl (fun s (c, p) => losePage c p s) s)
  repairsDone chan { s with ctxs := s.ctxs.mapVal (fun _ k =>
      let gone := k.pool.filter (fun e => e.2.chan == chan)
      { k with pool := k.pool.filter (fun e => e.2.chan != chan), shortfall := k.shortfall + gone.length }) }

/-- An uncorrectable read of a page that no operation made: its channel counts it, and the page is lost (R313). -/
def pageFails (c page : Nat) (s : State) : State :=
  match (s.ctx c).bind (fun k => pagePlace k page) with
  | none => s
  | some (pl, _, _) =>
    losePage c page (detect 0x09 (bareUnit 0x0A (pl.chan / 12) (pl.chan % 12)) {} (updChan pl.chan (fun r => { r with ue := satAdd r.ue 1 }) s))

/-- A page's data, or its summary, can be read. -/
def dataReads (s : State) (k : Context) (page : Nat) : Bool :=
  match pageAddr k page, k.kv with
  | some a, some g => dimmReads s a g.stride
  | _, _ => false
def summaryReads (s : State) (k : Context) (page : Nat) : Bool := (summaryAddr k page).any (fun a => dimmReads s a 1024)

/-- An uncorrectable read of a page: its channel counts it, the page is lost, and the operation of a partition's step fails
(R217, R313). -/
def pageUnreadable (p c page : Nat) (s : State) : State :=
  match (s.ctx c).bind (fun k => pagePlace k page) with
  | none => failStep stMemory p s
  | some (pl, _, _) =>
    let s := updChan pl.chan (fun r => { r with ue := satAdd r.ue 1 }) s
    losePage c page (stepError 0x09 (bareUnit 0x0A (pl.chan / 12) (pl.chan % 12)) p s)

end Sys2Proof.Machine
end

