-- ==== Sys2Proof/Machine/Tensor.lean ====
section
/-! DEFINITION. Descriptors of operations, how tensors lie in the shared store, and how an operation reads, checks and writes
(R155, R161 to R173, R182, R244 to R248, R522).
Rests on the log entries (notes/assumptions/<n>.md) 14 (DESIGN CHOICE), 16 (DESIGN CHOICE), 32 (DEDUCED), 58 (DESIGN CHOICE). -/
namespace Sys2Proof.Machine

/-! ### Descriptors (R162, R165) -/

/-- A field of a word. -/
def field (w : Nat) (hi lo : Nat) : Nat := w / 2 ^ lo % 2 ^ (hi + 1 - lo)

/-- An operation descriptor from its 64 bytes, the step's row and sequence counts put in place of the special values of
DIM_M (R162, R165). -/
def decodeDesc (rows seqs : Nat) (bs : List Byte) : OpDesc :=
  let w (i : Nat) : Nat := leNat ((bs.drop (4 * i)).take 4)
  let b (k : Nat) : W32 := BitVec.ofNat 32 (w k)
  let m := w 4
  { opcode := BitVec.ofNat 8 (w 0), phase := BitVec.ofNat 8 (field (w 0) 15 8), split := BitVec.ofNat 8 (field (w 0) 23 16)
    flags := BitVec.ofNat 8 (field (w 0) 31 24)
    fmtA := BitVec.ofNat 4 (field (w 1) 3 0), scaleA := BitVec.ofNat 2 (field (w 1) 5 4)
    fmtB := BitVec.ofNat 4 (field (w 1) 9 6), scaleB := BitVec.ofNat 2 (field (w 1) 11 10)
    fmtD := BitVec.ofNat 4 (field (w 1) 15 12), scaleD := BitVec.ofNat 2 (field (w 1) 17 16)
    round := BitVec.ofNat 2 (field (w 1) 19 18), tau := BitVec.ofNat 4 (field (w 1) 23 20), eps := BitVec.ofNat 8 (field (w 1) 31 24)
    layA := BitVec.ofNat 8 (w 2), layB := BitVec.ofNat 8 (field (w 2) 15 8), layD := BitVec.ofNat 8 (field (w 2) 23 16)
    layX := BitVec.ofNat 8 (field (w 2) 31 24)
    seed := b 3
    m := if m = 0xFFFFFFFF then rows else if m = 0xFFFFFFFE then seqs else m
    n := w 5, k := w 6, g := w 7
    addrA := b 8, addrB := b 9, addrD := b 10, addrX := b 11, p0 := b 12, p1 := b 13, p2 := b 14, p3 := b 15
    rawM := BitVec.ofNat 32 m }

/-- A flag of FLAGS (R165). -/
def OpDesc.flag (d : OpDesc) (n : Nat) : Bool := bit d.flags n
def OpDesc.transA (d : OpDesc) : Bool := d.flag 0
def OpDesc.transB (d : OpDesc) : Bool := d.flag 1
def OpDesc.accAdd (d : OpDesc) : Bool := d.flag 2
def OpDesc.compress (d : OpDesc) : Bool := d.flag 3
def OpDesc.saveStats (d : OpDesc) : Bool := d.flag 4
def OpDesc.nosat (d : OpDesc) : Bool := d.flag 5
/-- HOLD_ACC and ACC_IN, which MATMUL alone has (R166, R178). -/
def OpDesc.holdAcc (d : OpDesc) : Bool := d.opcode == 0x02 && d.flag 6
def OpDesc.accIn (d : OpDesc) : Bool := d.opcode == 0x02 && d.flag 7
def OpDesc.stochastic (d : OpDesc) : Bool := d.round = 1
/-- The kernel number of a VKERNEL. -/
def OpDesc.kernel (d : OpDesc) : Nat := d.p0.toNat % 65536

/-- The byte address of an address word (R165). -/
def wordAddr (w : W32) : Nat := w.toNat % 2 ^ 30 * 64

/-! ### Where tensors lie (R169, R170) -/

/-- First item of part i of T items in P parts (R169). -/
def partStart (i total parts : Nat) : Nat := i * total / parts
/-- The part that holds item x. -/
def partOfItem (x total parts : Nat) : Nat := ((x + 1) * parts - 1) / total
def ceilDiv (a b : Nat) : Nat := (a + b - 1) / b

/-- A tensor operand. -/
structure Tens where
  addr   : Nat
  lay    : Nat := 0
  code   : Nat
  scale  : Nat := 0
  rows   : Nat
  cols   : Nat
  weight : Bool := false
  deriving DecidableEq, Repr

def Tens.tileRowsMax (t : Tens) : Nat := if t.weight then 128 else 64
def Tens.rowTiles (t : Tens) : Nat := ceilDiv t.rows t.tileRowsMax
def Tens.colTiles (t : Tens) : Nat := ceilDiv t.cols 64
/-- Bytes of a tile's slot. -/
def Tens.slot (t : Tens) : Nat := if t.weight then weightTileBytes t.code t.scale else rowTileBytes t.code t.scale 64 64

/-- The partition index and the place in its row-major run of tile (r, c) in a striped layout (R170). -/
def tilePlace (lay parts rt ct r c : Nat) : Nat × Nat :=
  match lay with
  | 1 =>
    let i := partOfItem r rt parts
    (i, (r - partStart i rt parts) * ct + c)
  | 2 =>
    let i := partOfItem c ct parts
    (i, r * (partStart (i + 1) ct parts - partStart i ct parts) + (c - partStart i ct parts))
  | 3 =>
    let pm := parts / 12
    let g := partOfItem r rt pm
    let j := partOfItem c ct 12
    (12 * g + j, (r - partStart g rt pm) * (partStart (j + 1) ct 12 - partStart j ct 12) + (c - partStart j ct 12))
  | _ =>
    let x := r * ct + c
    let i := partOfItem x (rt * ct) parts
    (i, x - partStart i (rt * ct) parts)

/-- The byte address of tile (r, c) (R170), on a partition with the given logical clusters. -/
def Tens.tileAddr (cl : List Nat) (t : Tens) (r c : Nat) : Nat :=
  if t.lay = 0 then t.addr + (r * t.colTiles + c) * t.slot
  else
    let (i, k) := tilePlace t.lay cl.length t.rowTiles t.colTiles r c
    cl.getD i 0 * segmentBytes + t.addr + k * t.slot

/-- The tiles of a tensor in row-major order. -/
def Tens.tiles (t : Tens) : List (Nat × Nat) :=
  (List.range t.rowTiles).flatMap (fun r => (List.range t.colTiles).map (fun c => (r, c)))

/-- An address range. -/
structure Ext where
  addr : Nat
  len  : Nat
  deriving DecidableEq, Repr

/-- Elements of a row of column tile c that lie in the shape. -/
def Tens.liveCols (t : Tens) (c : Nat) : Nat := min 64 (t.cols - 64 * c)

/-- n stored rows of row bytes rb from an address, of which the first elements are read. -/
def rowExts (a rb n bytes : Nat) : List Ext := if bytes = rb then [⟨a, n * rb⟩] else (List.range n).map (fun i => ⟨a + rb * i, bytes⟩)

/-- The part of a slot in bitmap form that is read: header, bitmap and payload (R248). -/
def bitmapExt (s : State) (a w : Nat) : Ext :=
  let map := leNat (s.ssRead (a + 0x40) 512)
  ⟨a, min (512 * w) (0x240 + (w * count (List.range 4096) (fun i => map.testBit i) + 7) / 8)⟩

/-- The ranges read for n stored rows of a tile of elements, from row k: the elements in the shape and their scales, no padding (R173); of a slot in
bitmap form all that it is expanded from (R248). -/
def Tens.tileReads (s : State) (cl : List Nat) (t : Tens) (r c k n : Nat) : List Ext :=
  let w := fmtWidth t.code
  let a := t.tileAddr cl r c
  let live := t.liveCols c
  (if s.memForms.contains (a / 64) then [bitmapExt s a w] else rowExts (a + 8 * w * k) (8 * w) n ((live * w + 7) / 8))
    ++ (if t.scale = 0 then [] else rowExts (a + 512 * w + 2 * k) 2 n (ceilDiv live 32))

/-- The ranges read of a weight tile: the elements and the scales in the shape, or the codebook (R76, R173). -/
def Tens.weightReads (cl : List Nat) (t : Tens) (r c : Nat) : List Ext :=
  let w := fmtWidth t.code
  let a := t.tileAddr cl r c
  let side := a + 1024 * w
  let ks := min 128 (t.rows - 128 * r)
  let live := t.liveCols c
  rowExts a (8 * w) ks ((live * w + 7) / 8)
    ++ (if isCodebook t.code then [⟨side, if w = 3 then 8 else 16⟩]
        else if t.scale = 0 then []
        else (List.range (ceilDiv ks 32)).map (fun b => ⟨side + 64 * b, live⟩))

/-- The ranges an operation reads of a tensor (R173). -/
def Tens.reads (s : State) (cl : List Nat) (t : Tens) : List Ext :=
  t.tiles.flatMap (fun (r, c) => if t.weight then t.weightReads cl r c else t.tileReads s cl r c 0 (min 64 (t.rows - 64 * r)))

/-- The ranges read for one row. -/
def Tens.rowReads (s : State) (cl : List Nat) (t : Tens) (r : Nat) : List Ext :=
  (List.range t.colTiles).flatMap (fun c => t.tileReads s cl (r / 64) c (r % 64) 1)

/-- Whether a tensor's place breaks R135 or R167: a flat one past segment 99, a striped one with an address of a segment or
a slice past its segment's end. -/
def Tens.badAddr (cl : List Nat) (t : Tens) : Bool :=
  if t.lay = 0 then decide (t.addr ≥ 100 * segmentBytes) || decide (t.addr + t.rowTiles * t.colTiles * t.slot > 100 * segmentBytes)
  else
    decide (t.addr ≥ segmentBytes) ||
      t.tiles.any (fun (r, c) =>
        let (_, k) := tilePlace t.lay cl.length t.rowTiles t.colTiles r c
        decide (t.addr + (k + 1) * t.slot > segmentBytes))

/-- A flat range past segment 99. -/
def flatBad (a n : Nat) : Bool := decide (a ≥ 100 * segmentBytes) || decide (a + n > 100 * segmentBytes)

/-! ### Reading (R173, R248) -/

/-- The bytes of stored row k of a tile slot of elements, either form (R248). -/
def slotRow (s : State) (a w k : Nat) : List Byte :=
  if s.memForms.contains (a / 64) then ((tileRows s a w).drop (8 * w * k)).take (8 * w) else s.ssRead (a + 8 * w * k) (8 * w)

/-- Row r of a tensor of elements: its values, scales applied. -/
def Tens.row (s : State) (cl : List Nat) (t : Tens) (r : Nat) : List Num :=
  let w := fmtWidth t.code
  ((List.range t.colTiles).flatMap (fun c =>
    let a := t.tileAddr cl (r / 64) c
    let es := unpackRow w 64 (slotRow s a w (r % 64))
    if t.scale = 0 then es.map (decodeBits t.code ·)
    else
      let sc := s.ssRead (a + 512 * w + 2 * (r % 64)) 2
      es.zipIdx.map (fun (e, n) => elemValue t.code t.scale e (sc.getD (n / 32) 0)))).take t.cols

/-- All rows. -/
def Tens.all (s : State) (cl : List Nat) (t : Tens) : List (List Num) := (List.range t.rows).map (t.row s cl)

/-- The K × N values of a grid of weight tiles, row by row along K. -/
def Tens.weights (s : State) (cl : List Nat) (t : Tens) : List (List Num) :=
  ((List.range t.rowTiles).flatMap (fun r =>
    let tiles := (List.range t.colTiles).map (fun c => weightTileValues s.ssRead (t.tileAddr cl r c) t.code t.scale)
    (List.range 128).map (fun k => (tiles.flatMap (fun x => x.getD k [])).take t.cols))).take t.rows

/-- A matrix turned over: n columns. -/
def transpose (n : Nat) (m : List (List Num)) : List (List Num) := (List.range n).map (column m)

/-- A list of 32-bit words from an address. -/
def readWords (s : State) (a n : Nat) : List W32 :=
  (List.range n).map (fun i => BitVec.ofNat 32 (leNat (s.ssRead (a + 4 * i) 4)))

/-! ### Writing (R71 to R87, R173, R182, R244 to R247) -/

/-- A write of an operation; tag: the first word's form tag is set (R245). -/
structure Wr where
  addr  : Nat
  bytes : List Byte
  tag   : Bool := false
  deriving DecidableEq, Repr

/-- A list padded to a length. -/
def padList {α : Type} (n : Nat) (x : α) (l : List α) : List α := l ++ List.replicate (n - l.length) x

/-- How an operation converts its results. -/
structure ConvCtl where
  stochastic : Bool := false
  nosat      : Bool := false
  seed       : W32 := 0
  compress   : Bool := false
  deriving DecidableEq, Repr

def OpDesc.ctl (d : OpDesc) : ConvCtl := ⟨d.stochastic, d.nosat, d.seed, d.compress⟩

/-- A tile's slot written dense, or in bitmap form where that is smaller (R246, R247): the row elements and the side area. -/
def tileWrites (code scale : Nat) (compress : Bool) (a : Nat) (rows : List (List Nat)) (side : List Byte) : List Wr × Bool :=
  let w := fmtWidth code
  let es := rows.flatten
  let n := count es (· ≠ 0)
  let sideW : List Wr := if side.isEmpty then [] else [⟨a + 512 * w, padList 128 0 side, false⟩]
  if compress && decide (576 + 64 * ceilDiv (n * w) 512 < 512 * w) then
    let live := es.filter (· ≠ 0)
    let map := es.foldr (fun e m => (if e ≠ 0 then 1 else 0) + 2 * m) 0
    let pay := packRow w live
    let head := leBytes 1 1 ++ leBytes 1 (code + 16 * scale) ++ leBytes 2 0 ++ leBytes 4 n ++ leBytes 4 ((n * w + 7) / 8) ++ leBytes 52 0
    (⟨a, head ++ leBytes 512 map ++ padList (padTo 64 pay.length) 0 pay, true⟩ :: sideW, true)
  else (⟨a, packRow w es, false⟩ :: sideW, false)

/-- A tensor written from its rows of exact values: each tile converted, padding zero, elements numbered from base by their
row-major index in the unpadded shape (R173, R182); a row kept is written as it is given, and counts nothing. -/
def storeKeeping (cl : List Nat) (t : Tens) (c : ConvCtl) (base : Nat) (keep : Nat → Nat → Option ConvRow) (vals : List (List Num)) : List Wr × Counts :=
  t.tiles.foldl (fun (ws, k) (r, col) =>
    let cvs := (List.range 64).map (fun i =>
      let m := 64 * r + i
      if m < t.rows then
        (keep m col).getD <| convertRow t.code t.scale c.stochastic c.nosat c.seed (base + m * t.cols + 64 * col)
          (padList 64 .zero (((vals.getD m []).drop (64 * col)).take 64))
      else { elems := List.replicate 64 0, scales := if t.scale = 0 then [] else [0, 0] })
    let (w, compact) := tileWrites t.code t.scale c.compress (t.tileAddr cl r col) (cvs.map (·.elems)) (cvs.flatMap (·.scales))
    (ws ++ w, { addConv (cvs.foldl (fun n x => n + x.sat) 0) (cvs.foldl (fun n x => n + x.dropped) 0) k with
      tilesBitmap := if c.compress && compact then satAdd k.tilesBitmap 1 else k.tilesBitmap
      tilesDense := if c.compress && !compact then satAdd k.tilesDense 1 else k.tilesDense })) ([], {})

/-- A tensor all of whose rows are written. -/
def storeTensor (cl : List Nat) (t : Tens) (c : ConvCtl) (base : Nat) (vals : List (List Num)) : List Wr × Counts :=
  storeKeeping cl t c base (fun _ _ => none) vals

/-- Row r of column tile c as it is stored, its padding zero. -/
def Tens.rawRow (s : State) (cl : List Nat) (t : Tens) (r c : Nat) : ConvRow :=
  let w := fmtWidth t.code
  let a := t.tileAddr cl (r / 64) c
  { elems := padList 64 0 ((unpackRow w 64 (slotRow s a w (r % 64))).take (t.liveCols c))
    scales := if t.scale = 0 then [] else padList 2 0 ((s.ssRead (a + 512 * w + 2 * (r % 64)) 2).take (ceilDiv (t.liveCols c) 32)) }

/-- The sum of two steps' counts. -/
def Counts.add (a b : Counts) : Counts :=
  { convSat := satAdd a.convSat b.convSat, accOverflow := satAdd a.accOverflow b.accOverflow
    nanCreated := satAdd a.nanCreated b.nanCreated, nanDropped := satAdd a.nanDropped b.nanDropped
    intSat := satAdd a.intSat b.intSat, checkSkipped := satAdd a.checkSkipped b.checkSkipped
    accessDenied := satAdd a.accessDenied b.accessDenied, seqDeferred := satAdd a.seqDeferred b.seqDeferred
    pagesSealed := satAdd a.pagesSealed b.pagesSealed, attnConsidered := satAdd a.attnConsidered b.attnConsidered
    attnFetched := satAdd a.attnFetched b.attnFetched
    attnBoundMax := if (ofF32 a.attnBoundMax).lt (ofF32 b.attnBoundMax) then b.attnBoundMax else a.attnBoundMax
    summaryMiss := satAdd a.summaryMiss b.summaryMiss, noToken := satAdd a.noToken b.noToken
    routeEntries := satAdd a.routeEntries b.routeEntries, routeOverflow := satAdd a.routeOverflow b.routeOverflow
    indexDropped := satAdd a.indexDropped b.indexDropped, tilesBitmap := satAdd a.tilesBitmap b.tilesBitmap
    tilesDense := satAdd a.tilesDense b.tilesDense, auditSampled := satAdd a.auditSampled b.auditSampled
    auditMisses := satAdd a.auditMisses b.auditMisses
    auditMassLost := if (ofF32 a.auditMassLost).lt (ofF32 b.auditMassLost) then b.auditMassLost else a.auditMassLost
    auditChanges := satAdd a.auditChanges b.auditChanges }

/-! ### Performing an operation -/

/-- The kind of a product: class, INT32 accumulation, tolerances, and the formats of its operands. -/
structure ProdKind where
  cls    : PairClass
  int32  : Bool
  tau    : Nat
  eps    : Nat
  left   : Nat × Nat := (0, 0)
  bcast  : Nat × Nat := (0, 0)
  deriving DecidableEq, Repr

/-- The product of a left and a broadcast operand, each with its format code and scale. -/
def prodOf (left bcast : Nat × Nat) (tau eps : Nat) : ProdKind :=
  ⟨pairClass left.1 left.2 bcast.1 bcast.2, pairInt32 left.1 left.2 bcast.1 bcast.2, tau, eps, left, bcast⟩

/-- The product of A and B as their fields give them. -/
def OpDesc.prodKind (d : OpDesc) : ProdKind :=
  prodOf (d.fmtA.toNat, d.scaleA.toNat) (d.fmtB.toNat, d.scaleB.toNat) d.tau.toNat d.eps.toNat

/-- What the drain saw of a row whose verdict was a mismatch (R108, R111). -/
structure Miss where
  diff    : Num
  bound   : Num
  results : List W32
  kLen    : Nat
  deriving DecidableEq, Repr

/-- A row of an operation whose verdict was a mismatch: the partition index of its cluster, its M-core, array and place in the pass. -/
structure RowMiss where
  index : Nat
  core  : Nat
  array : Nat
  row   : Nat
  os    : Bool
  kind  : ProdKind
  miss  : Miss
  deriving DecidableEq, Repr

/-- The array that holds row x of the rows that an M-core deals to its four (R172, R525), and the row's place in that array's passes of at most
some rows. -/
def dealt (x rows most : Nat) : Nat × Nat :=
  let a := partOfItem x rows 4
  (a, (x - partStart a rows 4) % most)

/-- The failing rows among verdicts of one place: row x of the rows that the M-core deals. -/
def missesAt (place : Nat × Nat) (x rows : Nat) (os : Bool) (k : ProdKind) (l : List Miss) : List RowMiss :=
  let (a, r) := dealt x rows (if os then 128 else 2048)
  l.map (fun m => ⟨place.1, place.2, a, r, os, k, m⟩)

/-- Comparisons of a cluster, by partition index: made, and not made (R399). -/
structure Checked where
  index   : Nat
  made    : Nat
  skipped : Nat
  deriving DecidableEq, Repr

/-- What an operation does: the ranges it reads, what it writes, what it counts, its comparisons, and the rows whose verdict was a mismatch. -/
structure Work where
  reads  : List Ext := []
  writes : List Wr := []
  counts : Counts := {}
  checks : List Checked := []
  bad    : List RowMiss := []
  held   : Option HeldAcc := none
  page   : Option Nat := none  -- a KV page whose read is uncorrectable (R217, R313)
  deriving DecidableEq, Repr

/-- An operation as it runs. -/
structure Env where
  s  : State
  cl : List Nat
  t  : Step
  d  : OpDesc
  deriving DecidableEq, Repr

/-- What makes an operation zero work, by opcode and kernel (R176, R188, R229, R231, R235). -/
def zeroWork (d : OpDesc) : Bool :=
  match d.opcode.toNat with
  | 0x00 => false | 0x01 => false | 0x12 => false | 0x13 => false
  | 0x02 => d.m == 0 || d.n == 0 || d.k == 0
  | 0x03 => d.m == 0 || d.n == 0 || d.k == 0 || d.p1 == 0
  | 0x04 => d.m == 0 || d.n == 0 || d.k == 0 || d.g == 0 || d.p1 == 0
  | 0x05 => d.m == 0 || d.k == 0 || d.g == 0 || d.p0.toNat % 2048 == 0 || d.p0.toNat / 65536 % 256 == 0
  | 0x06 => d.m == 0 || d.g == 0 || d.p1 == 0 || (d.p0.toNat % 2 == 1 && d.p0.toNat / 256 % 256 == 0)
  | 0x07 => d.m == 0 || d.n == 0 || (d.kernel == 0x0A && d.p1 == 0)
  | 0x08 => d.n == 0
  | 0x09 => d.m == 0 || d.n == 0 || d.p1 == 0
  | 0x0A => d.m == 0 || d.n == 0 || d.p1 == 0
  | 0x0B => d.m == 0 || d.n == 0 || d.k == 0
  | 0x0C => d.m == 0 || d.g == 0
  | 0x0D => d.m == 0 || d.g == 0
  | 0x0E => d.m == 0 || d.g == 0
  | 0x0F => d.m == 0 || d.n == 0 || d.g == 0
  | 0x10 => d.m == 0 || d.n == 0 || d.g == 0
  | _ => d.m == 0 || d.n == 0

/-- The step whose current operation the state is ready to perform, when its descriptor is of the kind asked for. -/
def readyOp (s : State) (p : Nat) (sel : OpDesc → Bool) : Option Env :=
  match s.part p with
  | none => none
  | some q =>
    match q.step with
    | none => none
    | some t =>
      match t.current with
      | none => none
      | some d =>
        if t.phase = .running && !t.done && t.failed.isNone && sel d then some ⟨s, q.clusters, t, d⟩ else none

def markDone (p : Nat) : State → State := updStep p (fun t => { t with done := true })

/-- The poisoned words of some ranges. -/
def poisonedWords (s : State) (l : List Ext) : List Nat :=
  ((l.flatMap (fun e => wordsOf e.addr e.len)).filter (fun w => s.memPoison.contains w)).eraseDups

/-- The words that a command's reads of the shared store find in error (R142, R145). -/
def readErrors (p : Nat) (h : List HwFault) (s : State) : State := segmentErrors (h.filterMap (·.word)) (stepMet s p 0xFF) s

/-- The V-core that a row of a cluster's share runs on, core 4 or 5 (R523): V-core v has rows range(v, rows, 2), a single row being V-core 0's. -/
def vcoreOf (row rows : Nat) : Nat := if rows ≤ 1 then 4 else 4 + partOfItem row rows 2

/-- The first row and the number of rows of a cluster's share of a product (R169). -/
def rowShare (split parts m i : Nat) : Nat × Nat :=
  let rt := ceilDiv m 64
  let share (j n : Nat) : Nat × Nat :=
    let lo := 64 * partStart j rt n
    (lo, min m (64 * partStart (j + 1) rt n) - lo)
  match split with
  | 1 => share i parts
  | 3 => share (i / 12) (parts / 12)
  | _ => (0, m)

/-- The rows that a cluster's V-cores, or the arrays of one of its M-cores, divide: its share of the operation's (R169, R239, R523), and under HEADS and
BLOCKS those of the work item or the block's list in which a fault shows itself (R525). -/
def Env.sharedRows (e : Env) (n given : Nat) : Nat :=
  if e.d.split = 5 || e.d.split = 6 then given
  else (rowShare e.d.split.toNat e.cl.length e.d.m (e.cl.findIdx (· == n))).2

/-- An operation whose products are formed by OS passes (R180, R200). -/
def OpDesc.osOp (d : OpDesc) : Bool := d.opcode == 0x03 || d.opcode == 0x0D || d.opcode == 0x0E || d.opcode == 0x0F || d.opcode == 0x10

/-- The core, the array and the place in the array's passes that a fault of the hardware names: of a V-core the one that holds the row, of an M-core
its array (R523, R525). -/
def faultPlace (e : Env) (f : HwFault) : Nat × Nat × Nat :=
  match f.row with
  | none => (f.core.toNat, 0, 0)
  | some (r, given) =>
    let n := e.sharedRows f.cluster.val given
    if f.core.toNat < 4 then (f.core.toNat, dealt r n (if e.d.osOp then 128 else 2048)) else if f.core.toNat < 6 then (vcoreOf r n, 0, 0) else (f.core.toNat, 0, 0)

/-- A capture entry as an operation's failing row fills it (R111). Where the S-core has placed the operands in the core store the manual leaves to
its firmware: the places are free values (DESIGN CHOICE: notes/assumptions/14.md). -/
def missCapture (s : State) (p cluster : Nat) (x : RowMiss) (n : Nat) : Capture × State :=
  let met := stepMet s p stChecksum
  let (v, s) := takeFree s
  let (w, s) := takeFree s
  let ref (f : Nat × Nat) (v : BitVec 64) : OperandRef :=
    ⟨v.toNat % 3072, BitVec.ofNat 4 f.1, BitVec.ofNat 2 f.2, v.toNat / 4096 % 3072, 0⟩
  ({ step := met.step, op := met.op.setWidth 16, ctx := met.ctx, os := x.os, array := BitVec.ofNat 8 (4 * x.core + x.array)
     cls := classCode x.kind.cls x.kind.int32
     fmtLeft := BitVec.ofNat 8 (x.kind.left.1 + 16 * x.kind.left.2), fmtBcast := BitVec.ofNat 8 (x.kind.bcast.1 + 16 * x.kind.bcast.2)
     row := BitVec.ofNat 16 x.row, kLen := BitVec.ofNat 16 x.miss.kLen, time := dieNow s (s.siteOf cluster), tau := BitVec.ofNat 8 x.kind.tau, eps := BitVec.ofNat 8 x.kind.eps
     mismatches := BitVec.ofNat 32 n, diff := toF64 x.miss.diff, bound := if x.kind.int32 then 0 else toF64 x.miss.bound
     results := padList 65 0 x.miss.results
     leftRef := ref x.kind.left v, bcastRef := ref x.kind.bcast w, stride := 1 + v.toNat / 2 ^ 32 % 64 }, s)

/-- The failing rows of an operation (R110, R111): each is counted, and of each M-core with one the S-core stops, the core stores freeze, the first
row is captured, and the step fails. -/
def rowsMissed (p : Nat) (cl : List Nat) (l : List RowMiss) (s : State) : State :=
  let s := l.foldl (fun s x => updCounters (s.siteOf (cl.getD x.index 0)) (fun c => { c with csMismatch := satAdd c.csMismatch 1 }) s) s
  ((l.map (fun x => (x.index, x.core))).eraseDups).foldl (fun s k =>
    let mine := l.filter (fun x => x.index == k.1 && x.core == k.2)
    match mine with
    | [] => s
    | x :: _ =>
      let n := cl.getD k.1 0
      let (e, s) := missCapture s p n x mine.length
      stepError 0x01 (clusterUnit s 0x08 n x.core x.array 0) p (freezeCluster n (captureRow n x.core e s))) s

/-- A copy of the sequence engine, which has no chart code (R390). -/
def seqUnit (copy : Nat) : UnitRef := bareUnit 0x00 copy 0

/-- A row that a drain finds to differ because of a fault of the hardware: what the drain saw of it, and under HEADS which product, are free values
(DESIGN CHOICE: notes/assumptions/14.md). -/
def faultCapture (e : Env) (p : Nat) (f : HwFault) (s : State) : Capture × State :=
  let (core, array, row) := faultPlace e f
  let (v, s) := takeFree s
  let (d, s) := takeFree s
  let (b, s) := takeFree s
  let (k, s) := missCapture s p f.cluster.val ⟨0, core, array, row, e.d.osOp, e.d.prodKind, ⟨.zero, .zero, [], if e.d.osOp then 1 + v.toNat % 2048 else 128⟩⟩ 1
  let k := { k with diff := d, bound := if k.cls.msb then 0 else b, results := (List.range 65).map (fun i => Config.results [v.toNat] [] i) }
  (if e.d.split = 5 then { k with cls := v.setWidth 8 &&& 0x83, fmtLeft := (v >>> 8).setWidth 8 &&& 0x3F, fmtBcast := (v >>> 16).setWidth 8 &&& 0x3F } else k, s)

/-- The errors of the hardware that an operation can show by themselves (R378): a drain's comparison, a checker copy, an operand buffer's parity, and in
an audit step a second run that differs (R387). -/
def showsItself (audit : Bool) (f : HwFault) : Bool :=
  f.word.isNone && f.burst.isNone
    && ((f.cls == 0x01 && decide (f.core.toNat < 4)) || (f.cls == 0x02 && audit) || f.cls == 0x03 || (f.cls == 0x05 && f.seqCopy.isNone))

/-- The errors of the hardware that show themselves while an operation runs, an uncorrectable one first (R381). A drain's comparison that finds one is a
mismatch of R110, captured by R111. The two copies of the sequence engine are compared while both serve. -/
def hwFaults (e : Env) (p : Nat) (h : List HwFault) (s : State) : State :=
  let l := h.filter (showsItself e.t.audit)
  (l.filter (·.cls == 0x05) ++ l.filter (·.cls != 0x05)).foldl (fun s f =>
    let n := f.cluster.val
    let (core, array, _) := faultPlace e f
    match f.seqCopy with
    | some k => if f.cls = 0x03 && !s.errs.seqCopyOff then stepError 0x03 (seqUnit k.val) p s else s
    | none =>
      let s := if f.cls = 0x01 then
          let (k, s) := faultCapture e p f (updCounters (s.siteOf n) (fun c => { c with csMismatch := satAdd c.csMismatch 1 }) s)
          captureRow n core k s
        else s
      stepError f.cls (clusterUnit s 0x08 n core array 0) p (freezeCluster n s)) s

/-- The comparisons of an operation counted at its clusters' dies (R399). -/
def countChecks (cl : List Nat) (l : List Checked) (s : State) : State :=
  cl.zipIdx.foldl (fun s (n, i) =>
    let mine := l.filter (·.index == i)
    if mine.isEmpty then s
    else updCounters (s.siteOf n) (fun c => { c with
      csChecked := (c.csChecked + (mine.map (·.made)).sum) % 2 ^ 64
      csSkipped := satAdd c.csSkipped (mine.map (·.skipped)).sum }) s) s

/-- The writes of an operation made for its context. -/
def applyWrites (c : CtxId) (ws : List Wr) (s : State) : State :=
  ws.foldl (fun s w =>
    let s := ctxWrite c w.addr w.bytes s
    if w.tag then { s with memForms := s.memForms ++ [w.addr / 64] } else s) s

/-- The rows of 4 KiB that writes touch. -/
def rowsTouched (ws : List Wr) : List Nat :=
  ws.flatMap (fun w => if w.bytes.isEmpty then [] else
    (List.range ((w.addr + w.bytes.length - 1) / 4096 + 1 - w.addr / 4096)).map (· + w.addr / 4096))

/-! ### Operands of a descriptor -/

def OpDesc.tensA (d : OpDesc) (rows cols : Nat) : Tens := ⟨wordAddr d.addrA, d.layA.toNat, d.fmtA.toNat, d.scaleA.toNat, rows, cols, false⟩
def OpDesc.tensB (d : OpDesc) (rows cols : Nat) : Tens := ⟨wordAddr d.addrB, d.layB.toNat, d.fmtB.toNat, d.scaleB.toNat, rows, cols, false⟩
def OpDesc.weightB (d : OpDesc) (rows cols : Nat) : Tens := ⟨wordAddr d.addrB, d.layB.toNat, d.fmtB.toNat, d.scaleB.toNat, rows, cols, true⟩
def OpDesc.tensD (d : OpDesc) (rows cols : Nat) : Tens := ⟨wordAddr d.addrD, d.layD.toNat, d.fmtD.toNat, d.scaleD.toNat, rows, cols, false⟩
/-- The bytes of D that a V-core holds in its cluster's share of a kernel: its rows, in the column blocks of the cluster's slice (R523). -/
def heldByVcore (e : Env) (f : HwFault) : List Ext :=
  let dt := e.d.tensD e.d.m e.d.n
  let i := e.cl.findIdx (· == f.cluster.val)
  let (lo, n) := rowShare e.d.split.toNat e.cl.length e.d.m i
  let (core, _, _) := faultPlace e f
  let from_ := partStart (core - 4) n 2
  let rows := (List.range (partStart (core - 3) n 2 - from_)).map (· + lo + from_)
  let mine (c : Nat) : Bool := match e.d.split.toNat with
    | 2 => partOfItem c dt.colTiles e.cl.length == i
    | 3 => partOfItem c dt.colTiles 12 == i % 12
    | _ => true
  rows.flatMap (fun r => ((List.range dt.colTiles).filter mine).flatMap (fun c => dt.tileReads e.s e.cl (r / 64) c (r % 64) 1))

/-- A fault of a V-core that no second run shows changes the rows that it holds, and the sums across rows, which lie outside D (R523): what they become
is a free value (DESIGN CHOICE: notes/assumptions/14.md). -/
def spoiled (e : Env) (h : List HwFault) (ws : List Wr) (s : State) : List Wr × State :=
  (h.filter (fun f => f.cls == 0x02 && !e.t.audit && e.d.opcode == 0x07 && (f.core == 4 || f.core == 5) && e.cl.contains f.cluster.val)).foldl (fun (ws, s) f =>
    let (v, s) := takeFree s
    let held := heldByVcore e f
    let dt := e.d.tensD e.d.m e.d.n
    let whole := dt.tiles.map (fun (r, c) => (⟨dt.tileAddr e.cl r c, dt.slot⟩ : Ext))
    let within (l : List Ext) (a : Nat) : Bool := l.any (fun x => decide (x.addr ≤ a) && decide (a < x.addr + x.len))
    (ws.zipIdx.map (fun (w, k) => { w with bytes := w.bytes.zipIdx.map (fun (b, i) =>
      if within held (w.addr + i) || !within whole (w.addr + i) then Config.faultByte v (w.addr + i + k) else b) }), s)) (ws, s)

/-- An operation carried out: every access is checked before any effect; one that is denied or meets poison, a failed verdict
or an error of the hardware ends it with nothing written (R155, R164, R380; DESIGN CHOICE: notes/assumptions/14.md), and otherwise its writes
are applied. -/
def carryOut (p : Nat) (h : List HwFault) (e : Env) (w : Work) (also : State → State) : State :=
  let s := markDone p e.s
  let exts := w.reads ++ w.writes.map (fun x => ⟨x.addr, x.bytes.length⟩)
  if !exts.all (fun x => openTo s e.t.ctx x.addr x.len) then denyStep p s
  else
    let s := readErrors p h s
    let bad := poisonedWords s w.reads
    let s := match bad, w.page with
      | x :: l, _ => segmentPoison (x :: l) p s
      | [], some g => pageUnreadable p e.t.ctx.val g s
      | [], none => updStep p (fun t => { t with counts := t.counts.add w.counts, engine := {} }) s
    let s := rowsMissed p e.cl w.bad (hwFaults e p h (countChecks e.cl w.checks s))
    match s.stepOf p with
    | some t =>
      if t.failed.isSome || !bad.isEmpty || w.page.isSome then s
      else
        let (ws, s) := spoiled e h w.writes s
        let s := applyWrites e.t.ctx ws s
        also (updStep p (fun t => { t with dirty := union t.dirty (rowsTouched ws), held := w.held }) s)
    | none => s

/-- A zero-work operation (R176). -/
def zeroOp (p : Nat) (held : Option HeldAcc) : State → State :=
  updStep p (fun t => { t with done := true, zeroOps := t.zeroOps + 1, held := held })

/-- The command of an opcode or kernel: it acts only where the partition's current operation is one (R163). -/
def opCommand (p : PartId) (h : List HwFault) (sel : OpDesc → Bool) (f : Env → Work) (s : State) : State :=
  match readyOp s p.val sel with
  | none => s
  | some e => if zeroWork e.d then zeroOp p.val none s else carryOut p.val h e (f e) id

def isOp (code : Nat) (d : OpDesc) : Bool := d.opcode.toNat == code
def isKernel (k : Nat) (d : OpDesc) : Bool := d.opcode.toNat == 0x07 && d.kernel == k

/-- Results of an operation that the manual does not state, from element k of them: a function of what the operation is and of the bytes that it
reads (R83). -/
def Env.unstated (e : Env) (reads : List Ext) (k : Nat) : W32 :=
  let d := e.d
  let what := if d.opcode = 0x07 then [d.kernel, if d.kernel = 0x0C then d.p1.toNat else 0] else [d.g, d.seed.toNat]
  Config.results (d.opcode.toNat :: what ++ [e.cl.length, d.split.toNat, d.fmtA.toNat, d.scaleA.toNat, d.fmtB.toNat, d.scaleB.toNat, d.m, d.n]) (reads.flatMap (fun x => e.s.ssRead x.addr x.len)) k

/-- A tensor of elements at X or a PARAM address, laid out by LAYOUT_X (R522). -/
def OpDesc.tensX (d : OpDesc) (w : W32) (code scale rows cols : Nat) : Tens := ⟨wordAddr w, d.layX.toNat, code, scale, rows, cols, false⟩
/-- A tensor that is flat whatever the LAYOUT fields hold (R522). -/
def flatTens (w : W32) (code scale rows cols : Nat) : Tens := ⟨wordAddr w, 0, code, scale, rows, cols, false⟩

end Sys2Proof.Machine
end

