-- ==== Sys2Proof/Machine/Linear.lean ====
section
/-! DEFINITION. Matrix products and the operations that move rows: MATMUL, MATMUL_SKIP, MOVE, GATHER, SCATTER and EMBED
(R172 to R183, R520, R522, R245).
Rests on the log entries (notes/assumptions/<n>.md) 15 (DESIGN CHOICE), 32 (DEDUCED), 62 (DESIGN CHOICE). -/
namespace Sys2Proof.Machine

/-! ### Products (R80, R81, R172) -/

/-- One part of a product: the left row's elements, the columns of the shared operand and its row sums. -/
structure PassIn where
  xs   : List Num
  cols : List (List Num)
  sums : List Num

/-- Part of the shared operand: rows of one N-block along K, turned into columns with their row sums (R97). -/
structure Block where
  cols : List (List Num)
  sums : List Num

/-- The accumulator elements of one row and N-block, whether each has saturated, and the passes' verdicts: comparisons made and not made, and
those that were a mismatch. -/
structure AccBlock where
  words   : List W32
  sat     : List Bool
  made    : Nat := 0
  skipped : Nat := 0
  misses  : List Miss := []
  deriving DecidableEq, Repr

/-- One word added into an accumulator element (R80, R81): the sum and whether it saturated. -/
def accAddWord (int32 : Bool) (a b : W32) : W32 × Bool := if int32 then int32Add a b else (f32Add a b, false)

/-- A pass added into the accumulator, with its verdict (R80, R108). -/
def accPass (k : ProdKind) (acc : AccBlock) (p : PassIn) : AccBlock :=
  let rs := p.cols.map (columnSum k.cls k.int32 p.xs)
  let v := checkRow k.cls k.int32 k.tau k.eps rs (checkSum k.cls k.int32 p.xs p.sums)
  let sums := (acc.words.zip rs).map (fun (a, b) => accAddWord k.int32 a b)
  { words := sums.map (·.1)
    sat := (acc.sat.zip sums).map (fun (x, y) => x || y.2)
    made := match v with
      | .skipped => acc.made
      | .equal => acc.made + 1
      | .mismatch _ _ => acc.made + 1
    skipped := match v with
      | .skipped => acc.skipped + 1
      | .equal => acc.skipped
      | .mismatch _ _ => acc.skipped
    misses := match v with
      | .mismatch d b => acc.misses ++ [⟨d, b, rs ++ [columnSum k.cls k.int32 p.xs p.sums], p.xs.length⟩]
      | .skipped => acc.misses
      | .equal => acc.misses }

/-- Accumulator elements at +0, or INT32 0. -/
def AccBlock.zero (n : Nat) : AccBlock := ⟨List.replicate n 0, List.replicate n false, 0, 0, []⟩

/-- Two partial results combined (R172). -/
def AccBlock.combine (int32 : Bool) (a b : AccBlock) : AccBlock :=
  let sums := (a.words.zip b.words).map (fun (x, y) => accAddWord int32 x y)
  { words := sums.map (·.1)
    sat := ((a.sat.zip b.sat).zip sums).map (fun ((x, y), z) => x || y || z.2)
    made := a.made + b.made
    skipped := a.skipped + b.skipped
    misses := a.misses ++ b.misses }

/-- Neighbours paired: one level of the tree of R172. -/
def pairUp {α : Type} (f : α → α → α) : List α → List α
  | a :: b :: r => f a b :: pairUp f r
  | l => l

/-- The tree of R172 over partial results 0 to P − 1: as many levels as there are results suffice. -/
def treeSum {α : Type} (f : α → α → α) (z : α) : Nat → List α → α
  | 0, l => l.headD z
  | k + 1, l => treeSum f z k (pairUp f l)

/-- Sums across clusters by R172. -/
def treeAll {α : Type} (f : α → α → α) (z : α) (l : List α) : α := treeSum f z l.length l

/-- The N-blocks of a K × N operand cut in parts of n indices along K: by K part, then by N-block. -/
def blocksOf (int32 : Bool) (n cols : Nat) (w : List (List Num)) : List (List Block) :=
  (chunks n (ceilDiv w.length n) w).map (fun part =>
    (List.range (ceilDiv cols 64)).map (fun b =>
      let rows := part.map (fun r => (r.drop (64 * b)).take 64)
      ⟨(List.range (min 64 (cols - 64 * b))).map (column rows), rows.map (rowSum int32)⟩))

/-- The cluster (by partition index) and the M-core that compute a row and an N-block, given the K-block (R169, R172). -/
def placeOf (split parts m n k row nb kb : Nat) : Nat × Nat :=
  let rt := ceilDiv m 64
  let nbs := ceilDiv n 64
  let core (lo hi : Nat) : Nat := partOfItem (nb - lo) (hi - lo) 4
  match split with
  | 1 => (partOfItem (row / 64) rt parts, core 0 nbs)
  | 2 =>
    let i := partOfItem nb nbs parts
    (i, core (partStart i nbs parts) (partStart (i + 1) nbs parts))
  | 3 =>
    let g := partOfItem (row / 64) rt (parts / 12)
    let j := partOfItem nb nbs 12
    (12 * g + j, core (partStart j nbs 12) (partStart (j + 1) nbs 12))
  | 4 => (partOfItem kb (ceilDiv k 128) parts, core 0 nbs)
  | _ => (0, core 0 nbs)

/-- A row and N-block of a product: its elements, the comparisons by cluster, and the rows whose verdict was a mismatch. -/
structure Elems where
  acc : AccBlock
  checks : List Checked
  bad : List RowMiss

/-- The product of one row and one N-block: the passes in K order into the starting values, or, under KSPLIT, each cluster's
own passes from +0 combined by the tree of R172. -/
def productOf (os : Bool) (e : Env) (start : List W32) (row nb : Nat) (passes : List PassIn) : Elems :=
  let d := e.d
  let k := d.prodKind
  let p := e.cl.length
  let place (kb : Nat) : Nat × Nat := placeOf d.split.toNat p d.m d.n d.k row nb kb
  let zero := AccBlock.zero start.length
  let failing (at_ : Nat × Nat) (a : AccBlock) : List RowMiss :=
    let (lo, n) := rowShare d.split.toNat p d.m at_.1
    missesAt at_ (row - lo) n os k a.misses
  if d.split = 4 then
    let t := passes.length
    let part (i : Nat) : AccBlock :=
      ((passes.drop (partStart i t p)).take (partStart (i + 1) t p - partStart i t p)).foldl (accPass k) zero
    let parts := (List.range p).map part
    ⟨treeAll (AccBlock.combine k.int32) zero parts, parts.zipIdx.map (fun x => ⟨x.2, x.1.made, x.1.skipped⟩),
      parts.zipIdx.flatMap (fun x => failing (x.2, (place (partStart x.2 t p)).2) x.1)⟩
  else
    let r := passes.foldl (accPass k) { zero with words := start }
    ⟨r, [⟨(place 0).1, r.made, r.skipped⟩], failing (place 0) r⟩

/-- A result element after D is added (R179), what it started from, and whether it saturated. -/
structure Final where
  value  : Num
  starts : List Num := []
  sat    : Bool := false
  isF32  : Bool := true

/-- An element's final value (R81, R179): the accumulator, and D's element where ACC_ADD adds it. -/
def finalElem (int32 dInt : Bool) (acc : W32) (sat : Bool) (starts : List Num) (dv : Option Num) : Final :=
  match dv with
  | none => ⟨accValue int32 acc, starts, sat, !int32⟩
  | some v =>
    if int32 && dInt then
      match v with
      | .fin s m x =>
        let (r, o) := int32Add acc (BitVec.ofInt 32 (Num.scaled s m x 0))
        ⟨Num.ofInt r.toInt, starts, sat || o, false⟩
      | _ => ⟨accValue int32 acc, starts, sat, false⟩
    else
      let x := ofF32 (toF32 v)
      ⟨ofF32 (toF32 ((accValue int32 acc).add x)), x :: starts, sat, !int32⟩

/-- The counts of a final element (R81). -/
def Final.counts (f : Final) : Counts :=
  { accOverflow := if f.isF32 && f.value.isInf && f.starts.all (!·.isSpecial) then 1 else 0
    nanCreated := if f.isF32 && f.value.isNan && f.starts.all (!·.isNan) then 1 else 0
    intSat := if f.sat then 1 else 0 }

/-- The counts of a list of elements. -/
def finalCounts (l : List Final) : Counts := l.foldl (fun c f => c.add f.counts) {}

/-- The rows of D that ACC_ADD reads, or none. -/
def accAddRow (e : Env) (dt : Tens) (m : Nat) : Option (List Num) := if e.d.accAdd && !e.d.holdAcc then some (dt.row e.s e.cl m) else none

/-- The work of a product: rows of passes, from their starting values, into D or into the held accumulators (R178, R179). -/
def productWork (os : Bool) (e : Env) (reads : List Ext) (start : Nat → Nat → Option W32) (passes : Nat → Nat → List PassIn) : Work :=
  let d := e.d
  let k := d.prodKind
  let dt := d.tensD d.m d.n
  let nbs := ceilDiv d.n 64
  let rows := (List.range d.m).map (fun m =>
    (List.range nbs).map (fun b =>
      productOf os e ((List.range (min 64 (d.n - 64 * b))).map (fun j => (start m (64 * b + j)).getD 0)) m b (passes m b)))
  let fins := rows.zipIdx.map (fun (r, m) =>
    let dv := accAddRow e dt m
    let accs := r.flatMap (fun x => x.acc.words.zip x.acc.sat)
    accs.zipIdx.map (fun ((w, sat), n) =>
      finalElem k.int32 (isInteger d.fmtD.toNat && d.scaleD == 0) w sat
        (match start m n with
          | some v => [accValue k.int32 v]
          | none => [])
        (dv.map (fun l => l.getD n .zero))))
  let c := (finalCounts fins.flatten).add { checkSkipped := (rows.flatten.map (·.acc.skipped)).foldl satAdd 0 }
  let bad := rows.flatten.flatMap (·.bad)
  let checks := rows.flatten.flatMap (·.checks)
  if d.holdAcc then
    { reads := reads, counts := c, bad := bad
      checks := checks, held := some { split := d.split, m := d.m, n := d.n, int32 := k.int32, rows := rows.map (fun r => r.flatMap (·.acc.words)) } }
  else
    let (ws, wc) := storeTensor e.cl dt d.ctl 0 (fins.map (·.map (·.value)))
    { reads := reads ++ (if d.accAdd then dt.reads e.s e.cl else []), writes := ws, counts := c.add wc, bad := bad, checks := checks }

/-- A starting value held by the previous operation (R178). Where the pair of the two operations does not accumulate in one
kind, the manual states no value for it: an unstated function of the word held (DESIGN CHOICE: notes/assumptions/15.md). -/
def heldStart (e : Env) (m n : Nat) : Option W32 :=
  if e.d.accIn then
    match e.t.held with
    | some h =>
      if h.zero then some 0
      else
        let w := (h.rows.getD m []).getD n 0
        some (if h.int32 = e.d.prodKind.int32 then w else Config.heldAs h.int32 w)
    | none => none
  else none

/-- MATMUL: WS passes over K-blocks of 128 (R172, R174), with transposed operands (R183). -/
def matmulWork (e : Env) : Work :=
  let d := e.d
  let at_ := if d.transA then d.tensA d.k d.m else d.tensA d.m d.k
  let bt := if d.transB then d.weightB d.n d.k else d.weightB d.k d.n
  let a := if d.transA then transpose d.m (at_.all e.s e.cl) else at_.all e.s e.cl
  let b := if d.transB then transpose d.k (bt.weights e.s e.cl) else bt.weights e.s e.cl
  let blocks := blocksOf d.prodKind.int32 128 d.n b
  productWork false e (at_.reads e.s e.cl ++ bt.reads e.s e.cl) (heldStart e) (fun m nb =>
    let xs := chunks 128 (ceilDiv d.k 128) (a.getD m [])
    (xs.zip blocks).map (fun (x, bs) =>
      let blk := bs.getD nb ⟨[], []⟩
      ⟨x, blk.cols, blk.sums⟩))

/-- MATMUL: a zero-work one under HOLD_ACC holds zeros (R178). -/
def matmul (p : PartId) (h : List HwFault) (s : State) : State :=
  match readyOp s p.val (isOp 0x02) with
  | none => s
  | some e =>
    if zeroWork e.d then
      zeroOp p.val (if e.d.holdAcc then
        some { split := e.d.split, m := e.d.m, n := e.d.n, int32 := e.d.prodKind.int32, rows := [], zero := true } else none) s
    else carryOut p.val h e (matmulWork e) id

def execMatmul (p : PartId) (h : List HwFault) (s : State) : Out := done s (matmul p h)

/-- A list of 16-bit words from an address. -/
def readHalves (s : State) (a n : Nat) : List Nat := (List.range n).map (fun i => leNat (s.ssRead (a + 2 * i) 2))

/-- MATMUL_SKIP: OS passes of 64 listed K groups each, in list order (R180, R520). A and B count as read whole, the groups that are not listed too
(DESIGN CHOICE: notes/assumptions/62.md). -/
def matmulSkipWork (e : Env) : Work :=
  let d := e.d
  let at_ := d.tensA d.m d.k
  let bt := d.weightB d.k d.n
  let listed := readHalves e.s (wordAddr d.addrX) d.p1.toNat
  let kept := listed.filter (fun g => decide (32 * g < d.k))
  let ks := kept.map (fun g => (List.range 32).map (· + 32 * g))
  let passes := chunks 64 (ceilDiv kept.length 64) ks
  let a := at_.all e.s e.cl
  let b := bt.weights e.s e.cl
  let pick (l : List Num) (ix : List Nat) : List Num := ix.map (fun k => l.getD k .zero)
  let blocks := passes.map (fun gs =>
    let rows := gs.flatten.map (fun k => b.getD k (List.replicate d.n .zero))
    (blocksOf d.prodKind.int32 2048 d.n rows).headD [])
  let w := productWork true e (at_.reads e.s e.cl ++ bt.reads e.s e.cl ++ [⟨wordAddr d.addrX, 2 * d.p1.toNat⟩]) (fun _ _ => none) (fun m nb =>
    (passes.zip blocks).map (fun (gs, bs) =>
      let blk := bs.getD nb ⟨[], []⟩
      ⟨pick (a.getD m []) gs.flatten, blk.cols, blk.sums⟩))
  { w with counts := w.counts.add { indexDropped := listed.length - kept.length } }

def matmulSkip (p : PartId) (h : List HwFault) (s : State) : State := opCommand p h (isOp 0x03) matmulSkipWork s

def execMatmulSkip (p : PartId) (h : List HwFault) (s : State) : Out := done s (matmulSkip p h)

/-! ### MOVE (R181, R245) -/

/-- A copy of bytes as through a buffer, form tags with their words. -/
def copyWrites (s : State) (src dst n : Nat) : List Wr :=
  (List.range (n / 64)).map (fun i => ⟨dst + 64 * i, s.ssRead (src + 64 * i) 64, s.memForms.contains ((src + 64 * i) / 64)⟩)

def moveWork (e : Env) : Work :=
  let d := e.d
  let bases := if d.layA = 0 then [0] else e.cl.map (· * segmentBytes)
  let a := wordAddr d.addrA
  let b := wordAddr d.addrD
  { reads := bases.map (fun x => ⟨x + a, d.n⟩), writes := bases.flatMap (fun x => copyWrites e.s (x + a) (x + b) d.n) }

def move (p : PartId) (h : List HwFault) (s : State) : State := opCommand p h (isOp 0x08) moveWork s

def execMove (p : PartId) (h : List HwFault) (s : State) : Out := done s (move p h)

/-! ### Rows moved (R177, R180) -/

/-- Rows of A written to the rows of D unconverted, the row of a dropped entry as zeros (R177, R180). -/
def copyRows (e : Env) (src : Tens) (picks : List (Option Nat)) : Work :=
  let d := e.d
  let dst := d.tensD picks.length d.n
  let (ws, k) := storeKeeping e.cl dst d.ctl 0 (fun m c => some (match picks.getD m none with
    | some x => src.rawRow e.s e.cl x c
    | none => { elems := List.replicate 64 0, scales := if dst.scale = 0 then [] else [0, 0] })) []
  { reads := (picks.filterMap id).flatMap (src.rowReads e.s e.cl), writes := ws
    counts := { k with indexDropped := count picks (·.isNone) } }

/-- An index below a limit, or none (R180). -/
def within (n x : Nat) : Option Nat := if x < n then some x else none

def gatherWork (e : Env) : Work :=
  let d := e.d
  let xs := readWords e.s (wordAddr d.addrX) d.m
  let w := copyRows e (d.tensA d.p1.toNat d.n) (xs.map (fun x => within d.p1.toNat x.toNat))
  { w with reads := ⟨wordAddr d.addrX, 4 * d.m⟩ :: w.reads }

def gather (p : PartId) (h : List HwFault) (s : State) : State := opCommand p h (isOp 0x09) gatherWork s

def execGather (p : PartId) (h : List HwFault) (s : State) : Out := done s (gather p h)

/-- EMBED: the token of step row r picks the row (R174, R198). -/
def embedWork (e : Env) : Work :=
  let d := e.d
  copyRows e (d.tensA d.k d.n) ((List.range d.m).map (fun r => (e.t.rows[r]?).bind (fun x => within d.k x.token.toNat)))

def embed (p : PartId) (h : List HwFault) (s : State) : State := opCommand p h (isOp 0x0B) embedWork s

def execEmbed (p : PartId) (h : List HwFault) (s : State) : Out := done s (embed p h)

/-- A stored row of D written whole, converted, with its scales and zero padding (R173, R182). -/
def storeRow (cl : List Nat) (t : Tens) (c : ConvCtl) (m : Nat) (vals : List Num) : List Wr × Counts :=
  (List.range t.colTiles).foldl (fun ((ws, k) : List Wr × Counts) col =>
    let w := fmtWidth t.code
    let a := t.tileAddr cl (m / 64) col
    let cv := convertRow t.code t.scale c.stochastic c.nosat c.seed (m * t.cols + 64 * col) (padList 64 .zero ((vals.drop (64 * col)).take 64))
    let side : List Wr := if t.scale = 0 then [] else [⟨a + 512 * w + 2 * (m % 64), cv.scales, false⟩]
    (ws ++ ⟨a + 8 * w * (m % 64), packRow w cv.elems, false⟩ :: side, addConv cv.sat cv.dropped k)) ([], {})

/-- The padding rows of the tiles in row tile r (R173). -/
def padRows (cl : List Nat) (t : Tens) (r : Nat) : List Wr :=
  let n := t.rows - 64 * r
  if n < 64 then
    (List.range t.colTiles).flatMap (fun c =>
      let w := fmtWidth t.code
      let a := t.tileAddr cl r c
      let side : List Wr := if t.scale = 0 then [] else [⟨a + 512 * w + 2 * n, List.replicate (2 * (64 - n)) 0, false⟩]
      ⟨a + 8 * w * n, List.replicate (8 * w * (64 - n)) 0, false⟩ :: side)
  else []

/-- The padding columns of the rows of row tile r that are not listed, in the last of its tiles (R173). -/
def padCols (s : State) (cl : List Nat) (t : Tens) (r : Nat) (listed : List Nat) : List Wr :=
  let c := t.colTiles - 1
  let live := t.liveCols c
  if live < 64 then
    let w := fmtWidth t.code
    let a := t.tileAddr cl r c
    let n := live * w / 8
    let part : List Byte := if live * w % 8 = 0 then [] else [0]
    ((List.range (min 64 (t.rows - 64 * r))).filter (fun k => !listed.contains (64 * r + k))).flatMap (fun k =>
      let b := a + 8 * w * k + n
      let kept := part.map (fun _ => ((s.ssRead b 1).headD 0) &&& BitVec.ofNat 8 (2 ^ (live * w % 8) - 1))
      let scales := ceilDiv live 32
      let side : List Wr := if t.scale = 0 || decide (2 ≤ scales) then [] else [⟨a + 512 * w + 2 * k + scales, List.replicate (2 - scales) 0, false⟩]
      ⟨b, padList (8 * w - n) 0 kept, false⟩ :: side)
  else []

/-- SCATTER: rows of A to listed rows of D in ascending r, the last winning, or each added (R180). Under ACC_ADD a row of D is read once, runs in
FP32 and is converted once at the end; its sums are no accumulator elements and count in neither ACC_OVERFLOW nor NAN_CREATED (R89; DESIGN CHOICE:
notes/assumptions/62.md). -/
def scatterWork (e : Env) : Work :=
  let d := e.d
  let src := d.tensA d.m d.n
  let dst := d.tensD d.p1.toNat d.n
  let xs := (readWords e.s (wordAddr d.addrX) d.m).map (fun x => within d.p1.toNat x.toNat)
  let rows := xs.zipIdx.foldl (fun (t : Tab (List Num)) (x, r) =>
    match x with
    | none => t
    | some i =>
      let a := src.row e.s e.cl r
      if d.accAdd then
        let base := match t.find i with
          | some b => b
          | none => (dst.row e.s e.cl i).map (fun v => ofF32 (toF32 v))
        t.put i ((base.zip a).map (fun (b, v) => ofF32 (toF32 (b.add v))))
      else t.put i a) []
  let (ws, k) := rows.foldl (fun ((ws, k) : List Wr × Counts) (i, vals) =>
    let (w, c) := storeRow e.cl dst d.ctl i vals
    (ws ++ w, k.add c)) ([], {})
  let pads := ((rows.map (·.1 / 64)).eraseDups).flatMap (fun r => padRows e.cl dst r ++ padCols e.s e.cl dst r (rows.map (·.1)))
  { reads := ⟨wordAddr d.addrX, 4 * d.m⟩ :: src.reads e.s e.cl ++ (if d.accAdd then rows.flatMap (fun x => dst.rowReads e.s e.cl x.1) else [])
    writes := ws ++ pads
    counts := { k with indexDropped := count xs (·.isNone) } }

def scatter (p : PartId) (h : List HwFault) (s : State) : State := opCommand p h (isOp 0x0A) scatterWork s

def execScatter (p : PartId) (h : List HwFault) (s : State) : Out := done s (scatter p h)

end Sys2Proof.Machine
end

