-- ==== Sys2Proof/Machine/Kernels.lean ====
section
/-! DEFINITION. The vector kernel library (R187, R188, R522): VKERNEL by kernel number.
Rests on the log entries (notes/assumptions/<n>.md) 16 (DESIGN CHOICE), 62 (DESIGN CHOICE). -/
namespace Sys2Proof.Machine

/-! ### Reading and writing (R84, R187) -/

/-- An element read into FP32 (R187). -/
def kRow (r : List Num) : List W32 := r.map toF32

/-- The rows of a tensor in FP32. -/
def Tens.f32 (e : Env) (t : Tens) : List (List W32) := (t.all e.s e.cl).map kRow

/-- FP32 results as exact values, to be converted. -/
def asNums (rows : List (List W32)) : List (List Num) := rows.map (·.map ofF32)

/-- FP32 values written one after another from an address (R84). -/
def storeF32 (d : OpDesc) (a : Nat) (vs : List W32) : List Wr × Counts :=
  let cs := vs.map (fun v => convertElem 0 .nearest d.nosat (ofF32 v))
  ([⟨a, cs.flatMap (fun c => leBytes 4 c.bits), false⟩], addConv (count cs (·.sat)) 0 {})

/-- UINT32 values written one after another from an address. -/
def storeU32 (a : Nat) (vs : List Nat) : List Wr := [⟨a, vs.flatMap (leBytes 4), false⟩]

/-- Work that reads some tensors and writes D. -/
def kernelD (e : Env) (ins : List Tens) (cols : Nat) (out : List (List W32)) : Work :=
  let (ws, k) := storeTensor e.cl (e.d.tensD e.d.m cols) e.d.ctl 0 (asNums out)
  { reads := ins.flatMap (·.reads e.s e.cl), writes := ws, counts := k }

/-- More writes and counts. -/
def Work.and (w : Work) (reads : List Ext) (ws : List Wr × Counts) : Work :=
  { w with reads := w.reads ++ reads, writes := w.writes ++ ws.1, counts := w.counts.add ws.2 }

/-- An output at a PARAM address, never compressed (R244). -/
def OpDesc.plainCtl (d : OpDesc) : ConvCtl := { d.ctl with compress := false }

/-- A sum along a row by R80 and R187: exact groups of 32 added into an FP32 running sum from +0. -/
def rowSumF32 (terms : List Num) : W32 :=
  (chunks 32 (ceilDiv terms.length 32) terms).foldl (fun a g => toF32 ((ofF32 a).add (Num.sum g))) 0

/-- The exact products of two FP32 rows. -/
def products (a b : List W32) : List Num := (a.zip b).map (fun (x, y) => (ofF32 x).mul (ofF32 y))

/-- A natural number as FP32. -/
def f32Nat (n : Nat) : W32 := toF32 (Num.ofNat n)

/-- A kernel of one operand, element by element. -/
def unary (e : Env) (f : W32 → W32) : Work :=
  let a := e.d.tensA e.d.m e.d.n
  kernelD e [a] e.d.n ((a.f32 e).map (·.map f))

/-- A kernel of two operands, element by element. -/
def binary (e : Env) (b : Tens) (f : W32 → W32 → W32) : Work :=
  let a := e.d.tensA e.d.m e.d.n
  kernelD e [a, b] e.d.n (((a.f32 e).zip (b.f32 e)).map (fun (x, y) => (x.zip y).map (fun (u, v) => f u v)))

/-- X of a backward kernel: elements in A's format, laid out by LAYOUT_X (R188, R522). -/
def OpDesc.dyX (d : OpDesc) : Tens := d.tensX d.addrX d.fmtA.toNat d.scaleA.toNat d.m d.n

/-- max(x, 0), NaN for NaN. -/
def relu (x : W32) : W32 := f32Max 0 x

/-! ### RMSNORM, ROTARY and the element kernels -/

/-- RMSNORM: A × rsqrt(Σ A² / N + ε) × B, from left to right. -/
def rmsnormWork (e : Env) : Work :=
  let d := e.d
  let a := d.tensA d.m d.n
  let b := flatTens d.addrB d.fmtB.toNat d.scaleB.toNat 1 d.n
  let w := kRow (b.row e.s e.cl 0)
  kernelD e [a, b] d.n ((a.f32 e).map (fun r =>
    let q := f32Rsqrt (f32Add (f32Div (rowSumF32 (products r r)) (f32Nat d.n)) d.p1)
    (r.zip w).map (fun (x, y) => f32Mul (f32Mul x q) y)))

def rmsnorm (p : PartId) (h : List HwFault) (s : State) : State := opCommand p h (isKernel 0x01) rmsnormWork s
def execRmsnorm (p : PartId) (h : List HwFault) (s : State) : Out := done s (rmsnorm p h)

/-- One row of ROTARY: the first heads of 128 turned by the table row, the others copied. -/
def rotaryRow (heads : Nat) (back : Bool) (table row : List W32) : List W32 :=
  row.zipIdx.map (fun (x, j) =>
    let h := j / 128
    let i := j % 128
    if h < heads then
      let k := i % 64
      let c := table.getD (2 * k) 0
      let s0 := table.getD (2 * k + 1) 0
      let s := if back then f32Neg s0 else s0
      if i < 64 then f32Fma x c (f32Neg (f32Mul (row.getD (j + 64) 0) s))
      else f32Fma x c (f32Mul (row.getD (j - 64) 0) s)
    else x)

/-- ROTARY and ROTARY_BWD: positions from X, or from the sequence engine; a row whose position is not in the table is dropped
(R180). The table is a flat FP32 tensor of PARAM1 rows and 128 columns, in tiles of 64 by 64 (R522; DESIGN CHOICE: notes/assumptions/62.md). -/
def rotaryWork (back : Bool) (e : Env) : Work :=
  let d := e.d
  let a := d.tensA d.m d.n
  let b := flatTens d.addrB 0 0 d.p1.toNat 128
  let fromX := bit d.p2 16
  let pos : List Nat := if fromX then (readWords e.s (wordAddr d.addrX) d.m).map (·.toNat)
    else (List.range d.m).map (fun r => (e.t.rows[r]?.map (·.pos)).getD 0xFFFFFFFF)
  let heads := d.p2.toNat % 65536
  let rows := (pos.zip (a.f32 e)).map (fun (q, r) =>
    match within d.p1.toNat q with
    | some q => rotaryRow heads back (kRow (b.row e.s e.cl q)) r
    | none => r.map (fun _ => 0))
  let w := kernelD e [a] d.n rows
  { w with
    reads := w.reads ++ (pos.filterMap (within d.p1.toNat)).flatMap (b.rowReads e.s e.cl) ++ (if fromX then [⟨wordAddr d.addrX, 4 * d.m⟩] else [])
    counts := w.counts.add { indexDropped := count pos (fun q => (within d.p1.toNat q).isNone) } }

def rotary (p : PartId) (h : List HwFault) (s : State) : State := opCommand p h (isKernel 0x02) (rotaryWork false) s
def execRotary (p : PartId) (h : List HwFault) (s : State) : Out := done s (rotary p h)

def rotaryBwd (p : PartId) (h : List HwFault) (s : State) : State := opCommand p h (isKernel 0x10) (rotaryWork true) s
def execRotaryBwd (p : PartId) (h : List HwFault) (s : State) : Out := done s (rotaryBwd p h)

def gluWork (f : W32 → W32) (e : Env) : Work := binary e (e.d.tensB e.d.m e.d.n) (fun g u => f32Mul (f g) u)

def gluSilu (p : PartId) (h : List HwFault) (s : State) : State := opCommand p h (isKernel 0x03) (gluWork f32Silu) s
def execGluSilu (p : PartId) (h : List HwFault) (s : State) : Out := done s (gluSilu p h)

def gluGelu (p : PartId) (h : List HwFault) (s : State) : State := opCommand p h (isKernel 0x04) (gluWork f32Gelu) s
def execGluGelu (p : PartId) (h : List HwFault) (s : State) : Out := done s (gluGelu p h)

def relu2 (p : PartId) (h : List HwFault) (s : State) : State :=
  opCommand p h (isKernel 0x05) (fun e => unary e (fun x => f32Mul (relu x) (relu x))) s
def execRelu2 (p : PartId) (h : List HwFault) (s : State) : Out := done s (relu2 p h)

def addOp (p : PartId) (h : List HwFault) (s : State) : State :=
  opCommand p h (isKernel 0x06) (fun e => binary e (e.d.tensB e.d.m e.d.n) f32Add) s
def execAdd (p : PartId) (h : List HwFault) (s : State) : Out := done s (addOp p h)

def mulOp (p : PartId) (h : List HwFault) (s : State) : State :=
  opCommand p h (isKernel 0x07) (fun e => binary e (e.d.tensB e.d.m e.d.n) f32Mul) s
def execMul (p : PartId) (h : List HwFault) (s : State) : Out := done s (mulOp p h)

def convertOp (p : PartId) (h : List HwFault) (s : State) : State :=
  opCommand p h (isKernel 0x08) (fun e => unary e (fun x => f32Mul x e.d.p1)) s
def execConvert (p : PartId) (h : List HwFault) (s : State) : Out := done s (convertOp p h)

/-- RELU2_BWD: 2 × max(A, 0) × X, from left to right. -/
def relu2Bwd (p : PartId) (h : List HwFault) (s : State) : State :=
  opCommand p h (isKernel 0x0F) (fun e => binary e e.d.dyX (fun x y => f32Mul (f32Mul 0x40000000 (relu x)) y)) s
def execRelu2Bwd (p : PartId) (h : List HwFault) (s : State) : Out := done s (relu2Bwd p h)

/-! ### Rows: SOFTMAX, TOPK, CROSS_ENTROPY -/

/-- The parts of a softmax row: maximum, exponentials, their sum. -/
structure SoftParts where
  m : W32
  e : List W32
  t : W32

def softParts (z : List W32) : SoftParts :=
  let m := z.foldl f32Max f32NegInf
  let es := z.map (fun x => f32Exp (f32Sub x m))
  ⟨m, es, rowSumF32 (es.map ofF32)⟩

/-- e × reciprocal(Σ), or +0 where the maximum is −∞. -/
def SoftParts.probs (q : SoftParts) : List W32 :=
  if q.m = f32NegInf then q.e.map (fun _ => 0) else q.e.map (fun x => f32Mul x (f32Recip q.t))

def softmaxWork (e : Env) : Work :=
  let a := e.d.tensA e.d.m e.d.n
  kernelD e [a] e.d.n ((a.f32 e).map (fun r => (softParts (r.map (f32Mul e.d.p1))).probs))

def softmaxOp (p : PartId) (h : List HwFault) (s : State) : State := opCommand p h (isKernel 0x09) softmaxWork s
def execSoftmax (p : PartId) (h : List HwFault) (s : State) : Out := done s (softmaxOp p h)

/-- x ranks above y: NaN below −∞ (R188, R237). -/
def ranksAbove (x y : Num) : Bool := if x.isNan then false else if y.isNan then true else y.lt x

/-- An entry put before the first that it is not ranked below, so that of equals the earlier stands first. -/
def rankIn (x : Num × Nat) : List (Num × Nat) → List (Num × Nat)
  | [] => [x]
  | y :: l => if ranksAbove y.1 x.1 then y :: rankIn x l else x :: y :: l

/-- Values with their indices, the largest first, ties to the lower index. -/
def ranked (vs : List Num) : List (Num × Nat) := vs.zipIdx.foldr rankIn []

/-- TOPK: the k largest of each row, the largest first; their indices as consecutive UINT32 words, row by row (R188; DESIGN CHOICE:
notes/assumptions/62.md). -/
def topkWork (e : Env) : Work :=
  let d := e.d
  let k := d.p1.toNat
  let a := d.tensA d.m d.n
  let tops := (a.f32 e).map (fun r => (ranked (r.map ofF32)).take k)
  (kernelD e [a] k (tops.map (·.map (fun x => toF32 x.1)))).and []
    (storeU32 (wordAddr d.p2) (tops.flatMap (·.map (·.2))), {})

def topk (p : PartId) (h : List HwFault) (s : State) : State := opCommand p h (isKernel 0x0A) topkWork s
def execTopk (p : PartId) (h : List HwFault) (s : State) : Out := done s (topk p h)

/-- CROSS_ENTROPY: the loss of each row as consecutive FP32 words (R522; DESIGN CHOICE: notes/assumptions/62.md), and the gradient. -/
def crossEntropyWork (e : Env) : Work :=
  let d := e.d
  let a := d.tensA d.m d.n
  let targets := (readWords e.s (wordAddr d.addrX) d.m).map (fun t => within d.n t.toNat)
  let rows := (targets.zip (a.f32 e)).map (fun (t, r) =>
    match t with
    | none => (0, r.map (fun _ => 0))
    | some t =>
      let q := softParts r
      (f32Sub (f32Add (f32Log q.t) q.m) (r.getD t 0),
        q.probs.zipIdx.map (fun (x, j) => f32Mul (f32Sub x (if j = t then f32One else 0)) d.p1)))
  let w := (kernelD e [a] d.n (rows.map (·.2))).and [⟨wordAddr d.addrX, 4 * d.m⟩] (storeF32 d (wordAddr d.p2) (rows.map (·.1)))
  { w with counts := w.counts.add { indexDropped := count targets (·.isNone) } }

def crossEntropy (p : PartId) (h : List HwFault) (s : State) : State := opCommand p h (isKernel 0x0B) crossEntropyWork s
def execCrossEntropy (p : PartId) (h : List HwFault) (s : State) : Out := done s (crossEntropy p h)

/-! ### Backward kernels whose formula the manual does not give (DESIGN CHOICE: notes/assumptions/16.md) -/

/-- M × N FP32 results that the manual does not state, from operands that lie in some ranges. -/
def unstatedRows (e : Env) (reads : List Ext) (base m n : Nat) : List (List W32) :=
  (List.range m).map (fun r => (List.range n).map (fun j => e.unstated reads (base + r * n + j)))

/-- RMSNORM_BWD: dx to D and dw to PARAM2. -/
def rmsnormBwdWork (e : Env) : Work :=
  let d := e.d
  let ins := [d.tensA d.m d.n, flatTens d.addrB d.fmtB.toNat d.scaleB.toNat 1 d.n, d.dyX]
  let dw := flatTens d.p2 0 0 1 d.n
  let reads := ins.flatMap (·.reads e.s e.cl)
  (kernelD e ins d.n (unstatedRows e reads 0 d.m d.n)).and []
    (storeTensor e.cl dw d.plainCtl 0 (asNums (unstatedRows e reads (d.m * d.n) 1 d.n)))

def rmsnormBwd (p : PartId) (h : List HwFault) (s : State) : State := opCommand p h (isKernel 0x0C) rmsnormBwdWork s
def execRmsnormBwd (p : PartId) (h : List HwFault) (s : State) : Out := done s (rmsnormBwd p h)

/-- GLU_SILU_BWD and GLU_GELU_BWD: dg to D and du to PARAM2, in the format and scale of D (R188; DESIGN CHOICE: notes/assumptions/62.md). -/
def gluBwdWork (e : Env) : Work :=
  let d := e.d
  let ins := [d.tensA d.m d.n, d.tensB d.m d.n, d.dyX]
  let du := d.tensX d.p2 d.fmtD.toNat d.scaleD.toNat d.m d.n
  let reads := ins.flatMap (·.reads e.s e.cl)
  (kernelD e ins d.n (unstatedRows e reads 0 d.m d.n)).and []
    (storeTensor e.cl du d.plainCtl 0 (asNums (unstatedRows e reads (d.m * d.n) d.m d.n)))

def gluSiluBwd (p : PartId) (h : List HwFault) (s : State) : State := opCommand p h (isKernel 0x0D) gluBwdWork s
def execGluSiluBwd (p : PartId) (h : List HwFault) (s : State) : Out := done s (gluSiluBwd p h)

def gluGeluBwd (p : PartId) (h : List HwFault) (s : State) : State := opCommand p h (isKernel 0x0E) gluBwdWork s
def execGluGeluBwd (p : PartId) (h : List HwFault) (s : State) : Out := done s (gluGeluBwd p h)

/-! ### ATTN_DELTA, SUMSQ, ADAMW -/

/-- ATTN_DELTA: δ of each row and head at offset 8 of its 16-byte record (R190). -/
def attnDeltaWork (e : Env) : Work :=
  let d := e.d
  let a := d.tensA d.m d.n
  let b := d.tensB d.m d.n
  let heads := d.p1.toNat % 65536
  let parts := ((a.f32 e).zip (b.f32 e)).zipIdx.flatMap (fun ((o, g), r) =>
    (List.range heads).map (fun h =>
      storeF32 d (wordAddr d.addrD + 16 * (r * heads + h) + 8)
        [rowSumF32 (products ((g.drop (128 * h)).take 128) ((o.drop (128 * h)).take 128))]))
  parts.foldl (fun w x => w.and [] x) { reads := a.reads e.s e.cl ++ b.reads e.s e.cl }

def attnDelta (p : PartId) (h : List HwFault) (s : State) : State := opCommand p h (isKernel 0x11) attnDeltaWork s
def execAttnDelta (p : PartId) (h : List HwFault) (s : State) : Out := done s (attnDelta p h)

/-- SUMSQ: row sums added in ascending row order within each cluster, and across clusters by the tree of R172. -/
def sumsqWork (e : Env) : Work :=
  let d := e.d
  let a := d.tensA d.m d.n
  let rows := (a.f32 e).map (fun r => rowSumF32 (products r r))
  let p := e.cl.length
  let rt := ceilDiv d.m 64
  let part (i : Nat) : W32 :=
    ((rows.drop (64 * partStart i rt p)).take (64 * (partStart (i + 1) rt p - partStart i rt p))).foldl f32Add 0
  ({ reads := a.reads e.s e.cl } : Work).and [] (storeF32 d (wordAddr d.addrD) [treeAll f32Add 0 ((List.range p).map part)])

def sumsq (p : PartId) (h : List HwFault) (s : State) : State := opCommand p h (isKernel 0x12) sumsqWork s
def execSumsq (p : PartId) (h : List HwFault) (s : State) : Out := done s (sumsq p h)

/-- The hyperparameters of ADAMW, in the order of the record. -/
structure AdamParams where
  lr : W32
  beta1 : W32
  omBeta1 : W32
  beta2 : W32
  omBeta2 : W32
  eps : W32
  lambda : W32
  c1 : W32
  c2 : W32
  clip : W32

def adamParams (ws : List W32) : AdamParams :=
  let g (i : Nat) : W32 := ws.getD i 0
  ⟨g 0, g 1, g 2, g 3, g 4, g 5, g 6, g 7, g 8, g 9⟩

/-- ADAMW on one element: m, v and w after the update. -/
def adamStep (q : AdamParams) (grad m v w : W32) : W32 × W32 × W32 :=
  let g := f32Mul grad q.clip
  let m := f32Fma q.beta1 m (f32Mul q.omBeta1 g)
  let v := f32Fma q.beta2 v (f32Mul q.omBeta2 (f32Mul g g))
  let u := f32Mul q.c2 v
  let r := if (ofF32 u).isZero then 0 else f32Mul u (f32Rsqrt u)
  let step := f32Mul (f32Mul q.c1 m) (f32Recip (f32Add r q.eps))
  let t := f32Fma q.lambda w step
  (m, v, f32Fma (f32Neg q.lr) t w)

def adamwWork (e : Env) : Work :=
  let d := e.d
  let a := d.tensA d.m d.n
  let pairs : Tens := ⟨wordAddr d.addrB, d.layB.toNat, 0, 0, d.m, 2 * d.n, false⟩
  let dt := d.tensD d.m d.n
  let rec_ := wordAddr d.addrX
  let q := adamParams (readWords e.s rec_ 10)
  let out := (((a.f32 e).zip (pairs.f32 e)).zip (dt.f32 e)).map (fun ((gs, ps), ws) =>
    (gs.zip ws).zipIdx.map (fun ((g, w), j) => adamStep q g (ps.getD (2 * j) 0) (ps.getD (2 * j + 1) 0) w))
  let weights := out.map (·.map (·.2.2))
  let w := (kernelD e [a, pairs, dt] d.n weights).and [⟨rec_, 64⟩]
    (storeTensor e.cl pairs d.plainCtl 0 (asNums (out.map (·.flatMap (fun x => [x.1, x.2.1])))))
  if d.p1 = 0 then w
  else w.and [] (storeTensor e.cl (d.tensX d.p1 d.fmtB.toNat d.scaleB.toNat d.m d.n) d.plainCtl 0 (asNums weights))

def adamw (p : PartId) (h : List HwFault) (s : State) : State := opCommand p h (isKernel 0x13) adamwWork s
def execAdamw (p : PartId) (h : List HwFault) (s : State) : Out := done s (adamw p h)

end Sys2Proof.Machine
end

