-- ==== Sys2Proof/Machine/Attention.lean ====
section
/-! DEFINITION. Attention over KV pages and over training rows: KV_APPEND with its summaries, ATTN_DECODE, ATTN_PREFILL,
ATTN_TRAIN, ATTN_BACKWARD, and the summary cache (R190, R199 to R220, R525).
Rests on the log entries (notes/assumptions/<n>.md) 16 (DESIGN CHOICE), 18 (DESIGN CHOICE), 20 (DEDUCED), 32 (DEDUCED), 33 (DEDUCED), 56 (DEDUCED). -/
namespace Sys2Proof.Machine

/-! ### Reading a page (R199, R200) -/

/-- Where a vector of 128 elements and its scales lie in a head slot: keys or values of a position. -/
def kvOffsets (c : KvConfig) (values : Bool) (p : Nat) : Nat × Nat :=
  if c.fp8 then ((if values then 0x2000 else 0) + 128 * p, 0)
  else ((if values then 0x1100 else 0) + 64 * p, (if values then 0x2100 else 0x1000) + 4 * p)

/-- The 128 exact elements of a position's keys or values in the head slot at an address. -/
def kvVector (s : State) (c : KvConfig) (base : Nat) (values : Bool) (p : Nat) : List Num :=
  let (o, sc) := kvOffsets c values p
  if c.fp8 then (s.dimmRead (base + o) 128).map (fun b => decodeBits 3 b.toNat)
  else
    let scales := s.dimmRead (base + sc) 4
    (unpackRow 4 128 (s.dimmRead (base + o) 64)).zipIdx.map (fun (x, i) => elemValue 9 2 x (scales.getD (i / 32) 0))

/-- The ranges of a head slot that n positions take. -/
def kvExts (c : KvConfig) (base n : Nat) : List Ext :=
  if c.fp8 then [⟨base, 128 * n⟩, ⟨base + 0x2000, 128 * n⟩]
  else [⟨base, 64 * n⟩, ⟨base + 0x1000, 4 * n⟩, ⟨base + 0x1100, 64 * n⟩, ⟨base + 0x2100, 4 * n⟩]

/-- The bytes that a converted vector of 128 elements takes, at their offsets in a head slot. -/
def kvWrites (c : KvConfig) (base : Nat) (values : Bool) (p : Nat) (v : ConvRow) : List (Nat × List Byte) :=
  let (o, sc) := kvOffsets c values p
  if c.fp8 then [(base + o, packRow 8 v.elems)] else [(base + o, packRow 4 v.elems), (base + sc, v.scales)]

/-! ### Summaries (R207, R208) -/

/-- The envelope of one head slot: base, step and the byte of each channel; none where it is not finite. -/
def envelope (keys : List (List Num)) : Option (W32 × W32 × List Byte) :=
  if keys.any (·.any Num.isSpecial) then none
  else
    let chan (c : Nat) : List Num := keys.map (fun k => k.getD c .zero)
    let big (l : List Num) : Num := l.tail.foldl Num.max (l.headD .zero)
    let small (l : List Num) : Num := l.tail.foldl Num.min' (l.headD .zero)
    let maxs := (List.range 128).map (fun c => big (chan c))
    let mins := (List.range 128).map (fun c => small (chan c))
    let base := toF32Down (small mins)
    let step := toF32Up (numOver ((big maxs).sub (ofF32 base)) 15)
    if (ofF32 base).isSpecial || (ofF32 step).isSpecial then none
    else
      let at_ (i : Nat) : Num := (ofF32 base).add ((ofF32 step).mul (Num.ofNat i))
      let hi (m : Num) : Nat := ((List.range 16).find? (fun i => m.le (at_ i))).getD 15
      let lo (m : Num) : Nat := ((List.range 16).reverse.find? (fun i => (at_ i).le m)).getD 0
      some (base, step, (maxs.zip mins).map (fun (a, b) => BitVec.ofNat 8 (16 * hi a + lo b)))

/-- Head slots in use in a group. -/
def KvConfig.headsIn (c : KvConfig) (group : Nat) : Nat := min c.perPage (c.heads - group * c.perPage)

/-- A summary slot (R207). -/
def summaryBytes (slot layer group block : Nat) (step : W32) (envs : List (Option (W32 × W32 × List Byte))) : List Byte :=
  let noSkip := envs.any (·.isNone)
  let head := leBytes 2 slot ++ leBytes 1 layer ++ leBytes 1 group ++ leBytes 4 block ++ leBytes 1 envs.length
    ++ leBytes 1 (if noSkip then 1 else 0) ++ leBytes 2 0 ++ leBytes 4 step.toNat ++ leBytes 48 0
  padList 1024 0 (head ++ (if noSkip then [] else envs.flatMap (fun e =>
    match e with
    | some (b, st, env) => leBytes 4 b.toNat ++ leBytes 4 st.toNat ++ env
    | none => [])))

/-- The summary of a full page, its keys read back. -/
def summaryOf (s : State) (c : KvConfig) (addr slot layer group block : Nat) (step : W32) : List Byte :=
  summaryBytes slot layer group block step ((List.range (c.headsIn group)).map (fun j =>
    envelope ((List.range 64).map (kvVector s c (addr + j * c.slotBytes) false))))

/-! ### KV_APPEND (R209 to R211) -/

def OpDesc.layer (d : OpDesc) : Nat := d.p0.toNat % 65536

/-- The page of a position of a sequence at a layer and group, by directory entry. -/
def pageOf (s : State) (c : KvConfig) (slot layer group pos : Nat) : Option (Nat × Nat) :=
  (s.seqs.find slot).bind (fun q =>
    let e := q.entry c layer group (pos / 64)
    (s.dir.find e).map (fun d => (e, d.page)))

/-- What one KV_APPEND writes into DIMM memory, what it fills, and the pages it meets that do not serve. -/
structure Append where
  writes : List (Nat × List Byte) := []
  filled : List (Nat × Nat × Nat × Nat × Nat) := []    -- entry, page, slot, group, block
  counts : Counts := {}
  lost   : Option Nat := none

/-- One row's keys and values of one head. -/
def appendHead (e : Env) (k : Context) (c : KvConfig) (row : StepRow) (vals : List Num) (a : Append) (h : Nat) : Append :=
  let d := e.d
  let group := h / c.perPage
  match pageOf e.s c row.slot d.layer group row.pos with
  | none => a
  | some (entry, page) =>
    match pageAddr k page with
    | none => { a with lost := some page }
    | some addr =>
      let base := addr + h % c.perPage * c.slotBytes
      let ix := (row.slot * 2 ^ 18 + row.pos) * 2 * c.heads * 128
      let conv (e0 : Nat) : ConvRow :=
        convertRow c.code c.scale d.stochastic d.nosat d.seed (ix + e0) ((vals.drop e0).take 128)
      let kx := conv (128 * h)
      let vx := conv (128 * (c.heads + h))
      { writes := a.writes ++ kvWrites c base false (row.pos % 64) kx ++ kvWrites c base true (row.pos % 64) vx
        filled := if row.pos % 64 = 63 && !a.filled.any (fun x => x.1 == entry) then
          a.filled ++ [(entry, page, row.slot, group, row.pos / 64)] else a.filled
        counts := addConv (kx.sat + vx.sat) (kx.dropped + vx.dropped) a.counts
        lost := if dimmReads e.s addr 0 then a.lost else some page }

def appendAll (e : Env) (k : Context) (c : KvConfig) : Append :=
  let src := e.d.tensA e.d.m (256 * c.heads)
  (e.t.rows.take e.d.m).zipIdx.foldl (fun a (row, r) =>
    (List.range c.heads).foldl (appendHead e k c row ((src.row e.s e.cl r).map (fun x => ofF32 (toF32 x)))) a) {}

/-- The keys of a full page read back without an uncorrectable burst (R208, R313). -/
def keysRead (s : State) (c : KvConfig) (addr group : Nat) : Bool :=
  (List.range (c.headsIn group)).all (fun j =>
    ((kvExts c (addr + j * c.slotBytes) 64).take (if c.fp8 then 1 else 2)).all (fun x => dimmReads s x.addr x.len))

/-- What an operation's reads find in the DIMM bursts of the pages that it reads (R311 to R313). -/
def burstsRead (h : List HwFault) (c : Nat) (pages : List Nat) (s : State) : State :=
  (h.filterMap (·.burst)).foldl (fun s (a, f) =>
    if (pageAt s a).any (fun x => x.1 == c && pages.contains x.2) then readBurst a f s else s) s

/-- The DIMM writes of an append, the summaries of the pages it fills, and what the step notes of it. A page whose keys cannot be read
back fails the operation, and is lost. -/
def applyAppend (h : List HwFault) (e : Env) (k : Context) (c : KvConfig) (a : Append) (p : Nat) (s : State) : State :=
  let s := burstsRead h e.t.ctx.val (a.filled.map (·.2.1)) (a.writes.foldl (fun s (x, bs) => dimmWrite x bs s) s)
  let s := a.filled.foldl (fun s (_, page, slot, group, block) =>
    match pageAddr k page, summaryAddr k page with
    | some x, some y =>
      if keysRead s c x group then dimmWrite y (summaryOf s c x slot e.d.layer group block e.t.number) s else pageUnreadable p e.t.ctx.val page s
    | _, _ => s) s
  updStep p (fun t => { t with
    kvLayers := if t.kvLayers.contains e.d.layer then t.kvLayers else t.kvLayers ++ [e.d.layer]
    filled := union t.filled (a.filled.map (·.1))
    kvWords := t.kvWords ++ ((e.t.rows.take e.d.m).map (fun r => (r.slot, e.d.layer, r.pos))).filter (fun x => !t.kvWords.contains x) }) s

def kvAppend (p : PartId) (h : List HwFault) (s : State) : State :=
  match readyOp s p.val (isOp 0x0C) with
  | none => s
  | some e =>
    if zeroWork e.d then zeroOp p.val none s
    else
      match s.ctx e.t.ctx.val with
      | none => s
      | some k =>
        match k.kv with
        | none => s
        | some c =>
          let a := appendAll e k c
          carryOut p.val h e { reads := (e.d.tensA e.d.m (256 * c.heads)).reads e.s e.cl, counts := a.counts, page := a.lost }
            (applyAppend h e k c a p.val)

def execKvAppend (p : PartId) (h : List HwFault) (s : State) : Out := done s (kvAppend p h)

/-! ### The online softmax of one query (R113, R114, R200, R212, R217) -/

/-- How an attention operation computes. -/
structure AttnKind where
  score : ProdKind
  value : ProdKind
  sigma : W32
  pCode : Nat
  pScale : Nat

/-- A query head's softmax as it runs. -/
structure HeadRun where
  soft : SoftRow := {}
  acc  : List W32 := List.replicate 128 0
  made : Nat := 0
  skipped : Nat := 0
  sat  : Nat := 0
  misses : List (ProdKind × Miss) := []

/-- A verdict on a row of the query's passes, with what the drain saw. -/
def HeadRun.verdict (k : ProdKind) (kLen : Nat) (r : HeadRun) (x : List W32 × Verdict) : HeadRun :=
  match x.2 with
  | .equal => { r with made := r.made + 1 }
  | .skipped => { r with skipped := r.skipped + 1 }
  | .mismatch d b => { r with made := r.made + 1, misses := r.misses ++ [(k, ⟨d, b, x.1, kLen⟩)] }

/-- The failing rows of a query: row x of the rows that its item deals. -/
def HeadRun.failing (place : Nat × Nat) (x rows : Nat) (r : HeadRun) : List RowMiss :=
  r.misses.flatMap (fun m => missesAt place x rows true m.1 [m.2])

/-- The scores of a query with up to 64 keys, positions that are not visible read as zeros (R200, R212), and the verdict. -/
def scorePass (k : ProdKind) (q : List Num) (keys : List (List Num)) : List W32 × Verdict :=
  let rs := keys.map (columnSum k.cls k.int32 q)
  let sums := (List.range 128).map (fun c => rowSum k.int32 (keys.map (fun x => x.getD c .zero)))
  (padList 64 0 rs, checkRow k.cls k.int32 k.tau k.eps (padList 64 0 rs) (checkSum k.cls k.int32 q sums))

/-- The value pass of a row of probabilities, two N-blocks of 64 channels, with their verdicts. -/
def valuePass (k : ProdKind) (ps : List Num) (vals : List (List Num)) : List W32 × List (List W32 × Verdict) :=
  let parts := (List.range 2).map (fun b =>
    let rows := vals.map (fun v => (v.drop (64 * b)).take 64)
    let rs := (List.range 64).map (fun c => columnSum k.cls k.int32 ps (column rows c))
    (rs, checkRow k.cls k.int32 k.tau k.eps rs (checkSum k.cls k.int32 ps (rows.map (rowSum k.int32)))))
  (parts.flatMap (·.1), parts)

/-- Probabilities as the value pass reads them (R113, R213), and how many of them saturated (R86). -/
def probValues (k : AttnKind) (ps : List W32) : List Num × Nat :=
  let cv := convertRow k.pCode k.pScale false false 0 0 (ps.map ofF32)
  (cv.elems.zipIdx.map (fun (x, i) => elemValue k.pCode k.pScale x (cv.scales.getD (i / 32) 0)), cv.sat)

/-- Up to 64 positions taken into a query's softmax. -/
def HeadRun.block (k : AttnKind) (q : List Num) (keys vals : List (List Num)) (r : HeadRun) : HeadRun :=
  if keys.isEmpty then r
  else
    let (rs, v) := scorePass k.score q keys
    let (o, ps) := softmaxRow r.soft rs k.sigma keys.length
    let (pv, sat) := probValues k ps
    let (out, vs) := valuePass k.value (pv.take vals.length) vals
    let r := vs.foldl (HeadRun.verdict k.value vals.length) (r.verdict k.score 128 (rs, v))
    { r with sat := r.sat + sat, soft := { o with alpha := f32One }, acc := softmaxAdd o.alpha r.acc out }

/-- The finished row of a query head, with what R81, R86 and R114 count (DEDUCED: notes/assumptions/56.md). -/
def HeadRun.finish (r : HeadRun) : List W32 × Counts :=
  let out := softmaxFinish r.soft r.acc
  let c : Counts := { convSat := r.sat, checkSkipped := r.skipped }
  if (ofF32 r.soft.m).isNan || (ofF32 r.soft.l).isNan then (out, { c with nanCreated := 1 })
  else (out, { c with nanCreated := count out (fun w => (ofF32 w).isNan), accOverflow := count out (fun w => (ofF32 w).isInf) })

/-! ### Paged attention (R212 to R217, R219, R525) -/

/-- A page of a sequence at a layer and group. -/
structure PageView where
  block   : Nat
  page    : Nat
  sealedP : Bool
  addr    : Option Nat
  sum     : Option Nat

/-- Positions of a row's sequence that are visible (R212): a prefix. -/
def visible (e : Env) (length : Nat) (row : StepRow) : Nat := if e.t.kvLayers.contains e.d.layer then row.pos + 1 else length

/-- The valid pages of a sequence that hold its first n positions. -/
def pageViews (e : Env) (k : Context) (c : KvConfig) (q : Seq) (group n : Nat) : List PageView :=
  (List.range (ceilDiv n 64)).filterMap (fun b =>
    (e.s.dir.find (q.entry c e.d.layer group b)).map (fun d => ⟨b, d.page, d.sealedP, pageAddr k d.page, summaryAddr k d.page⟩))

/-- Keys or values of a page's visible positions in a head slot. -/
def PageView.vectors (s : State) (c : KvConfig) (slot : Nat) (values : Bool) (n : Nat) (v : PageView) : List (List Num) :=
  match v.addr with
  | none => []
  | some a => (List.range (min 64 (n - 64 * v.block))).map (kvVector s c (a + slot * c.slotBytes) values)

/-- A page that cannot be read: its place does not serve, or a burst of it is uncorrectable. -/
def PageView.unreadable (s : State) (c : KvConfig) (slot n : Nat) (v : PageView) : Bool :=
  match v.addr with
  | none => true
  | some a => !(kvExts c (a + slot * c.slotBytes) (min 64 (n - 64 * v.block))).all (fun x => dimmReads s x.addr x.len)

/-- The bound of a query head on a sealed page (R215), none where the summary says NOSKIP. -/
def pageBound (s : State) (sigma : W32) (q : List Num) (slot : Nat) (v : PageView) : Option W32 :=
  match v.sum with
  | none => none
  | some a =>
    if ((s.dimmRead (a + 9) 1).headD 0).getLsbD 0 then none
    else
      let o := a + 0x40 + 136 * slot
      let f (x : Nat) : Num := ofF32 (BitVec.ofNat 32 (leNat (s.dimmRead x 4)))
      let env := s.dimmRead (o + 8) 128
      let at_ (i : Nat) : Num := (f o).add ((f (o + 4)).mul (Num.ofNat i))
      let (t, u) := (q.zip env).foldl (fun ((t, u) : W32 × W32) (x, b) =>
        let hi := at_ (b.toNat / 16)
        let lo := at_ (b.toNat % 16)
        (toF32Up ((ofF32 t).add (ofF32 (toF32Up ((x.mul hi).max (x.mul lo))))),
          toF32Up ((ofF32 u).add (ofF32 (toF32Up (x.abs.mul (hi.abs.max lo.abs))))))) (0, 0)
      let w := toF32Up ((ofF32 t).add (ofF32 (toF32Up ((ofF32 u).shift (-20)))))
      some (toF32Up ((ofF32 sigma).mul (ofF32 w)))

/-- The scaled scores of a query with the visible positions of some pages: their maximum (R214). -/
def maxScore (e : Env) (a : AttnKind) (c : KvConfig) (slot n : Nat) (q : List Num) (pages : List PageView) : W32 :=
  pages.foldl (fun m v =>
    let ks := v.vectors e.s c slot false n
    ((scorePass a.score q ks).1.take ks.length).foldl (fun m x => f32Max m (f32Mul x a.sigma)) m) f32NegInf

/-- B_h of R216, each step rounded upward. -/
def skipMass (m0 : W32) (us : List W32) : W32 :=
  us.foldl (fun b u =>
    let x := f32ExpUp (toF32Up ((ofF32 u).sub (ofF32 m0)))
    toF32Up ((ofF32 b).add (ofF32 (toF32Up ((ofF32 x).mul (Num.ofNat 64)))))) 0

/-- Which pages an ATTN_DECODE item takes (R214). -/
structure Choice where
  pages : List PageView
  considered : Nat := 0
  fetched : Nat := 0
  bound : W32 := 0
  bounded : List Nat := []      -- blocks whose summary was read

def choosePages (e : Env) (a : AttnKind) (c : KvConfig) (slot n : Nat) (qs : List (List Num)) (pages : List PageView) : Choice :=
  let d := e.d
  let sealedPages := pages.filter (·.sealedP)
  let firstN := d.p3.toNat % 256
  let lastN := d.p3.toNat / 256 % 256
  let inF (v : PageView) : Bool :=
    !v.sealedP || (sealedPages.take firstN).any (fun x => x.block == v.block)
      || (sealedPages.drop (sealedPages.length - lastN)).any (fun x => x.block == v.block)
  let f := pages.filter inF
  let others := pages.filter (fun v => !inF v)
  let m0 := qs.map (fun q => maxScore e a c slot n q f)
  let bounds := others.map (fun v => (v, qs.map (fun q => pageBound e.s a.sigma q slot v)))
  let fetch (us : List (Option W32)) : Bool := (us.zip m0).any (fun (u, m) =>
    match u with
    | none => true
    | some u => (ofF32 m).isNan || (ofF32 u).isNan || ((ofF32 m).sub (ofF32 d.p2)).le (ofF32 u))
  let skipped := bounds.filter (fun x => !fetch x.2)
  { pages := pages.filter (fun v => inF v || bounds.any (fun x => x.1.block == v.block && fetch x.2))
    considered := others.length
    fetched := count bounds (fun x => fetch x.2)
    bound := (m0.zipIdx.map (fun (m, i) => skipMass m (skipped.map (fun x => ((x.2.getD i none).getD 0))))).foldl
      (fun b x => if (ofF32 b).lt (ofF32 x) then x else b) 0
    bounded := others.map (·.block) }

/-- What one work item does. -/
structure ItemOut where
  rows   : List (Nat × Nat × List W32 × W32 × W32) := []    -- row, head, result, m, l
  counts : Counts := {}
  checks : List Checked := []
  bad    : List RowMiss := []
  lost   : Option Nat := none
  sums   : List (Nat × Nat × Nat) := []                     -- summaries read: slot, group, block

/-- The kind of a paged attention operation (R213). -/
def pagedKind (d : OpDesc) (c : KvConfig) : AttnKind :=
  let bf := bit d.p3 16
  let pc := if bf then 1 else 3
  let ps := if bf then 0 else 1
  ⟨prodOf (d.fmtA.toNat, d.scaleA.toNat) (c.code, c.scale) d.tau.toNat d.eps.toNat,
    prodOf (pc, ps) (c.code, c.scale) d.tau.toNat d.eps.toNat, d.p1, pc, ps⟩

/-- Sealed summaries of the step's sequences at a layer, in the order in which the cache takes them. -/
def sealedSummaries (s : State) (t : Step) (c : KvConfig) (layer : Nat) : List (Nat × Nat × Nat) :=
  t.seqs.flatMap (fun sq =>
    match s.seqs.find sq.slot with
    | none => []
    | some q => (List.range c.groups).flatMap (fun g => (List.range q.dirSpan).filterMap (fun b =>
        match s.dir.find (q.entry c layer g b) with
        | some d => if d.sealedP then some (sq.slot, g, b) else none
        | none => none)))

/-- Summaries of a layer that stand in the partition's share of the cache (R218). -/
def cachedSummaries (e : Env) (c : KvConfig) : List (Nat × Nat × Nat) :=
  if e.t.cacheLayer = e.d.layer then ((sealedSummaries e.s e.t c e.d.layer).take e.t.cacheUsed).filter (fun x => !e.t.cacheBad.contains x) else []

/-- The pages that a work item takes and the summaries that it reads (R214, R217): all that its rows see, or those that ATTN_DECODE chooses. -/
def itemChoice (e : Env) (k : Context) (c : KvConfig) (decode : Bool) (sq : StepSeq) (q : Seq) (h : Nat) : Choice :=
  let d := e.d
  let perHead := d.g / c.heads
  let n := ((List.range sq.rows).filterMap (fun i => e.t.rows[sq.first + i]?)).foldl (fun n r => max n (visible e q.length r)) 0
  let all := pageViews e k c q (h / c.perPage) n
  if decode then
    let query := (d.tensA d.m (128 * d.g)).row e.s e.cl sq.first
    choosePages e (pagedKind d c) c (h % c.perPage) n ((List.range perHead).map (fun i => (query.drop (128 * (i + h * perHead))).take 128)) all
  else { pages := all }

/-- The pages that a KV_APPEND or a paged attention operation reads: those that a KV_APPEND fills, those that a work item takes, and those whose
summary it reads from the DIMM. -/
def pagesRead (e : Env) : List Nat :=
  match (e.s.ctx e.t.ctx.val).bind (fun k => k.kv.map (fun c => (k, c))) with
  | none => []
  | some (k, c) =>
    if e.d.opcode = 0x0C then (appendAll e k c).filled.map (fun x => x.2.1)
    else
      let cached := cachedSummaries e c
      (e.t.seqs.flatMap (fun sq =>
        match e.s.seqs.find sq.slot with
        | none => []
        | some q => (List.range c.heads).flatMap (fun h =>
          let ch := itemChoice e k c (e.d.opcode == 0x0D) sq q h
          let group := h / c.perPage
          ch.pages.map (·.page) ++ (ch.bounded.filter (fun b => !cached.contains (sq.slot, group, b))).filterMap (fun b =>
            (e.s.dir.find (q.entry c e.d.layer group b)).map (·.page))))).eraseDups

/-- The pages that the operation reads or writes: a KV_APPEND writes those of its rows' positions. -/
def pagesTouched (e : Env) : List Nat :=
  if e.d.opcode ≠ 0x0C then pagesRead e
  else
    match (e.s.ctx e.t.ctx.val).bind (·.kv) with
    | none => []
    | some c => ((e.t.rows.take e.d.m).flatMap (fun row => (List.range c.groups).filterMap (fun g => (pageOf e.s c row.slot e.d.layer g row.pos).map (·.2)))).eraseDups

/-- The work item of a sequence of the step and a KV head: all its rows, each with its query heads (R525). -/
def attnItem (e : Env) (k : Context) (c : KvConfig) (decode : Bool) (si : Nat) (sq : StepSeq) (h : Nat) : ItemOut :=
  let d := e.d
  match e.s.seqs.find sq.slot with
  | none => {}
  | some q =>
    let a := pagedKind d c
    let group := h / c.perPage
    let slot := h % c.perPage
    let perHead := d.g / c.heads
    let heads := (List.range perHead).map (· + h * perHead)
    let rows := (List.range sq.rows).filterMap (fun i => (e.t.rows[sq.first + i]?).map (fun r => (sq.first + i, r)))
    let query (r x : Nat) : List Num := ((d.tensA d.m (128 * d.g)).row e.s e.cl r).drop (128 * x) |>.take 128
    let item := si * c.heads + h
    let total := e.t.seqs.length * c.heads
    let i := partOfItem item total e.cl.length
    let core := (item - partStart i total e.cl.length) % 4
    let n := rows.foldl (fun n x => max n (visible e q.length x.2)) 0
    let ch := itemChoice e k c decode sq q h
    let outs := rows.flatMap (fun (r, row) =>
      let nv := visible e q.length row
      heads.map (fun x =>
        let run := ch.pages.foldl (fun (run : HeadRun) v =>
          run.block a (query r x) (v.vectors e.s c slot false nv) (v.vectors e.s c slot true nv)) {}
        (r, x, run)))
    let fins := outs.map (fun (r, x, run) => (r, x, run.finish, run))
    { rows := fins.map (fun (r, x, f, run) => (r, x, f.1, run.soft.m, run.soft.l))
      counts := fins.foldl (fun c (_, _, f, _) => c.add f.2)
        { attnConsidered := ch.considered, attnFetched := ch.fetched, attnBoundMax := ch.bound }
      checks := [⟨i, (outs.map (·.2.2.made)).sum, (outs.map (·.2.2.skipped)).sum⟩]
      bad := outs.zipIdx.flatMap (fun (o, x) => o.2.2.failing (i, core) x outs.length)
      lost := (ch.pages.find? (fun v => v.unreadable e.s c slot n)).map (·.page)
      sums := ch.bounded.map (fun b => (sq.slot, group, b)) }

/-- A row of M × (heads × 128) results from its heads. -/
def headRows (m g : Nat) (l : List (Nat × Nat × List W32 × W32 × W32)) : List (List W32) :=
  (List.range m).map (fun r => (List.range g).flatMap (fun h =>
    match l.find? (fun x => x.1 == r && x.2.1 == h) with
    | some x => x.2.2.1
    | none => List.replicate 128 0))

def pagedWork (decode : Bool) (e : Env) (k : Context) (c : KvConfig) : Work :=
  let d := e.d
  let items := e.t.seqs.zipIdx.flatMap (fun (sq, si) => (List.range c.heads).map (attnItem e k c decode si sq))
  let rows := items.flatMap (·.rows)
  let cached := cachedSummaries e c
  let misses := ((items.flatMap (·.sums)).eraseDups).filter (fun x => !cached.contains x)
  let badSum := misses.find? (fun x =>
    match e.s.seqs.find x.1 with
    | none => false
    | some q =>
      match e.s.dir.find (q.entry c d.layer x.2.1 x.2.2) with
      | none => false
      | some y => match summaryAddr k y.page with
        | some a => !dimmReads e.s a 1024
        | none => true)
  let badSumPage := badSum.bind (fun x => (e.s.seqs.find x.1).bind (fun q => (e.s.dir.find (q.entry c d.layer x.2.1 x.2.2)).map (·.page)))
  let (ws, wc) := storeTensor e.cl (d.tensD d.m (128 * d.g)) d.plainCtl 0 (asNums (headRows d.m d.g rows))
  let stats : List Wr := if d.saveStats then
      rows.map (fun x => ⟨wordAddr d.addrX + 8 * (x.1 * d.g + x.2.1), leBytes 4 x.2.2.2.1.toNat ++ leBytes 4 x.2.2.2.2.toNat, false⟩) else []
  { reads := (d.tensA d.m (128 * d.g)).reads e.s e.cl
    writes := ws ++ stats
    counts := (items.foldl (fun n x => n.add x.counts) wc).add { summaryMiss := misses.length }
    checks := items.flatMap (·.checks)
    bad := items.flatMap (·.bad)
    page := match items.findSome? (·.lost) with
      | some p => some p
      | none => badSumPage }

/-- ATTN_DECODE and ATTN_PREFILL. -/
def pagedAttention (code : Nat) (decode : Bool) (p : PartId) (h : List HwFault) (s : State) : State :=
  match readyOp s p.val (isOp code) with
  | none => s
  | some e =>
    if zeroWork e.d then zeroOp p.val none s
    else
      match s.ctx e.t.ctx.val with
      | none => s
      | some k =>
        match k.kv with
        | none => s
        | some c =>
          let e := { e with s := burstsRead h e.t.ctx.val (pagesRead e) e.s }
          carryOut p.val h e (pagedWork decode e k c) id

def attnDecode (p : PartId) (h : List HwFault) (s : State) : State := pagedAttention 0x0D true p h s
def execAttnDecode (p : PartId) (h : List HwFault) (s : State) : Out := done s (attnDecode p h)

def attnPrefill (p : PartId) (h : List HwFault) (s : State) : State := pagedAttention 0x0E false p h s
def execAttnPrefill (p : PartId) (h : List HwFault) (s : State) : Out := done s (attnPrefill p h)

/-! ### The summary cache (R218) -/

/-- SUMMARY_CACHE_COPY: summaries of the layer that is due go into the partition's share, as far as it reaches. One that cannot be read is not delivered,
and its page is lost (R313). -/
def summaryCacheCopy (p : PartId) (n : Nat) (s : State) : State :=
  match s.stepOf p.val with
  | none => s
  | some t =>
    if t.kind = .decode then
      match s.ctx t.ctx.val with
      | none => s
      | some k =>
        match k.kv with
        | none => s
        | some c =>
          let all := sealedSummaries s t c t.cacheLayer
          let used := min (t.cacheUsed + n) (min t.cacheCap all.length)
          let page (x : Nat × Nat × Nat) : Option Nat :=
            (s.seqs.find x.1).bind (fun q => (s.dir.find (q.entry c t.cacheLayer x.2.1 x.2.2)).map (·.page))
          let bad := ((all.take used).drop t.cacheUsed).filter (fun x => !(page x).any (summaryReads s k))
          let s := updStep p.val (fun t => { t with cacheUsed := used, cacheBad := t.cacheBad ++ bad }) s
          (bad.filterMap page).foldl (fun s g => pageFails t.ctx.val g s) s
    else s

def execSummaryCacheCopy (p : PartId) (summaries : Nat) (s : State) : Out := .next (summaryCacheCopy p summaries s)

/-! ### Training attention (R190) -/

/-- SEQ_START of a row: from the record of query head 0. -/
def seqStart (e : Env) (r : Nat) : Nat := leNat (e.s.ssRead (wordAddr e.d.p0 + 16 * (r * e.d.g) + 12) 4)

/-- Positions start to row, cut where the manual does not say: blocks of 64 from a point on that the implementation fixes
(DESIGN CHOICE: notes/assumptions/18.md). -/
def trainBlocks (phase start row : Nat) : List (List Nat) :=
  let l := if start ≤ row then (List.range (row + 1 - start)).map (· + start) else []
  let first := 64 - phase % 64
  l.take first :: chunks 64 (ceilDiv (l.length - first) 64) (l.drop first)

/-- The kind of ATTN_TRAIN; the format of its probabilities is not stated (DESIGN CHOICE: notes/assumptions/18.md). -/
def trainKind (d : OpDesc) : AttnKind :=
  let p : Nat × Nat := match Config.trainFormat with
    | 0 => (3, 1)
    | 1 => (1, 0)
    | _ => (0, 0)
  let b := (d.fmtB.toNat, d.scaleB.toNat)
  ⟨prodOf (d.fmtA.toNat, d.scaleA.toNat) b d.tau.toNat d.eps.toNat, prodOf p b d.tau.toNat d.eps.toNat, d.seed, p.1, p.2⟩

/-- V of a training operation. -/
def OpDesc.trainV (d : OpDesc) : Tens := d.tensX d.addrX d.fmtB.toNat d.scaleB.toNat d.m (128 * d.n)

/-- The first rows of the sequences of a training step, in order: the work items of HEADS (R169). -/
def trainSeqs (e : Env) : List Nat := ((List.range e.d.m).map (seqStart e)).eraseDups

def attnTrainWork (e : Env) : Work :=
  let d := e.d
  let a := trainKind d
  let qs := (d.tensA d.m (128 * d.g)).all e.s e.cl
  let ks := (d.tensB d.m (128 * d.n)).all e.s e.cl
  let vs := d.trainV.all e.s e.cl
  let perHead := d.g / d.n
  let seqs := trainSeqs e
  let part (m : List (List Num)) (r h : Nat) : List Num := ((m.getD r []).drop (128 * h)).take 128
  let outs := (List.range d.m).flatMap (fun r =>
    let start := seqStart e r
    (List.range d.g).map (fun h =>
      let kv := h / perHead
      let run := (trainBlocks (Config.trainCut start) start r).foldl (fun (run : HeadRun) l =>
        run.block a (part qs r h) (l.map (fun x => part ks x kv)) (l.map (fun x => part vs x kv))) {}
      (r, h, run)))
  let rows := outs.map (fun (r, h, run) => (r, h, run.finish.1, run.soft.m, run.soft.l))
  let (ws, wc) := storeTensor e.cl (d.tensD d.m (128 * d.g)) d.plainCtl 0 (asNums (headRows d.m d.g rows))
  let place (r h : Nat) : Nat × Nat :=
    let item := (seqs.findIdx (· == seqStart e r)) * d.n + h / perHead
    let total := seqs.length * d.n
    let i := partOfItem item total e.cl.length
    (i, (item - partStart i total e.cl.length) % 4)
  { reads := (d.tensA d.m (128 * d.g)).reads e.s e.cl ++ (d.tensB d.m (128 * d.n)).reads e.s e.cl ++ d.trainV.reads e.s e.cl
      ++ (List.range d.m).map (fun r => ⟨wordAddr d.p0 + 16 * (r * d.g) + 12, 4⟩)
    writes := ws ++ rows.map (fun x =>
      ⟨wordAddr d.p0 + 16 * (x.1 * d.g + x.2.1), leBytes 4 x.2.2.2.1.toNat ++ leBytes 4 x.2.2.2.2.toNat, false⟩)
    counts := outs.foldl (fun c x => c.add x.2.2.finish.2) wc
    checks := outs.map (fun x => ⟨(place x.1 x.2.1).1, x.2.2.made, x.2.2.skipped⟩)
    bad := outs.flatMap (fun x =>
      let mates := outs.filter (fun y => seqStart e y.1 == seqStart e x.1 && y.2.1 / perHead == x.2.1 / perHead)
      x.2.2.failing (place x.1 x.2.1) (mates.findIdx (fun y => y.1 == x.1 && y.2.1 == x.2.1)) mates.length) }

def attnTrain (p : PartId) (h : List HwFault) (s : State) : State := opCommand p h (isOp 0x0F) attnTrainWork s
def execAttnTrain (p : PartId) (h : List HwFault) (s : State) : Out := done s (attnTrain p h)

/-- ATTN_BACKWARD: dQ to D, dK to PARAM2 and dV to PARAM3; the manual states no order of summation, so the results are unstated
functions of the operands (DESIGN CHOICE: notes/assumptions/16.md), and no verdict of a row comes from them. -/
def attnBackwardWork (e : Env) : Work :=
  let d := e.d
  let nq := d.m * (128 * d.g)
  let nk := d.m * (128 * d.n)
  let grad (w : W32) : Tens := d.tensX w d.fmtD.toNat d.scaleD.toNat d.m (128 * d.n)
  let ins := [d.tensA d.m (128 * d.g), d.tensB d.m (128 * d.n), d.trainV, d.tensX d.p1 d.fmtA.toNat d.scaleA.toNat d.m (128 * d.g)]
  let reads := ins.flatMap (·.reads e.s e.cl) ++ [⟨wordAddr d.p0, 16 * d.m * d.g⟩]
  ((({ reads := reads } : Work).and [] (storeTensor e.cl (d.tensD d.m (128 * d.g)) d.plainCtl 0 (asNums (unstatedRows e reads 0 d.m (128 * d.g))))).and []
    (storeTensor e.cl (grad d.p2) d.plainCtl 0 (asNums (unstatedRows e reads nq d.m (128 * d.n))))).and []
    (storeTensor e.cl (grad d.p3) d.plainCtl 0 (asNums (unstatedRows e reads (nq + nk) d.m (128 * d.n))))

def attnBackward (p : PartId) (h : List HwFault) (s : State) : State := opCommand p h (isOp 0x10) attnBackwardWork s
def execAttnBackward (p : PartId) (h : List HwFault) (s : State) : Out := done s (attnBackward p h)

end Sys2Proof.Machine
end

