-- ==== Sys2Proof/Machine/Marks.lean ====
section
/-! DEFINITION. Mark units, marks, waits and gangs, and the Lookout (R290 to R306).
Rests on the log entries (notes/assumptions/<n>.md) 21 (DEDUCED), 35 (DEDUCED). -/
namespace Sys2Proof.Machine

/-! ### Kinds and operations (R291, R292) -/

/-- A mark operation is permitted on a kind: 0 ADD, 1 SET, 2 ARRIVE, 3 RESET. -/
def markPermits (k : MarkKind) (op : Nat) : Bool :=
  match k with
  | .counter => op == 0 || op == 1 || op == 3
  | .barrier => op == 2 || op == 3
  | .gang => false

/-- A wait is permitted on a kind: 0 AT_LEAST, 1 ARRIVE, 2 TAKE. -/
def waitPermits (k : MarkKind) (mode : Nat) : Bool :=
  match mode with
  | 0 => true
  | 1 => k == .barrier
  | 2 => k == .counter
  | _ => false

/-- A value has reached a target: (VALUE − t) mod 2^32 is below 2^31. -/
def reached (value t : W32) : Bool := decide ((value - t).toNat < 2 ^ 31)

/-- The running step of a context, with the partition that runs it. -/
def runningStep (s : State) (c : Nat) : Option (Nat × Step) :=
  s.parts.findSome? (fun (p, q) => q.step.bind (fun t => if t.ctx.val = c then some (p, t) else none))

/-- The Reckoner at the unit of a mark (R301, R339). -/
def markNow (s : State) (k : Nat) : W64 := instanceNow s (unitAt (k / 128))

/-- The record of a change of a mark made by a context: the operation index and step it stands at (R301). -/
def changeBy (s : State) (k : Nat) (c : CtxId) (op : Byte) : MarkChange :=
  match runningStep s c.val with
  | some (_, t) => ⟨markNow s k, BitVec.ofNat 8 c.val, op, BitVec.ofNat 16 t.op, t.number⟩
  | none => ⟨markNow s k, BitVec.ofNat 8 c.val, op, 0xFFFF, 0xFFFFFFFF⟩

/-- The record of a change by its sender (R301). -/
def changeOf (s : State) (k : Nat) (src : MarkSrc) (op : Byte) : MarkChange :=
  match src with
  | .context c => changeBy s k c op
  | .host => { time := markNow s k, source := 0xFE, op := op }
  | .firmware => { time := markNow s k, source := 0xFD, op := op }

/-- A context maps a physical mark. -/
def mapsMark (s : State) (c k : Nat) : Bool :=
  match s.ctx c with
  | some x => x.vmarks.any (fun e => e.2.val == k)
  | none => false

/-- Contexts that map a mark. -/
def mappers (s : State) (k : Nat) : List Nat := s.ctxs.keys.filter (fun c => mapsMark s c k)

/-- A mark reserved for firmware (R290). -/
def firmwareMark (k : Nat) : Bool := decide (k % 128 < 16)

/-- A message of a context's Navigator to a mark, with a mode: 0 to 3 of an operation, 16 to 18 of a wait. -/
def msgOf (s : State) (c : CtxId) (k mode : Nat) (m : Message) : Bool :=
  (runningStep s c.val).any (fun x => x.1 == m.part.val) && (match m.body with
    | .signal j x _ => j.val == k && x.toNat == mode
    | .ack => false
    | .wake => false)

/-- The sender of an operation with a mode can name the mark: a context that maps it, or whose message was translated before its mapping went
(R290, R296, R298). -/
def sends (s : State) (k mode : Nat) : MarkSrc → Bool
  | .context c => mapsMark s c.val k || s.net.fabric.any (msgOf s c k mode)
  | .host => !(mappers s k).isEmpty
  | .firmware => firmwareMark k

/-! ### Waiters (R292) -/

/-- The record of the subtraction of a TAKE, with the operation index and step of its wait (R301). -/
def takenBy (s : State) (k : Nat) (w : Waiter) : MarkChange :=
  match w.ended with
  | some (op, step) => ⟨markNow s k, BitVec.ofNat 8 w.ctx.val, 4, op, step⟩
  | none => changeBy s k w.ctx 4

/-- One pass over the waiters in order of registration: the mark, the waiters that stay, those woken, and whether a TAKE has
been met that cannot be served. -/
def wakePass (s : State) (k : Nat) (m : Mark) : Mark × List Waiter :=
  let r := m.waiters.foldl (fun (acc : Mark × List Waiter × List Waiter × Bool) w =>
    let (m, left, woken, stopped) := acc
    match w.mode with
    | .take =>
      if !stopped && decide (w.target ≤ m.value) then
        ({ m with value := m.value - w.target, last := takenBy s k w }, left, woken ++ [w], false)
      else (m, left ++ [w], woken, true)
    | .gang => (m, left ++ [w], woken, stopped)
    | .atLeast => if reached m.value w.target then (m, left, woken ++ [w], stopped) else (m, left ++ [w], woken, stopped)
    | .arrive => if reached m.value w.target then (m, left, woken ++ [w], stopped) else (m, left ++ [w], woken, stopped))
    (m, [], [], false)
  ({ r.1 with waiters := r.2.1 }, r.2.2.1)

/-- The waiters examined after a change; each subtraction of a TAKE is a change of its own, so they are examined again until
none is woken. -/
def examine (s : State) (k : Nat) : Nat → Mark → List Waiter → Mark × List Waiter
  | 0, m, woken => (m, woken)
  | n + 1, m, woken =>
    match wakePass s k m with
    | (m, []) => (m, woken)
    | (m, w) => examine s k n m (woken ++ w)

/-- A mark put back after a change, its waiters examined and the wakes sent; the wake of a wait whose step has ended finds no one. -/
def putMark (k : Nat) (m : Mark) (s : State) : State :=
  let (m, woken) := examine s k (m.waiters.length + 1) m []
  let ps := (woken.filter (fun w => w.ended.isNone)).filterMap (fun w => (runningStep s w.ctx.val).map (fun (p, _) => asPart p))
  ps.foldl (fun s p => sendMsg p (k / 128) .wake s) { s with marks := s.marks.put k m }

/-- An operation applied to a mark (R292): 0 ADD, 1 SET, 2 ARRIVE, 3 RESET; the record names its sender. -/
def applyMark (k op : Nat) (v : W32) (src : MarkSrc) (s : State) : State :=
  let m := s.mark k
  let last := changeOf s k src (BitVec.ofNat 8 op)
  match op with
  | 0 => putMark k { m with value := m.value + v, last := last } s
  | 1 => putMark k { m with value := v, last := last } s
  | 2 =>
    if m.count + 1 = m.target then putMark k { m with count := 0, value := m.value + 1, last := last } s
    else putMark k { m with count := m.count + 1, last := last } s
  | _ => putMark k { m with value := 0, count := 0, last := last } s

/-! ### Gangs (R303, R304) -/

/-- The start time of a release made now: the first multiple of PERIOD at least 1 µs later (R303). -/
def gangStartTime (s : State) (k period : Nat) : W64 :=
  BitVec.ofNat 64 (((markNow s k).toNat + 4000 + period - 1) / period * period)

/-- A gang whose arrivals have reached TARGET is released: every waiting member holds until the start time. While routes change nothing is released
(R285). -/
def gangCheck (k : Nat) (s : State) : State :=
  let m := s.mark k
  if m.target = 0 || decide (m.count < m.target) || s.wafer.stopped then s
  else
    let start := gangStartTime s k m.period
    let s := putMark k { m with value := m.value + 1, count := 0, arrived := [], last := { time := markNow s k, source := 0xFD, op := 5 }, waiters := m.waiters.filter (fun w => decide (w.mode ≠ .gang)) } s
    { s with parts := s.parts.mapVal (fun _ q => { q with step := q.step.map (fun t =>
        if m.members.contains t.ctx && decide (t.phase = .gangWait) then { t with phase := .gangHold start } else t) }) }

/-- A member arrives, at most once in a generation, and its Navigator waits (R303, R304); while routes change its arrival waits at the local port
(R285). -/
def gangArrive (k : Nat) (c : CtxId) (s : State) : State :=
  let m := s.mark k
  if !m.members.contains c || s.wafer.stopped then s
  else
    let m := if m.waiters.any (fun w => w.ctx == c && decide (w.mode = .gang)) then
        { m with waiters := m.waiters.map (fun w => if w.ctx = c && decide (w.mode = .gang) then { w with ended := none } else w) }
      else { m with waiters := m.waiters ++ [{ ctx := c, mode := .gang, target := m.value + 1, since := markNow s k }] }
    let m := if m.arrived.contains c then m
      else { m with arrived := m.arrived ++ [c], count := m.count + 1, last := changeBy s k c 2 }
    gangCheck k (updCtx c.val (fun x => { x with quietSince := s.now }) { s with marks := s.marks.put k m })

/-- A member leaves: TARGET falls, its arrival is withdrawn, and a step of it that waits goes on (R304). -/
def gangRemove (k : Nat) (c : CtxId) (s : State) : State :=
  let m := s.mark k
  if !m.members.contains c then s
  else
    let m := { m with
      members := m.members.filter (· ≠ c), target := m.target - 1
      count := if m.arrived.contains c then m.count - 1 else m.count
      arrived := m.arrived.filter (· ≠ c)
      waiters := m.waiters.filter (fun w => !(w.ctx == c && decide (w.mode = .gang))) }
    let s := updCtx c.val (fun x => { x with gang := none }) { s with marks := s.marks.put k m }
    let s := match runningStep s c.val with
      | some (p, _) => updStep p (fun t => if t.phase = .gangWait then { t with phase := .between } else t) s
      | none => s
    gangCheck k s

/-- The waits a context has registered are removed; its arrivals stand (R300). -/
def dropWaits (c : CtxId) (s : State) : State :=
  { s with marks := s.marks.mapVal (fun _ m => { m with waiters := m.waiters.filter (fun w => w.ctx ≠ c) }) }

/-- The waits of a context whose step has failed and halted it stay registered, with their operation and step (R300, R301). -/
def outliveWaits (t : Step) (s : State) : State :=
  { s with marks := s.marks.mapVal (fun _ m => { m with waiters := m.waiters.map (fun w =>
      if w.ctx = t.ctx && w.ended.isNone then { w with ended := some (BitVec.ofNat 16 t.op, t.number) } else w) }) }

/-- What is on its way to or from a Navigator is of no more use: its step has ended. -/
def dropMessages (p : Nat) (s : State) : State :=
  let other (m : Message) : Bool := decide (m.part.val ≠ p)
  { s with net := { s.net with fabric := s.net.fabric.filter other, ports := s.net.ports.filter other, stuck := s.net.stuck.filter other } }

/-- The last mapping of a mark has gone: the mark is freed and cleared (R298). -/
def freeIfUnmapped (k : Nat) (s : State) : State :=
  if (mappers s k).isEmpty then { s with marks := s.marks.drop k } else s

/-- A mapping of a context is removed. -/
def unmapMark (c v : Nat) (s : State) : State :=
  match (s.ctx c).bind (·.vmarks.find v) with
  | none => s
  | some k => freeIfUnmapped k.val (updCtx c (fun x => { x with vmarks := x.vmarks.drop v }) s)

/-- Every mapping of a context removed, its membership ended and its waits removed (R300). -/
def leaveMarks (c : CtxId) (s : State) : State :=
  let s := match (s.ctx c.val).bind (·.gang) with
    | some k => gangRemove k.val c s
    | none => s
  let s := dropWaits c s
  match s.ctx c.val with
  | none => s
  | some x => x.vmarks.keys.foldl (fun s v => unmapMark c.val v s) s

/-! ### The firmware mark of an operation barrier (R290, R294) -/

/-- The firmware mark of a partition's operation barriers, in the unit nearest the lead cluster; which of the unit's sixteen
it is, the manual does not say (DEDUCED: notes/assumptions/21.md). -/
def barrierMark (s : State) (p : Nat) : Nat := 128 * nearestUnit (leadSite s p) + p

/-! ### Commands -/

/-- The message of a MARK_SIGNAL has reached its unit: its acknowledgement is sent (R292). -/
def acknowledge (k op : Nat) (v : W32) (src : MarkSrc) (s : State) : State :=
  match src with
  | .context c =>
    match runningStep s c.val with
    | none => s
    | some (p, _) =>
      match takeMsg (fun m => msgOf s c k op m && (match m.body with
        | .signal _ _ x => x == v
        | _ => false)) s with
      | some s => sendMsg (asPart p) (k / 128) .ack s
      | none => s
  | _ => s

/-- The operation of a source waits at a local port or before a failed link (R285). -/
def sourceWaits (k op : Nat) (src : MarkSrc) (s : State) : Bool :=
  match src with
  | .context c => msgWaits (msgOf s c k op) s
  | .host => s.wafer.stopped
  | .firmware => s.wafer.stopped

/-- An operation arrives at a unit. -/
def markOp (k : MarkId) (op : Nat) (v : W32) (src : MarkSrc) (s : State) : State :=
  if sends s k.val op src && markPermits (s.mark k.val).kind op && !sourceWaits k.val op src s then
    acknowledge k.val op v src (applyMark k.val op v src s)
  else s

/-- A mark whose state has an uncorrectable error: an error of class 0x05 for every context that maps it, with a step of it that runs or none, at
its unit's position; no operation on it has an effect until it is freed (R384). -/
def markLost (k : Nat) (s : State) : State :=
  let at_ := posSite (unitAt (k / 128))
  let u : UnitRef := ⟨0x00, xyByte at_.1, xyByte at_.2, BitVec.ofNat 16 (k % 128), 0, 0⟩
  (mappers s k).foldl (fun s c =>
    match runningStep s c with
    | some (p, _) => stepError 0x05 u p s
    | none => detect 0x05 u { ctx := BitVec.ofNat 8 c } s) { s with marks := s.marks.put k { s.mark k with bad := true } }

/-- An operation on a mark, with what its SEC-DED code finds: a correctable error is corrected. -/
def readMark (k : MarkId) (found : Option EccKind) (act : State → State) (s : State) : State :=
  if (s.mark k.val).bad || found = some .uncorrectable then markLost k.val s else act s

def execMarkAdd (k : MarkId) (v : W32) (src : MarkSrc) (found : Option EccKind) (s : State) : Out := .next (readMark k found (markOp k 0 v src) s)
def execMarkSet (k : MarkId) (v : W32) (src : MarkSrc) (found : Option EccKind) (s : State) : Out := .next (readMark k found (markOp k 1 v src) s)
def execMarkReset (k : MarkId) (src : MarkSrc) (found : Option EccKind) (s : State) : Out := .next (readMark k found (markOp k 3 0 src) s)

/-- An ARRIVE: of a barrier by its sender, or of a gang by a member whose step waits (R292, R303). -/
def arriveMark (k : MarkId) (src : MarkSrc) (s : State) : State :=
  match (s.mark k.val).kind, src with
  | .gang, .context c =>
    match runningStep s c.val with
    | some (_, t) => if t.phase = .gangWait then gangArrive k.val c s else s
    | none => s
  | _, _ => markOp k 2 0 src s

def execMarkArrive (k : MarkId) (src : MarkSrc) (found : Option EccKind) (s : State) : Out := .next (readMark k found (arriveMark k src) s)

/-- A wait arrives at a unit: it is registered, an ARRIVE wait arrives too, and the waiters are examined, so a wait that is
satisfied is woken at once (R292). -/
def markWaits (k : MarkId) (mode : Nat) (t : W32) (c : CtxId) (s : State) : State :=
  let m := s.mark k.val
  if !(sends s k.val (16 + mode) (.context c) && waitPermits m.kind mode) || sourceWaits k.val (16 + mode) (.context c) s then s
  else
    let w : Waiter := match mode with
      | 0 => { ctx := c, mode := .atLeast, target := t, since := markNow s k.val }
      | 1 => { ctx := c, mode := .arrive, target := m.value + 1, since := markNow s k.val }
      | _ => { ctx := c, mode := .take, target := t, since := markNow s k.val }
    let s := (takeMsg (msgOf s c k.val (16 + mode)) s).getD s
    let s := updCtx c.val (fun x => { x with quietSince := s.now }) { s with marks := s.marks.put k.val { m with waiters := m.waiters ++ [w] } }
    if mode = 1 then applyMark k.val 2 0 (.context c) s else putMark k.val (s.mark k.val) s

def execMarkWaitAtLeast (k : MarkId) (t : W32) (c : CtxId) (found : Option EccKind) (s : State) : Out := .next (readMark k found (markWaits k 0 t c) s)
def execMarkWaitArrive (k : MarkId) (c : CtxId) (found : Option EccKind) (s : State) : Out := .next (readMark k found (markWaits k 1 0 c) s)
def execMarkWaitTake (k : MarkId) (t : W32) (c : CtxId) (found : Option EccKind) (s : State) : Out := .next (readMark k found (markWaits k 2 t c) s)

/-- The operation that a Navigator holds has ended on every cluster; its barrier follows. -/
def opDone (p : Nat) : State → State := updStep p (fun t => { t with phase := .running, done := true })

/-- A wake reaches the Navigator: its MARK_WAIT ends (R293). -/
def wakeDelivered (p : PartId) (s : State) : State :=
  match s.stepOf p.val with
  | some t =>
    if t.phase = .waiting then
      match takeMsg (fun m => m.part == p && m.body == .wake) s with
      | some s => opDone p.val s
      | none => s
    else s
  | none => s

def execMarkWakeDelivered (p : PartId) (s : State) : Out := .next (wakeDelivered p s)

/-- An acknowledgement reaches the Navigator: its MARK_SIGNAL ends (R293). -/
def ackDelivered (p : PartId) (s : State) : State :=
  match s.stepOf p.val with
  | some t =>
    if t.phase = .signalling then
      match takeMsg (fun m => m.part == p && m.body == .ack) s with
      | some s => opDone p.val s
      | none => s
    else s
  | none => s

def execMarkAckDelivered (p : PartId) (s : State) : Out := .next (ackDelivered p s)

/-- A partition's Navigator has reached a Reckoner value. -/
def navigatorAt (p : Nat) (t : W64) (s : State) : Bool := decide (t.toNat ≤ (instanceNow s (sitePos (leadSite s p))).toNat)

/-- At S by its own Reckoner a gang member's Navigator hands operation 0 to its S-cores (R303). -/
def gangStarts (p : PartId) (s : State) : State :=
  updStep p.val (fun t => match t.phase with
    | .gangHold x => if navigatorAt p.val x s then { t with phase := .between } else t
    | _ => t) s

def execGangStart (p : PartId) (s : State) : Out := .next (gangStarts p s)

/-! ### The Lookout (R305, R306, R474) -/

/-- An entry of a Lookout record for an engine that waits on a mark. -/
def lookoutEntry (s : State) (score : Bool) (cluster v k mode : Nat) (target : W32) : LookoutEntry :=
  let m := s.mark k
  { score := score, cluster := BitVec.ofNat 8 cluster, vmark := BitVec.ofNat 16 v, phys := BitVec.ofNat 16 k
    mode := BitVec.ofNat 8 mode, source := m.last.source, target := target, value := m.value, lastTime := m.last.time }

/-- The number of a kind of wait (R302). -/
def WaitMode.code : WaitMode → Nat
  | .atLeast => 0 | .arrive => 1 | .take => 2 | .gang => 3

/-- A partition has no message under way. -/
def netQuiet (s : State) (p : Nat) : Bool := !(s.net.fabric ++ s.net.ports ++ s.net.stuck).any (fun m => m.part.val == p)

/-- The engines of a quiet context that wait on marks: the Navigator in a MARK_WAIT or a gang wait, which lasts until S, or the S-cores that have
arrived at an operation barrier. -/
def waitingEngines (s : State) (c : CtxId) : List LookoutEntry :=
  match runningStep s c.val, s.ctx c.val with
  | some (p, t), some x =>
    let lead := (s.part p).elim 0 (fun q => q.clusters.headD 0)
    if !netQuiet s p then []
    else if t.phase = .waiting || t.phase = .gangWait then
      (s.marks.flatMap (fun (k, m) => (m.waiters.filter (fun w => w.ctx == c && w.ended.isNone)).map (fun w =>
        lookoutEntry s false lead ((x.vmarks.find? (fun e => e.2.val == k)).elim 0xFFFF (·.1)) k w.mode.code w.target))).take 1
    else if (match t.phase with
        | .gangHold _ => true
        | _ => false) then
      x.gang.toList.map (fun k => lookoutEntry s false lead ((x.vmarks.find? (fun e => e.2 == k)).elim 0xFFFF (·.1)) k.val WaitMode.gang.code
        (s.mark k.val).value)
    else if t.phase = .running && t.done && !t.complete then
      t.arrived.map (fun n => lookoutEntry s true n 0xFFFF (barrierMark s p) 1 ((s.mark (barrierMark s p)).value + 1))
    else []
  | _, _ => []

/-- A context that has waited quietly for its whole window (R305): a record is made, once for an episode, unless one is still
held. -/
def lookoutMakes (c : CtxId) (s : State) : State :=
  match runningStep s c.val, s.ctx c.val with
  | some (p, t), some x =>
    let es := waitingEngines s c
    if es.isEmpty || x.episode || decide (s.since x.quietSince < x.lookoutMs * (ticksPerSecond / 1000)) then s
    else if x.lookout.isSome then updCtx c.val (fun x => { x with overdue := true }) s
    else
      let r : LookoutRec :=
        { ctx := BitVec.ofNat 8 c.val, part := BitVec.ofNat 8 p, missed := 0, step := t.number, op := BitVec.ofNat 32 t.op
          quietSince := x.quietSince, recorded := instanceNow s (sitePos (leadSite s p)), entries := es.take 100 }
      let s := updCtx c.val (fun x => { x with lookout := some r, episode := true, lookoutOn := true }) s
      sendRecord (.lookout r ((r.entries.length + 39) / 40)) (raise 0 evLookout s)
  | _, _ => s

def execLookoutRecord (c : CtxId) (s : State) : Out := done s (lookoutMakes c)

/-- An episode ends: an operation of the context ends or the context is reset (R305). One that ended while a record was held
is counted in that record. -/
def episodeEnds (c : Nat) (s : State) : State :=
  updCtx c (fun x => { x with
    lookoutOn := false, episode := false, overdue := false, quietSince := s.now
    lookout := if x.overdue then x.lookout.map (fun r => { r with missed := if r.missed = 0xFF then r.missed else r.missed + 1 }) else x.lookout }) s

end Sys2Proof.Machine
end

