-- ==== Sys2Proof/Machine/Mirror.lean ====
section
/-! DEFINITION. A context's state as bytes: sequence-table entries, directory and map entries, mark states, audit slots and the
context record; the mirror points that carry them; the digests of a locked pair; and what a module does with copied data
(R192, R201, R432, R439, R442, R451).
Rests on the log entries (notes/assumptions/<n>.md) 22 (DEDUCED), 33 (DEDUCED), 34 (DEDUCED), 36 (DEDUCED), 46 (DEDUCED). -/
namespace Sys2Proof.Machine

/-! ### Sequence-table entries (R192, R193) -/

def SeqState.code : SeqState → Nat
  | .prefill => 1 | .decode => 2 | .stopped => 3 | .lost => 4

def seqStateOf (n : Nat) : Option SeqState :=
  match n with
  | 1 => some .prefill | 2 => some .decode | 3 => some .stopped | 4 => some .lost | _ => none

/-- The 64 bytes of an entry. -/
def Seq.bytes (q : Seq) : List Byte :=
  leBytes 1 q.state.code ++ leBytes 1 q.ctx.val ++ [q.tokenRing, q.stopSet] ++ leBytes 4 q.length ++ leBytes 4 q.promptLen
    ++ leBytes 4 q.prefilled ++ leBytes 4 q.maxLen ++ leBytes 4 q.generated ++ leBytes 4 q.dirBase ++ leBytes 2 q.dirSpan
    ++ [q.stopReason, 0] ++ leBytes 4 q.promptAddr.toNat ++ leBytes 4 q.lastToken.toNat ++ leBytes 4 q.temp.toNat
    ++ leBytes 4 q.topP.toNat ++ leBytes 2 q.topK ++ [0, 0] ++ leBytes 4 q.seed.toNat ++ leBytes 8 q.hostTag.toNat

/-- An entry from its 64 bytes; none for a free slot. -/
def seqOfBytes (c : CtxId) (bs : List Byte) : Option Seq :=
  let w (o n : Nat) : Nat := leNat ((bs.drop o).take n)
  (seqStateOf (w 0 1)).map (fun st =>
    { state := st, ctx := c, tokenRing := bs.getD 2 0, stopSet := bs.getD 3 0, length := w 4 4, promptLen := w 8 4
      prefilled := w 0xC 4, maxLen := w 0x10 4, generated := w 0x14 4, dirBase := w 0x18 4, dirSpan := w 0x1C 2
      stopReason := bs.getD 0x1E 0, promptAddr := BitVec.ofNat 32 (w 0x20 4), lastToken := BitVec.ofNat 32 (w 0x24 4)
      temp := BitVec.ofNat 32 (w 0x28 4), topP := BitVec.ofNat 32 (w 0x2C 4), topK := w 0x30 2
      seed := BitVec.ofNat 32 (w 0x34 4), hostTag := BitVec.ofNat 64 (w 0x38 8)
      finalSent := st == .stopped || st == .lost })

/-- A directory entry as a word (R201). -/
def DirEntry.word (d : DirEntry) : Nat := 2 ^ 31 + (if d.sealedP then 2 ^ 30 else 0) + d.page

def MarkKind.code : MarkKind → Nat
  | .counter => 0 | .barrier => 1 | .gang => 2

def markKindOf (n : Nat) : MarkKind := match n with | 0 => .counter | 1 => .barrier | _ => .gang

/-! ### Objects of copy traffic (R432) -/

/-- Objects beyond those of Pages.lean. -/
def objDir : Byte := 0x04
def objPool : Byte := 0x05
def objMark : Byte := 0x06
def objAudit : Byte := 0x07
def objContext : Byte := 0x08
def objProgram : Byte := 0x09

/-- The context record and the audit slot, whose layouts the manual does not give (DEDUCED: notes/assumptions/22.md). -/
def contextRecord (s : State) (c : Nat) (k : Context) : List Byte :=
  let kv := k.kv.getD ⟨0, 0, false, 0, 0, 0⟩
  leBytes 1 kv.layers ++ leBytes 1 kv.heads ++ leBytes 1 (if k.kv.isNone then 0 else if kv.fp8 then 2 else 1) ++ leBytes 1 kv.perPage
    ++ leBytes 4 kv.pool ++ leBytes 4 kv.table.toNat ++ leBytes 2 k.audit.rate ++ leBytes 2 k.audit.kStep ++ leBytes 2 k.audit.window
    ++ leBytes 2 (if k.audit.back then 1 else 0) ++ leBytes 4 k.audit.missHigh.toNat ++ leBytes 4 k.audit.missLow.toNat
    ++ leBytes 4 k.audit.kMax ++ leBytes 4 k.audit.seed.toNat ++ leBytes 4 k.quota
    ++ leBytes 4 (k.begun - if (runningStep s c).isSome then 1 else 0)

def AuditSlot.bytes (a : AuditSlot) : List Byte := leBytes 4 a.extra ++ leBytes 4 (if a.dense then 1 else 0)

/-- A mark's state: KIND, VALUE, COUNT, TARGET. -/
def Mark.bytes (m : Mark) : List Byte := leBytes 4 m.kind.code ++ leBytes 4 m.value.toNat ++ leBytes 4 m.count.toNat ++ leBytes 4 m.target.toNat

/-- A piece of copied data: object, address, bytes. -/
abbrev Piece := Byte × Nat × List Byte

/-- The form tags of a row's words (R245). -/
def rowTags (s : State) (r : Nat) : List (Fin 64) := (List.finRange 64).filter (fun i => s.memForms.contains (64 * r + i.val))

/-- A shared-store row. -/
def rowPiece (s : State) (r : Nat) : Piece := (objRow, 4096 * r, s.ssRead (4096 * r) 4096)

/-- The KV bytes of a position, layer and slot, with their scales, piece by piece as they lie in the page. -/
def kvPieces (s : State) (k : Context) (c : KvConfig) (x : Nat × Nat × Nat) : List Piece :=
  (List.range c.heads).flatMap (fun h =>
    match pageOf s c x.1 x.2.1 (h / c.perPage) x.2.2 with
    | none => []
    | some (_, page) =>
      match pageAddr k page with
      | none => []
      | some addr =>
        let slot := h % c.perPage * c.slotBytes
        [false, true].flatMap (fun v =>
          let (o, sc) := kvOffsets c v (x.2.2 % 64)
          let piece (off n : Nat) : Piece := (objPage, page * 65536 + slot + off, s.dimmRead (addr + slot + off) n)
          if c.fp8 then [piece o 128] else [piece o 64, piece sc 4]))

/-- The bytes of a page from an address on, in pieces that fit a frame (R431; DEDUCED: notes/assumptions/46.md); of an uncorrectable burst nothing is
delivered (R311). -/
def pagePieces (s : State) (a address n : Nat) : List Piece :=
  (List.range ((n + 2047) / 2048)).filterMap (fun i =>
    let k := min 2048 (n - 2048 * i)
    if dimmReads s (a + 2048 * i) k then some (objPage, address + 2048 * i, s.dimmRead (a + 2048 * i) k) else none)

/-- The summary of a page, where it reads (R311). -/
def summaryPiece (s : State) (k : Context) (page : Nat) : List Piece :=
  match summaryAddr k page with
  | some a => if dimmReads s a 1024 then [(objSummary, page, s.dimmRead a 1024)] else []
  | none => []

/-- What the context's tables hold. -/
def tablePieces (s : State) (c : Nat) (k : Context) : List Piece :=
  k.freedSlots.map (fun n => (objSeq, n, leBytes 64 0))
    ++ (s.seqs.select (fun _ q => q.ctx.val == c)).map (fun (n, q) => (objSeq, n, q.bytes))
    ++ (s.seqs.select (fun _ q => q.ctx.val == c)).flatMap (fun (_, q) =>
        (seqEntries s q).filterMap (fun e => (s.dir.find e).map (fun d => (objDir, e, leBytes 4 d.word))))
    ++ k.pool.map (fun (b, p) => (objPool, b, leBytes 4 p.chan ++ leBytes 4 p.frame))
    ++ k.vmarks.map (fun (v, m) => (objMark, v, (s.mark m.val).bytes))
    ++ k.slots.map (fun (n, a) => (objAudit, n, a.bytes))
    ++ [(objContext, 0, contextRecord s c k)]

/-- The step programs of a context. -/
def programPieces (s : State) (k : Context) : List Piece :=
  k.programs.flatMap (fun (h, g) => (List.range g.count).map (fun i => (objProgram, h * 65536 + i, s.ssRead (g.base + 64 * i) 64)))

/-! ### Mirror points (R442, R443) -/

/-- A piece as a frame's payload; a row takes its form tags with it. -/
def pieceBody (s : State) (point : W32) (x : Piece) : DataBody :=
  ⟨point, x.1, BitVec.ofNat 64 x.2.1, x.2.2, if x.1 = objRow then rowTags s (x.2.1 / 4096) else []⟩

/-- A mirror point of a context is made and sent: dirty rows, the positions and pages the completed step committed, and the
tables. -/
def mirrorPoint (c : Nat) (kv : List (Nat × Nat × Nat)) (pages : List Nat) (s : State) : State :=
  match s.ctx c with
  | none => s
  | some k =>
    if !(isPrimary s && decide (s.pair.mode = 2)) || decide (k.securing = .notSecured) then s
    else
      let n := k.point + 1
      let xs := k.dirty.map (rowPiece s)
        ++ (match k.kv with
            | some g => kv.flatMap (kvPieces s k g) ++ pages.flatMap (summaryPiece s k)
            | none => [])
        ++ tablePieces s c k
      let point := BitVec.ofNat 32 n
      let s := xs.foldl (fun s x => sendFrame (.mirrorData (BitVec.ofNat 8 c) (pieceBody s point x)) s) s
      let s := sendFrame (.mirrorEnd (BitVec.ofNat 8 c) point (BitVec.ofNat 32 xs.length)) s
      updCtx c (fun k => { k with point := n, unsecured := k.unsecured ++ [(n, k.dirty)], dirty := [], freedSlots := [], changed := false }) s

/-- MIRROR_POINT_TIMER: 10 ms after the last point a context that has changed, with no step completed, makes one (R442). -/
def mirrorPointTimer (c : CtxId) (s : State) : State :=
  match s.ctx c.val with
  | some k => if k.changed then mirrorPoint c.val [] [] s else s
  | none => s

def execMirrorPointTimer (c : CtxId) (s : State) : Out := .next (mirrorPointTimer c s)

/-! ### What copied data becomes (R444, R446, R447) -/

/-- The program store: 256 MiB from the start of segment 96 (R269). -/
def programStart : Nat := 96 * segmentBytes
def programStoreBytes : Nat := 2 ^ 28

/-- Programs loaded, of every context. -/
def loadedPrograms (s : State) : List Program := s.ctxs.flatMap (fun (_, k) => k.programs.map (·.2))

/-- The lowest gap of the program store that n descriptors fit. -/
def programGap (s : State) (n : Nat) : Option Nat :=
  let ps := loadedPrograms s
  let free (a : Nat) : Bool :=
    decide (a + 64 * n ≤ programStart + programStoreBytes)
      && ps.all (fun g => decide (a + 64 * n ≤ g.base) || decide (g.base + 64 * g.count ≤ a))
  ((programStart :: ps.map (fun g => g.base + 64 * g.count)).filter free).foldl (fun b a =>
    match b with
    | none => some a
    | some x => some (min x a)) none

/-- The program store with its programs moved together, in order of context and handle. -/
def compactPrograms (s : State) : State :=
  let l := s.ctxs.flatMap (fun (c, k) => k.programs.map (fun (h, g) => (c, h, g)))
  let bytes := l.map (fun (c, h, g) => (c, h, g, s.ssRead g.base (64 * g.count)))
  (bytes.foldl (fun (acc : State × Nat) (c, h, g, bs) =>
    (updCtx c (fun k => { k with programs := k.programs.put h { g with base := acc.2 } }) (ssWrite acc.1 acc.2 bs), acc.2 + 64 * g.count))
    (s, programStart)).1

/-- A program of n descriptors stored under a handle in place of what the handle held; none where the store has no room for it
(R269). Where a program lies in the store nothing of the manual shows. -/
def placeProgram (c h n : Nat) (bytes : List Byte) (s : State) : Option State :=
  let s1 := updCtx c (fun k => { k with programs := k.programs.drop h }) s
  let used := (loadedPrograms s1).foldl (fun m g => m + 64 * g.count) 0
  if used + 64 * n > programStoreBytes then none
  else
    let s2 := if (programGap s1 n).isSome then s1 else compactPrograms s1
    (programGap s2 n).map (fun base => updCtx c (fun k => { k with programs := k.programs.put h ⟨base, n⟩ }) (ssWrite s2 base bytes))

/-- Descriptors of a program that arrive in a copy, from an index on. -/
def programCopy (c h i : Nat) (bytes : List Byte) (s : State) : State :=
  match s.ctx c with
  | none => s
  | some k =>
    let old := match k.programs.find h with
      | some g => (s.ssRead g.base (64 * min i g.count))
      | none => []
    (placeProgram c h ((old.length + bytes.length) / 64) (old ++ bytes) s).getD s

/-- A directory entry set from its word, the pool page it names in use. -/
def dirCopy (c e w : Nat) (s : State) : State :=
  let s := freeEntries c [e] s
  if w < 2 ^ 31 then s
  else
    updCtx c (fun k => { k with used := k.used.put (w % 2 ^ 27) ⟨e⟩ })
      { s with dir := s.dir.put e ⟨w % 2 ^ 27, w / 2 ^ 30 % 2 = 1⟩ }

/-- A mark's state set from its bytes. -/
def markCopy (k : Nat) (bs : List Byte) (s : State) : State :=
  let w (o : Nat) : Nat := leNat ((bs.drop o).take 4)
  let m := s.mark k
  { s with marks := s.marks.put k { m with kind := markKindOf (w 0), value := BitVec.ofNat 32 (w 4), count := BitVec.ofNat 32 (w 8), target := BitVec.ofNat 32 (w 12) } }

/-- A context's settings set from its record. -/
def contextCopy (bs : List Byte) (k : Context) : Context :=
  let w (o n : Nat) : Nat := leNat ((bs.drop o).take n)
  { k with
    kv := if w 2 1 = 0 then none else some ⟨w 0 1, w 1 1, w 2 1 = 2, w 3 1, w 4 4, BitVec.ofNat 32 (w 8 4)⟩
    audit := ⟨w 12 2, w 16 2, BitVec.ofNat 32 (w 20 4), BitVec.ofNat 32 (w 24 4), w 14 2, w 28 4, w 18 2 = 1, BitVec.ofNat 32 (w 32 4)⟩
    quota := w 36 4
    begun := w 40 4 }

/-- The audit windows of a context begin afresh, so that both modules decide at the same steps: a slot's EXTRA and DENSE are all that securing carries
of it (R243, R432; DEDUCED: notes/assumptions/33.md). -/
def Context.freshWindows (k : Context) : Context := { k with slots := k.slots.mapVal (fun _ a => { extra := a.extra, dense := a.dense }) }

/-- An entry of the primary's pool-block map: it is kept, and a block that this module's pool lacks, as one restored after a shortfall, takes the same
place here, where its channel has that frame free; the blocks that the pool has stay where this module has put them (R319, R439; DEDUCED:
notes/assumptions/46.md). -/
def poolCopied (c b : Nat) (p : Place) (s : State) : State :=
  let taken := s.ctxs.any (fun e => e.2.pool.any (fun x => x.2 == p)) || s.dimmWork.fenced.any (fun x => x.2 == p) || s.dimmWork.old.any (fun o => o.place == p)
  updCtx c (fun k => { k with
    poolCopy := k.poolCopy.put b p
    pool := if k.pool.has b || taken || !(chansInService s).contains p.chan then k.pool else k.pool.put b p }) s

/-- A piece of copied data put in its place in a context (R432). -/
def applyPiece (c : CtxId) (d : DataBody) (s : State) : State :=
  let addr := d.address.toNat
  let bytes := d.bytes
  match s.ctx c.val with
  | none => s
  | some k =>
    match d.object.toNat with
    | 0 =>
      if openTo s c addr bytes.length then
        let s := ssWrite s addr bytes
        { s with memForms := s.memForms ++ d.tags.map (fun i => addr / 64 + i.val) }
      else s
    | 1 => match pageAddr k (addr / 65536) with
      | some a => dimmWrite (a + addr % 65536) bytes s
      | none => s
    | 2 => (chunks 1024 (bytes.length / 1024) bytes).zipIdx.foldl (fun s (x, i) =>
        match summaryAddr k (addr + i) with
        | some a => dimmWrite a x s
        | none => s) s
    | 3 => (chunks 64 (bytes.length / 64) bytes).zipIdx.foldl (fun s (x, i) =>
        match seqOfBytes c x with
        | some q => { s with seqs := s.seqs.put (addr + i) q }
        | none => freeSeq (addr + i) s) s
    | 4 => (chunks 4 (bytes.length / 4) bytes).zipIdx.foldl (fun s (x, i) => dirCopy c.val (addr + i) (leNat x) s) s
    | 5 => (chunks 8 (bytes.length / 8) bytes).zipIdx.foldl (fun s (x, i) => poolCopied c.val (addr + i) ⟨leNat (x.take 4), leNat (x.drop 4)⟩ s) s
    | 6 => (chunks 16 (bytes.length / 16) bytes).zipIdx.foldl (fun s (x, i) =>
        match k.vmarks.find (addr + i) with
        | some m => markCopy m.val x s
        | none => s) s
    | 7 => updCtx c.val (fun k => { k with slots := (chunks 8 (bytes.length / 8) bytes).zipIdx.foldl (fun l (x, i) =>
        l.put (addr + i) { extra := leNat (x.take 4), dense := leNat (x.drop 4) % 2 = 1 }) k.slots }) s
    | 8 => updCtx c.val (contextCopy bytes) s
    | 9 => programCopy c.val (addr / 65536) (addr % 65536) bytes s
    | _ => s

/-! ### Digests (R451) -/

/-- CRC-64 of R451, one bit and one byte at a time. -/
def crcBit (c : W64) : W64 := if c.msb then (c <<< 1) ^^^ 0x42F0E1EBA9EA3693 else c <<< 1
def crcByte (c : W64) (b : Byte) : W64 :=
  (List.range 8).foldl (fun c _ => crcBit c) (c ^^^ ((b.setWidth 64) <<< 56))
def crc64 (bs : List Byte) : W64 := bs.foldl crcByte 0

/-- A token record's 32 bytes (R225). -/
def TokenRec.bytes (x : TokenRec) : List Byte :=
  leBytes 4 x.token.toNat ++ leBytes 2 x.slot.toNat ++ [x.reason] ++ leBytes 1 ((if x.final then 1 else 0) + (if x.noToken then 2 else 0))
    ++ leBytes 4 x.index.toNat ++ leBytes 4 x.logprob.toNat ++ leBytes 8 x.hostTag.toNat ++ leBytes 4 x.step.toNat ++ leBytes 4 0

def sum64 (l : List W64) : W64 := l.foldl (· + ·) 0

/-- The hash sum of the rows that a step wrote. -/
def digestShared (s : State) (rows : List Nat) : W64 :=
  sum64 (rows.flatMap (fun r => (List.range 64).map (fun i =>
    let a := 4096 * r + 64 * i
    crc64 (leBytes 5 a ++ s.ssRead a 64))))

/-- The hash sum of positions and head slots. -/
def digestKv (s : State) (k : Context) (xs : List (Nat × Nat × Nat)) : W64 :=
  match k.kv with
  | none => 0
  | some c =>
    sum64 (xs.flatMap (fun x => (List.range c.heads).map (fun h =>
      let head := leBytes 2 x.1 ++ leBytes 1 x.2.1 ++ leBytes 1 (h / c.perPage) ++ leBytes 4 x.2.2 ++ leBytes 1 (h % c.perPage) ++ leBytes 3 0
      let data := ((kvPieces s k c x).filter (fun y => y.2.1 % 65536 / c.slotBytes == h % c.perPage
        && (pageOf s c x.1 x.2.1 (h / c.perPage) x.2.2).any (fun e => e.2 == y.2.1 / 65536))).flatMap (·.2.2)
      crc64 (head ++ data))))

/-- The hash sum of sequence entries and of the marks whose last change the step made. -/
def digestState (s : State) (c : CtxId) (step : W32) (slots : List Nat) : W64 :=
  sum64 ((slots.filterMap (fun n => (s.seqs.find n).map (fun q => crc64 q.bytes)))
    ++ ((s.marks.select (fun _ m => m.last.source == BitVec.ofNat 8 c.val && m.last.step == step)).map (fun (n, m) =>
      crc64 (leBytes 2 n ++ leBytes 4 m.value.toNat ++ leBytes 4 m.count.toNat))))

end Sys2Proof.Machine
end

