-- ==== Sys2Proof/Machine/Sparsity.lean ====
section
/-! DEFINITION. Block routing: PREDICT with its audit, ROUTE and GROUPED_MATMUL (R227 to R241).
Rests on the log entries (notes/assumptions/<n>.md) 17 (DEDUCED), 32 (DEDUCED), 33 (DEDUCED). -/
namespace Sys2Proof.Machine

/-! ### Bitmaps and the block arrangement (R227, R228, R233, R234) -/

/-- Bytes of one record of a bitmap set for G blocks. -/
def recordBytes (g : Nat) : Nat := 64 * ceilDiv g 8

/-- Bytes of a bitmap set. -/
def bitmapBytes (m g : Nat) : Nat := ceilDiv m 64 * recordBytes g

/-- Bytes of a token list's slot. -/
def listStride (cap : Nat) : Nat := padTo 64 (64 + 8 * cap)

/-- The address of block g's slot. -/
def blockAddr (cl : List Nat) (off g total stride : Nat) : Nat :=
  let i := partOfItem g total cl.length
  cl.getD i 0 * segmentBytes + off + (g - partStart i total cl.length) * stride

/-- Bytes of a weight-tile grid. -/
def gridBytes (code scale k cols : Nat) : Nat := ceilDiv k 128 * ceilDiv cols 64 * weightTileBytes code scale

/-- Bytes of a slot of compact rows. -/
def compactBytes (code scale cap bw : Nat) : Nat := ceilDiv cap 64 * ceilDiv bw 64 * rowTileBytes code scale 64 64

/-- A row is live (R228). -/
def Env.live (e : Env) (r : Nat) : Bool := decide (r < e.t.rowCount)

/-! ### Products of one row -/

/-- A row of a product with a grid of blocks: its accumulator elements, N-block by N-block (R172). -/
def rowProduct (k : ProdKind) (blocks : List (List Block)) (n : Nat) (xs : List Num) : List AccBlock :=
  let parts := chunks 128 blocks.length xs
  (List.range (ceilDiv n 64)).map (fun nb =>
    ((parts.zip blocks).map (fun (x, bs) =>
      let b := bs.getD nb ⟨[], []⟩
      (⟨x, b.cols, b.sums⟩ : PassIn))).foldl (accPass k) (AccBlock.zero (min 64 (n - 64 * nb))))

/-- The counts of accumulator blocks whose words are the final values (R81, R82). -/
def accCounts (int32 : Bool) (l : List AccBlock) : Counts :=
  (finalCounts (l.flatMap (fun a => (a.words.zip a.sat).map (fun (w, x) => finalElem int32 false w x [] none)))).add
    { checkSkipped := (l.map (·.skipped)).foldl satAdd 0 }

def accWords (l : List AccBlock) : List W32 := l.flatMap (·.words)

/-- An accumulator word as FP32. -/
def accF32 (int32 : Bool) (w : W32) : W32 := if int32 then toF32 (Num.ofInt w.toInt) else w

/-! ### Gated elements (R237) -/

/-- ACT of R229 and R235. -/
def gated (act : Nat) (g u : W32) : W32 :=
  match act with
  | 0 => f32Mul (f32Silu g) u
  | 1 => f32Mul (f32Gelu g) u
  | _ => f32Mul (relu g) (relu g)

/-- Columns of a block's weights: gate and up, or gate only. -/
def gatedCols (act bw : Nat) : Nat := if act = 2 then bw else 2 * bw

/-- The gated elements of a row from its accumulator words. -/
def gatedRow (int32 : Bool) (act bw : Nat) (ws : List W32) : List W32 :=
  (List.range bw).map (fun n => gated act (accF32 int32 (ws.getD n 0)) (accF32 int32 (ws.getD (bw + n) 0)))

/-- A weight-tile grid at an address. -/
def gridTens (addr code scale k cols : Nat) : Tens := ⟨addr, 0, code, scale, k, cols, true⟩

/-- A weight-tile grid at an address, by K-block and N-block. -/
def gridBlocks (e : Env) (int32 : Bool) (addr code scale k cols : Nat) : List (List Block) :=
  blocksOf int32 128 cols ((gridTens addr code scale k cols).weights e.s e.cl)

/-! ### PREDICT (R229, R230) -/

def OpDesc.rank (d : OpDesc) : Nat := d.p0.toNat % 2048
def OpDesc.act (d : OpDesc) : Nat := d.p0.toNat / 4096 % 4
def OpDesc.ksel (d : OpDesc) : Nat := d.p0.toNat / 65536 % 256
def OpDesc.auditSlot (d : OpDesc) : Nat := d.p0.toNat / 2 ^ 24 % 128
def OpDesc.audit (d : OpDesc) : Bool := bit d.p0 31

/-- The blocks of a row in selection order with their scores: descending, ties to the lower number, NaN last. -/
def scoreOrder (scores : List W32) : List (Num × Nat) := ranked (scores.map ofF32)

/-- The first k blocks whose score is not below THRESH. -/
def selectBlocks (thresh : W32) (k : Nat) (order : List (Num × Nat)) : List Nat :=
  ((order.filter (fun x => (ofF32 thresh).le x.1)).take k).map (·.2)

/-- A bitmap set from each row's blocks (R227). -/
def bitmapSet (m g : Nat) (sel : List (List Nat)) : List Byte :=
  (List.range (ceilDiv m 64)).flatMap (fun r =>
    let rows := (sel.drop (64 * r)).take 64
    (List.range g).flatMap (fun b =>
      leBytes 8 (rows.zipIdx.foldl (fun n (l, i) => if l.contains b then n + 2 ^ i else n) 0))
      ++ List.replicate (recordBytes g - 8 * g) 0)

/-- The audit slot as the step found it. -/
def Env.slot (e : Env) : AuditSlot :=
  match e.s.ctx e.t.ctx.val with
  | some c => c.slots.getD e.d.auditSlot {}
  | none => {}

def Env.auditConfig (e : Env) : AuditConfig := ((e.s.ctx e.t.ctx.val).map (·.audit)).getD {}

/-- What the audit found of one row. -/
structure RowAudit where
  misses : Nat
  lost   : W32
  accs   : List AccBlock
  checks : List Checked
  bad    : List RowMiss

/-- What a PREDICT comes to: its work, and what the audit adds to its slot. -/
structure Prediction where
  work   : Work
  rows   : Nat := 0
  misses : Nat := 0
  ksel   : Nat := 0
  k      : Nat := 0

/-- m[g] of sampled row x of some and a block, the accumulators it came from, its comparisons, and its verdicts that were a mismatch (R241). -/
def blockMass (e : Env) (k : ProdKind) (x n : Nat) (xs : List Num) (g : Nat) (blocks : List (List Block)) : Num × List AccBlock × Checked × List RowMiss :=
  let d := e.d
  let accs := rowProduct k blocks (gatedCols d.act 128) xs
  let ys := gatedRow k.int32 d.act 128 (accWords accs)
  let i := partOfItem g d.g e.cl.length
  let first := partStart i d.g e.cl.length
  let units := 2 * (partStart (i + 1) d.g e.cl.length - first)
  let bad := accs.zipIdx.flatMap (fun y => missesAt (i, partOfItem (2 * (g - first) + y.2 % 2) units 4) x n false k y.1.misses)
  (Num.sum (ys.map (fun y => (ofF32 y).abs)), accs, ⟨i, (accs.map (·.made)).sum, (accs.map (·.skipped)).sum⟩, bad)

/-- The share of an exact sum that another is, as FP32; 0 when the whole is 0 (R241; DEDUCED: notes/assumptions/17.md). -/
def massShare (part whole : Num) : W32 :=
  match part, whole with
  | .fin _ a x, .fin _ b y => if b = 0 then 0 else f32Ratio false a b (x - y)
  | _, _ => f32Nan

/-- The audit of a sampled row (R241). -/
def auditRow (e : Env) (kind : ProdKind) (blocks : List (List (List Block))) (k x n : Nat) (chosen : List Nat) (xs : List Num) : RowAudit :=
  let ms := blocks.zipIdx.map (fun (b, g) => blockMass e kind x n xs g b)
  let mass := ms.map (·.1)
  let truth := ((ranked mass).take k).map (·.2)
  let missed := mass.zipIdx.filter (fun x => !chosen.contains x.2)
  { misses := count truth (fun g => !chosen.contains g)
    lost := massShare (Num.sum (missed.map (·.1))) (Num.sum mass)
    accs := ms.flatMap (·.2.1)
    checks := ms.map (·.2.2.1)
    bad := ms.flatMap (·.2.2.2) }

/-- The rows that a PREDICT's audit samples (R241). -/
def sampledRows (e : Env) : List Nat :=
  let c := e.auditConfig
  if e.d.audit then
    (List.range e.d.m).filter (fun r => e.live r && decide (stochasticU (c.seed + e.t.number) (128 * r + e.d.auditSlot) < c.rate))
  else []

def prediction (e : Env) : Prediction :=
  let d := e.d
  let kind := d.prodKind
  let kind2 := prodOf (1, 0) (d.fmtB.toNat, d.scaleB.toNat) d.tau.toNat d.eps.toNat
  let at_ := d.tensA d.m d.k
  let p1 := d.weightB d.k d.rank
  let p2 : Tens := ⟨wordAddr d.p1, 0, d.fmtB.toNat, d.scaleB.toNat, d.rank, d.g, true⟩
  let rows := at_.all e.s e.cl
  let b1 := blocksOf kind.int32 128 d.rank (p1.weights e.s e.cl)
  let b2 := blocksOf false 128 d.g (p2.weights e.s e.cl)
  let hs := rows.map (rowProduct kind b1 d.rank)
  let conv := hs.map (fun l => (accWords l).map (fun w => convertElem 1 .nearest d.nosat (accValue kind.int32 w)))
  let ss := conv.map (fun l => rowProduct kind2 b2 d.g (l.map (fun c => decodeBits 1 c.bits)))
  let orders := ss.map (fun l => scoreOrder (accWords l))
  let slot := e.slot
  let k := min d.g (d.ksel + slot.extra)
  let kJudge := if slot.dense then min d.g e.auditConfig.kMax else k
  let sel := orders.map (fun o => if slot.dense then List.range d.g else selectBlocks d.p2 k o)
  let judged := orders.map (selectBlocks d.p2 kJudge)
  let picked := sampledRows e
  let stride := gridBytes d.fmtB.toNat d.scaleB.toNat d.k (gatedCols d.act 128)
  let refAddr (g : Nat) : Nat := blockAddr e.cl (wordAddr d.p3) g d.g stride
  let grids := if picked.isEmpty then [] else
    (List.range d.g).map (fun g => gridBlocks e kind.int32 (refAddr g) d.fmtB.toNat d.scaleB.toNat d.k (gatedCols d.act 128))
  let audits := picked.zipIdx.map (fun (r, x) => auditRow e kind grids kJudge x picked.length (judged.getD r []) (rows.getD r []))
  let badOf (k : ProdKind) (n : Nat) (l : List (List AccBlock)) : List RowMiss :=
    l.zipIdx.flatMap (fun (row, m) => row.zipIdx.flatMap (fun x =>
      let at_ := placeOf d.split.toNat e.cl.length d.m n 0 m x.2 0
      let (lo, rs) := rowShare d.split.toNat e.cl.length d.m at_.1
      missesAt at_ (m - lo) rs false k x.1.misses))
  let checksOf (n : Nat) (l : List (List AccBlock)) : List Checked :=
    l.zipIdx.flatMap (fun (row, m) => row.zipIdx.map (fun x => ⟨(placeOf d.split.toNat e.cl.length d.m n 0 m x.2 0).1, x.1.made, x.1.skipped⟩))
  let c0 : Counts := (((accCounts kind.int32 hs.flatten).add (accCounts false ss.flatten)).add
    (accCounts kind.int32 (audits.flatMap (·.accs)))).add
    { convSat := count conv.flatten (·.sat), auditSampled := audits.length
      auditMisses := (audits.map (·.misses)).foldl satAdd 0 }
  let c := audits.foldl (fun c a => c.add { auditMassLost := a.lost }) c0
  { work := {
      reads := at_.reads e.s e.cl ++ p1.reads e.s e.cl ++ p2.reads e.s e.cl
        ++ (if picked.isEmpty then [] else (List.range d.g).flatMap (fun g =>
            (gridTens (refAddr g) d.fmtB.toNat d.scaleB.toNat d.k (gatedCols d.act 128)).reads e.s e.cl))
      writes := [⟨wordAddr d.addrD, bitmapSet d.m d.g sel, false⟩]
      counts := c
      checks := checksOf d.rank hs ++ checksOf d.g ss ++ audits.flatMap (·.checks)
      bad := badOf kind d.rank hs ++ badOf kind2 d.g ss ++ audits.flatMap (·.bad) }
    rows := audits.length, misses := (audits.map (·.misses)).foldl (· + ·) 0, ksel := d.ksel, k := kJudge }

/-- The audit's findings added to the step's counts of the slot; two PREDICTs of one slot add (R243). -/
def noteAudit (p slot : Nat) (x : Prediction) : State → State :=
  updStep p (fun t =>
    if x.rows = 0 then t
    else { t with
      auditHits := t.auditHits.update slot (0, 0) (fun h => (h.1 + x.rows, h.2 + x.misses))
      auditK := t.auditK.put slot (x.ksel, x.k) })

def predict (p : PartId) (h : List HwFault) (s : State) : State :=
  match readyOp s p.val (isOp 0x05) with
  | none => s
  | some e =>
    if zeroWork e.d then zeroOp p.val none s
    else
      let x := prediction e
      carryOut p.val h e x.work (noteAudit p.val e.d.auditSlot x)

def execPredict (p : PartId) (h : List HwFault) (s : State) : Out := done s (predict p h)

/-! ### ROUTE (R231 to R233) -/

/-- Block numbers of a row kept in order of their entries: in range and not named before; and how many were dropped. -/
def keptEntries (g : Nat) (l : List (Nat × W32)) : List (Nat × W32) × Nat :=
  l.foldl (fun ((k, n) : List (Nat × W32) × Nat) (b, w) =>
    if g ≤ b || k.any (fun x => x.1 == b) then (k, n + 1) else (k ++ [(b, w)], n)) ([], 0)

/-- The list of one block: its entries (row and weight), and the rows left out for CAP (R232). -/
def routeList (cap : Nat) (rows : List (Nat × W32)) : List (Nat × W32) × Nat := (rows.take cap, rows.length - cap)

/-- A token list's bytes up to its last entry (R233). -/
def listBytes (g overflow : Nat) (entries : List (Nat × W32)) : List Byte :=
  leBytes 4 g ++ leBytes 4 entries.length ++ leBytes 4 overflow ++ leBytes 52 0
    ++ entries.flatMap (fun x => leBytes 4 x.1 ++ leBytes 4 x.2.toNat)

def routeWork (e : Env) : Work :=
  let d := e.d
  let index := bit d.p0 0
  let weighted := bit d.p0 1
  let masked := bit d.p0 2
  let ksel := d.p0.toNat / 256 % 256
  let cap := d.p1.toNat
  let tiles := ceilDiv d.m 64
  let x := wordAddr d.addrX
  let rec_ := recordBytes d.g
  let xs := if index then readWords e.s x (d.m * ksel) else []
  let ws := if index && weighted then readWords e.s (wordAddr d.p2) (d.m * ksel) else []
  let kept := if index then (List.range d.m).map (fun r =>
      keptEntries d.g ((List.range ksel).map (fun i => ((xs.getD (r * ksel + i) 0).toNat, if weighted then ws.getD (r * ksel + i) 0 else f32One))))
    else []
  let mask (r : Nat) : Bool := !masked || (leNat (e.s.ssRead (wordAddr d.p3 + 64 * (r / 64)) 8)).testBit (r % 64)
  let rowsOf (g : Nat) : List (Nat × W32) :=
    if index then
      (kept.zipIdx.filterMap (fun (k, r) => (k.1.find? (fun y => y.1 == g)).map (fun y => (r, y.2)))).filter (fun y => e.live y.1 && mask y.1)
    else
      (List.range tiles).flatMap (fun r =>
        let w := leNat (e.s.ssRead (x + r * rec_ + 8 * g) 8)
        ((List.range 64).filter (fun b => w.testBit b && e.live (64 * r + b) && mask (64 * r + b))).map (fun b => (64 * r + b, f32One)))
  let lists := (List.range d.g).map (fun g => routeList cap (rowsOf g))
  { reads := (if index then [⟨x, 4 * d.m * ksel⟩] else [⟨x, bitmapBytes d.m d.g⟩])
      ++ (if index && weighted then [⟨wordAddr d.p2, 4 * d.m * ksel⟩] else [])
      ++ (if masked then [⟨wordAddr d.p3, bitmapBytes d.m 1⟩] else [])
    writes := lists.zipIdx.map (fun (l, g) => ⟨blockAddr e.cl (wordAddr d.addrD) g d.g (listStride cap), listBytes g l.2 l.1, false⟩)
    counts := { routeEntries := (lists.map (·.1.length)).foldl satAdd 0, routeOverflow := (lists.map (·.2)).foldl satAdd 0
                indexDropped := (kept.map (·.2)).foldl satAdd 0 } }

def route (p : PartId) (h : List HwFault) (s : State) : State := opCommand p h (isOp 0x06) routeWork s

def execRoute (p : PartId) (h : List HwFault) (s : State) : Out := done s (route p h)

/-! ### GROUPED_MATMUL (R235 to R239) -/

/-- A token list as GROUPED_MATMUL takes it (R236): each entry's row, none where dropped, with its weight; entries dropped;
bytes read. -/
structure TokenList where
  entries : List (Option Nat × W32)
  dropped : Nat
  ext     : Ext

def readList (e : Env) (addr : Nat) : TokenList :=
  let cap := e.d.p1.toNat
  let n := leNat (e.s.ssRead (addr + 4) 4)
  let k := min n cap
  let ws := readWords e.s (addr + 64) (2 * k)
  let es := (List.range k).map (fun j => (within e.d.m (ws.getD (2 * j) 0).toNat, ws.getD (2 * j + 1) 0))
  ⟨es, (n - k) + count es (·.1.isNone), ⟨addr, 64 + 8 * k⟩⟩

/-- The lists of an operation. -/
def tokenLists (e : Env) : List TokenList :=
  (List.range e.d.g).map (fun g => readList e (blockAddr e.cl (wordAddr e.d.addrX) g e.d.g (listStride e.d.p1.toNat)))

/-- One block of modes 0 and 2: compact rows written, counts, places of mismatches, ranges read. -/
def groupedBlock (e : Env) (act : Option Nat) (rows : List (List Num)) (g : Nat) (l : TokenList) : Work :=
  let d := e.d
  let kind := d.prodKind
  let bw := d.n
  let cap := d.p1.toNat
  let cols := match act with
    | some a => gatedCols a bw
    | none => bw
  let stride := gridBytes d.fmtB.toNat d.scaleB.toNat d.k cols
  let wa := blockAddr e.cl (wordAddr d.addrB) g d.g stride
  let blocks := gridBlocks e kind.int32 wa d.fmtB.toNat d.scaleB.toNat d.k cols
  let prods := l.entries.map (fun x => x.1.map (fun r => rowProduct kind blocks cols (rows.getD r [])))
  let vals := prods.map (fun x =>
    match x with
    | none => List.replicate bw Num.zero
    | some a =>
      match act with
      | some f => (gatedRow kind.int32 f bw (accWords a)).map ofF32
      | none => (accWords a).map (accValue kind.int32))
  let dt : Tens := ⟨blockAddr e.cl (wordAddr d.addrD) g d.g (compactBytes d.fmtD.toNat d.scaleD.toNat cap bw), 0, d.fmtD.toNat, d.scaleD.toNat, vals.length, bw, false⟩
  let (ws, wc) := storeTensor e.cl dt d.ctl (g * cap * bw) vals
  let i := partOfItem g d.g e.cl.length
  let first := partStart i d.g e.cl.length
  let nbs := ceilDiv bw 64
  let units := (partStart (i + 1) d.g e.cl.length - first) * nbs
  let accs := prods.filterMap id
  let kept := prods.zipIdx.filterMap (fun (x, j) => x.map (fun a => (a, j)))
  { reads := (gridTens wa d.fmtB.toNat d.scaleB.toNat d.k cols).reads e.s e.cl, writes := ws, counts := (accCounts kind.int32 accs.flatten).add wc
    checks := [⟨i, (accs.flatten.map (·.made)).sum, (accs.flatten.map (·.skipped)).sum⟩]
    bad := kept.flatMap (fun (a, j) => a.zipIdx.flatMap (fun x =>
      missesAt (i, partOfItem ((g - first) * nbs + x.2 % nbs) units 4) j prods.length false kind x.1.misses)) }

/-- Modes 0 and 2: compact rows of each block whose list is not empty (R235, R237). -/
def groupedWork (gate : Bool) (e : Env) : Work :=
  let d := e.d
  let lists := tokenLists e
  let at_ := d.tensA d.m d.k
  let rows := at_.all e.s e.cl
  let act := if gate then some (d.p0.toNat / 4 % 4) else none
  let used := lists.flatMap (fun l => l.entries.filterMap (·.1))
  lists.zipIdx.foldl (fun w (l, g) =>
    if l.entries.isEmpty then w
    else
      let x := groupedBlock e act rows g l
      { w with reads := w.reads ++ x.reads, writes := w.writes ++ x.writes, counts := w.counts.add x.counts, checks := w.checks ++ x.checks, bad := w.bad ++ x.bad })
    { reads := lists.map (·.ext) ++ used.flatMap (at_.rowReads e.s e.cl)
      counts := { indexDropped := (lists.map (·.dropped)).foldl satAdd 0 } }

/-- A contribution to an element in mode 1 (R238). -/
def combineAdd (weight : Option W32) (acc : W32) (p : Num) : W32 :=
  match weight with
  | some w => f32Add acc (toF32 (p.mul (ofF32 w)))
  | none => toF32 ((ofF32 acc).add p)

/-- Mode 1: each token's blocks added in ascending order into its output row; under ACC_ADD a row with no entry is left as D (R238). -/
def combineWork (e : Env) : Work :=
  let d := e.d
  let kind := d.prodKind
  let bw := d.k
  let cap := d.p1.toNat
  let lists := tokenLists e
  let bt := d.weightB (d.g * bw) d.n
  let grid := blocksOf kind.int32 128 d.n (bt.weights e.s e.cl)
  let src (g n : Nat) : Tens :=
    ⟨blockAddr e.cl (wordAddr d.addrA) g d.g (compactBytes d.fmtA.toNat d.scaleA.toNat cap bw), 0, d.fmtA.toNat, d.scaleA.toNat, n, bw, false⟩
  let parts : List (Nat × W32 × List AccBlock × Nat × Nat) := lists.zipIdx.flatMap (fun (l, g) =>
    let blocks := (grid.drop (g * bw / 128)).take (bw / 128)
    l.entries.zipIdx.filterMap (fun (x, j) => x.1.map (fun r =>
      (r, x.2, rowProduct kind blocks d.n ((src g l.entries.length).row e.s e.cl j), g, j))))
  let dt := d.tensD d.m d.n
  let fins := (List.range d.m).map (fun m =>
    let mine := parts.filter (fun x => x.1 == m)
    let acc := mine.foldl (fun a (_, w, accs, _) =>
      (a.zip (accWords accs)).map (fun (y, p) => combineAdd (if bit d.p0 4 then some w else none) y (accValue kind.int32 p)))
      (List.replicate d.n (0 : W32))
    let sat := mine.foldl (fun a (_, _, accs, _) => (a.zip (accs.flatMap (·.sat))).map (fun (y, z) => y || z)) (List.replicate d.n false)
    let dv := accAddRow e dt m
    (acc.zip sat).zipIdx.map (fun ((w, x), n) => finalElem false false w x [] (dv.map (fun l => l.getD n .zero))))
  let left (m : Nat) : Bool := d.accAdd && !parts.any (fun x => x.1 == m)
  let (ws, wc) := storeKeeping e.cl dt d.ctl 0 (fun m c => if left m then some (dt.rawRow e.s e.cl m c) else none) (fins.map (·.map (·.value)))
  let reads := lists.zipIdx.flatMap (fun (l, g) =>
    (l.entries.zipIdx.filter (fun x => x.1.1.isSome)).flatMap (fun x => (src g l.entries.length).rowReads e.s e.cl x.2))
  { reads := lists.map (·.ext) ++ reads ++ bt.reads e.s e.cl ++ (if d.accAdd then dt.reads e.s e.cl else [])
    writes := ws
    counts := ((finalCounts ((fins.zipIdx.filter (fun x => !left x.2)).flatMap (·.1))).add wc).add
      { checkSkipped := (parts.flatMap (fun x => x.2.2.1.map (·.skipped))).foldl satAdd 0
        indexDropped := (lists.map (·.dropped)).foldl satAdd 0 }
    checks := parts.flatMap (fun x => x.2.2.1.zipIdx.map (fun a => ⟨(placeOf 3 e.cl.length d.m d.n 0 x.1 a.2 0).1, a.1.made, a.1.skipped⟩))
    bad := parts.flatMap (fun x => x.2.2.1.zipIdx.flatMap (fun a =>
      let at_ := placeOf 3 e.cl.length d.m d.n 0 x.1 a.2 0
      let (lo, rs) := rowShare 3 e.cl.length d.m at_.1
      let array (r : Nat) : Nat := (dealt (r - lo) rs 2048).1
      let mates := parts.filter (fun y => y.2.2.2.1 == x.2.2.2.1 && decide (y.2.2.2.2 < x.2.2.2.2) && decide (lo ≤ y.1) && decide (y.1 < lo + rs) && array y.1 == array x.1)
      a.1.misses.map (fun m => ⟨at_.1, at_.2, array x.1, mates.length % 2048, false, kind, m⟩))) }

/-- A GROUPED_MATMUL of a mode. -/
def isGrouped (mode : Nat) (d : OpDesc) : Bool := isOp 0x04 d && d.p0.toNat % 4 == mode

def groupedPlain (p : PartId) (h : List HwFault) (s : State) : State := opCommand p h (isGrouped 0) (groupedWork false) s
def execGroupedMatmulPlain (p : PartId) (h : List HwFault) (s : State) : Out := done s (groupedPlain p h)

def groupedCombine (p : PartId) (h : List HwFault) (s : State) : State := opCommand p h (isGrouped 1) combineWork s
def execGroupedMatmulCombine (p : PartId) (h : List HwFault) (s : State) : Out := done s (groupedCombine p h)

def groupedGated (p : PartId) (h : List HwFault) (s : State) : State := opCommand p h (isGrouped 2) (groupedWork true) s
def execGroupedMatmulGated (p : PartId) (h : List HwFault) (s : State) : Out := done s (groupedGated p h)

end Sys2Proof.Machine
end

