-- ==== Sys2Proof/Machine/Commit.lean ====
section
/-! DEFINITION. How a step ends: what is committed or undone, its token records and its completion record, the audit slots, the
mirror point, and the comparison of a locked pair (R164, R205, R206, R223 to R226, R242, R243, R256, R271 to R274, R381, R442,
R450 to R452).
Rests on the log entries (notes/assumptions/<n>.md) 26 (DESIGN CHOICE), 33 (DEDUCED), 34 (DEDUCED), 37 (DEDUCED). -/
namespace Sys2Proof.Machine

/-! ### Sequences (R196, R205, R223, R225) -/

/-- The stop set of a sequence holds a token; 0xFFFFFFFF is an empty place (R195). -/
def inStopSet (k : Context) (q : Seq) (t : W32) : Bool :=
  decide (q.stopSet.toNat < 16) && t != 0xFFFFFFFF && (k.stopSets.getD q.stopSet.toNat []).contains t

/-- Why a sequence stops once a token has been committed: 0 for no reason (R223). -/
def stopReasonFor (k : Context) (q : Seq) (t : W32) : Byte :=
  if inStopSet k q t then 0x01 else if q.maxLen ≤ q.promptLen + q.generated then 0x02 else 0x00

/-- A sequence after the step: its entry, and the record the step writes for it. -/
structure SeqEnd where
  seq    : Seq
  rec_   : Option TokenRec := none
  noToken : Bool := false

/-- The commit of one sequence of a step that completes with DONE. -/
def commitSeq (k : Context) (kind : StepKind) (number : W32) (slot rows : Nat) (got : Option Sampled) (q : Seq) : SeqEnd :=
  let pre := if kind = .prefill then q.prefilled + rows else q.prefilled
  let q1 := { q with
    length := q.length + rows, prefilled := pre
    state := if decide (q.state = .prefill) && decide (q.promptLen ≤ pre) then .decode else q.state }
  let base : TokenRec :=
    { token := 0xFFFFFFFF, slot := BitVec.ofNat 16 slot, reason := 0, final := false, noToken := true
      index := BitVec.ofNat 32 q.generated, logprob := 0, hostTag := q.hostTag, step := number }
  let finish (q : Seq) (reason : Byte) (x : TokenRec) (none_ : Bool) : SeqEnd :=
    let reason := if q.cancel then 0x03 else reason
    let final := reason ≠ 0 || q.retire
    { seq := if reason = 0 then { q with finalSent := final } else { q with state := .stopped, stopReason := reason, finalSent := final }
      rec_ := some { x with reason := reason, final := final }
      noToken := none_ && reason = 0x05 }
  match got with
  | none => if q.cancel then finish q1 0x03 base false else { seq := q1 }
  | some x =>
    match x.token with
    | none => finish q1 0x05 base true
    | some t =>
      let q2 := { q1 with lastToken := t, generated := q1.generated + 1 }
      finish q2 (stopReasonFor k q2 t) { base with token := t, noToken := false, logprob := x.logprob } false

/-- The commit of a step's sequences in batch order: the state, the records with their rings, and how many stopped with
NO_VALID_TOKEN. A sequence whose pages were lost during the step takes no part (R224). -/
def commitSeqs (k : Context) (t : Step) (s : State) : State × List (Nat × TokenRec) × Nat :=
  t.seqs.foldl (fun (acc : State × List (Nat × TokenRec) × Nat) sq =>
    let (s, recs, n) := acc
    match s.seqs.find sq.slot with
    | none => acc
    | some q =>
      if q.state = .lost then acc
      else
        let e := commitSeq k t.kind t.number sq.slot sq.rows (t.samples.find? (fun x => x.slot == sq.slot)) q
        ({ s with seqs := s.seqs.put sq.slot e.seq }
         , recs ++ (match e.rec_ with
            | some x => [(q.tokenRing.toNat, x)]
            | none => [])
         , if e.noToken then n + 1 else n)) (s, [], 0)

/-- Sequences retired while they had rows in the step are freed (R196). -/
def retireDue (t : Step) (s : State) : State :=
  t.seqs.foldl (fun s sq =>
    match s.seqs.find sq.slot with
    | some q => if q.retire then freeSeq sq.slot s else s
    | none => s) s

/-! ### Audit slots (R242, R243) -/

/-- The decision at the end of a window. -/
def slotDecision (c : AuditConfig) (a : AuditSlot) : AuditSlot × Nat :=
  let rate := Num.ofNat a.misses
  let whole := Num.ofNat (a.rows * a.k)
  let fresh (b : AuditSlot) : AuditSlot := { extra := b.extra, dense := b.dense }
  let changes (b : AuditSlot) : Nat := (if b.extra = a.extra then 0 else 1) + if b.dense = a.dense then 0 else 1
  let b :=
    if (whole.mul (ofF32 c.missHigh)).lt rate then
      { a with extra := a.extra + c.kStep, dense := a.dense || decide (c.kMax < a.ksel + a.extra + c.kStep) }
    else if c.back && rate.lt (whole.mul (ofF32 c.missLow)) then
      if a.dense then { a with dense := false } else { a with extra := a.extra - c.kStep }
    else a
  (fresh b, changes b)

/-- The findings of a completed step added to one slot, and the decision when the window is full. -/
def slotAfter (c : AuditConfig) (rows misses ksel kk : Nat) (a : AuditSlot) : AuditSlot × Nat :=
  let a := { a with steps := a.steps + 1, rows := a.rows + rows, misses := a.misses + misses, ksel := ksel, k := kk }
  if c.window ≤ a.steps then slotDecision c a else (a, 0)

/-- The slots of a context after a completed step. -/
def commitAudit (t : Step) (k : Context) : Context × Nat :=
  t.auditHits.foldl (fun (acc : Context × Nat) (n, h) =>
    let (ks, kk) := t.auditK.getD n (0, 0)
    let r := slotAfter acc.1.audit h.1 h.2 ks kk (acc.1.slots.getD n {})
    ({ acc.1 with slots := acc.1.slots.put n r.1 }, acc.2 + r.2)) (k, 0)

/-! ### What a completed step changes in the module -/

/-- The commit of a step with DONE: pages sealed, sequences, audit slots; the records to write. -/
def commitStep (p : Nat) (t : Step) (s : State) : State × List (Nat × TokenRec) :=
  match s.ctx t.ctx.val with
  | none => (s, [])
  | some k =>
    let filled := t.filled.filter (fun e => s.dir.has e)
    let s := { s with dir := filled.foldl (fun d e => d.modify e (fun x => { x with sealedP := true })) s.dir }
    let (s, recs, none_) := commitSeqs k t s
    let (k2, changes) := commitAudit t k
    let s := updCtx t.ctx.val (fun k => { k with
      slots := k2.slots, changed := true
      lastAudit := if t.audit then some t.number.toNat else k.lastAudit
      energySteps := k.energySteps + 1
      energyTokens := k.energyTokens + count recs (fun x => !x.2.noToken) }) s
    (countStep p (fun c => { c with pagesSealed := satAdd c.pagesSealed filled.length, noToken := satAdd c.noToken none_
                                    auditChanges := satAdd c.auditChanges changes }) s, recs)

/-- The undoing of a step that failed (R206): its pages return, the rotation point too (R318), and a cancel or a retire of its
sequences takes effect. -/
def undoStep (t : Step) (s : State) : State :=
  let s := freeEntries t.ctx.val t.reserved s
  let s := if t.reserved.isEmpty then s else updCtx t.ctx.val (fun k => { k with rotation := t.rotationWas }) s
  let s := t.seqs.foldl (fun s sq =>
    match s.seqs.find sq.slot with
    | none => s
    | some q =>
      if q.cancel && (q.state = .prefill || q.state = .decode) then
        updSeq sq.slot (fun q => { q with state := .stopped, stopReason := 0x03, cancel := false }) (seqNotice sq.slot 0x03 true s)
      else s) s
  retireDue t s

/-- One token record of a step put into its ring. Where the ring does not exist, has no room, or has records that wait before it, the record
waits behind them (R274). -/
def putToken (c : CtxId) (n : Nat) (x : TokenRec) (s : State) : State :=
  let wait : State := { s with heldRecs := s.heldRecs.put n (s.heldRecs.getD n [] ++ [(c, x)]) }
  match s.tq.find n with
  | none => wait
  | some r =>
    if r.ctx ≠ c || r.room = 0 || (s.heldRecs.getD n []).any (fun y => y.1 == c) then wait
    else { emit r.fn.val (.token r.fn (r.slotAddr r.prod 32) x) s with tq := s.tq.put n { r with prod := r.prod + 1 } }

/-- The step's token records in batch order, then each ring's write-back and vector (R274, R279). A secondary writes no record (R452). -/
def writeStepTokens (c : CtxId) (recs : List (Nat × TokenRec)) (s : State) : State :=
  if isSecondary s then s
  else
    let before := s.tq
    let s := recs.foldl (fun s (n, x) => putToken c n x s) s
    (recs.map (·.1)).eraseDups.foldl (fun s n =>
      match before.find n, s.tq.find n with
      | some was, some r =>
        if r.prod = was.prod then s
        else
          let s := emit r.fn.val (.index r.fn r.wb r.prod) s
          let (r, s) := signal false (r.prod - was.prod).toNat r s
          wakeSteps n { s with tq := s.tq.put n r }
      | _, _ => s) s

/-- A partition's step leaves it: what was on its way to its Navigator is dropped, its barrier starts afresh, substitutions that waited are made
(R92), and core stores that are due to be zeroed are (R157). -/
def dropStep (p : Nat) (t : Step) (s : State) : State :=
  let s := dropMessages p (updPart p (fun q => { q with step := none, lastCtx := some t.ctx, lastRing := some t.ring }) s)
  match s.part p with
  | none => s
  | some q => q.clusters.foldl (fun s n => makeSubstitutions n (onlyIf q.scrubDue (zeroCluster n) s)) (updPart p (fun q => { q with scrubDue := false }) s)

/-- The step ends for good: DONE commits it, any other status undoes it; its records go out in the order of R279. -/
def closeStep (status : Byte) (op : W32) (p : Nat) (s : State) : State :=
  match s.stepOf p with
  | none => s
  | some t =>
    let kv := t.kvWords
    let (s, recs) := if status = stDone then commitStep p t s else (undoStep t s, [])
    let t2 := (s.stepOf p).getD t
    let said := if status = stDone then t2.counts else { t2.counts with auditSampled := 0, auditMisses := 0, auditMassLost := 0 }
    let pages := t.filled.filterMap (fun e => (s.dir.find e).map (·.page))
    let s := dropStep p t s
    let s := updCtx t.ctx.val (fun k => { k with
      stepsDone := satAdd k.stepsDone 1
      total := k.total.add said
      restore := if status ≠ stDone && decide (k.securing = .secured) && decide (s.pair.mode = 2) then union k.restore t.dirty else k.restore
      waitsFor := k.waitsFor || (status ≠ stDone && decide (k.securing = .secured) && decide (s.pair.mode = 2)) }) s
    let s := if status = stDone then mirrorPoint t.ctx.val kv pages s else s
    let s := writeStepTokens t.ctx recs s
    let s := if status = stDone then retireDue t s else s
    let s := if isSecondary s && halting 0x01 status then haltCtx t.ctx.val s else s
    completeDesc t.ring.val t.index t.tag 0x01 t.irqNow
      { status := status, zero := status = stDone && t.rowCount = 0, result := t.number, op := op, zeroOps := t.zeroOps, rows := t.rowCount
        counts := { said with accessDenied := satAdd said.accessDenied t2.deniedBefore } } s

/-! ### Ends that wait (R256, R452) -/

/-- The module runs a context's steps as one of a locked pair. -/
def lockedStep (s : State) : Bool := s.pair.formed && s.pair.mode == 3

/-- The digest of a step that ends with a status: over the state as its commit leaves it (R451). -/
def stepDigest (status : Byte) (p : Nat) (t : Step) (s : State) : DigestBody :=
  let (s2, recs) := if status = stDone then commitStep p t s else (undoStep t s, [])
  let k := (s2.ctx t.ctx.val).getD { part := asPart p }
  { step := t.number, ctx := BitVec.ofNat 8 t.ctx.val, status := status, rows := BitVec.ofNat 32 t.rowCount
    records := BitVec.ofNat 32 recs.length
    dShared := digestShared s2 t.dirty
    dKv := if status = stDone then digestKv s2 k t.kvWords else 0
    dToken := sum64 (recs.map (fun x => crc64 x.2.bytes))
    dState := digestState s2 t.ctx t.number (t.seqs.map (·.slot))
    time := instanceNow s (sitePos (leadSite s p)) }

/-- A function may be written to: its Bus Master Enable is set, or there is no link. -/
def mayWrite (s : State) (f : Nat) : Bool := !s.link.up || (s.fnr f).bme

/-- The function of a ring that a record goes to may be written to; a ring that does not exist holds nothing back. -/
def ringFree (s : State) (r : Option Ring) : Bool := r.all (fun r => mayWrite s r.fn.val)

/-- The functions of the rings that a step's records go to may be written to: of its completion ring and, where it completes with DONE, of the
token rings of the sequences that it writes a record for (R256, R279). -/
def recordsFree (status : Byte) (t : Step) (s : State) : Bool :=
  ringFree s ((s.sq.find t.ring.val).bind (fun q => s.cq.find q.compRing))
    && (decide (status ≠ stDone) || t.seqs.all (fun x =>
      match s.seqs.find x.slot with
      | some q => !(x.final || q.cancel) || ringFree s (s.tq.find q.tokenRing.toNat)
      | none => true))

/-- The compared fields of two digest records agree (R452). -/
def sameDigest (a b : DigestBody) : Bool :=
  a.status == b.status && a.rows == b.rows && a.records == b.records && a.dShared == b.dShared && a.dKv == b.dKv && a.dToken == b.dToken
    && a.dState == b.dState

/-- A step ends, or waits while Bus Master Enable is clear: its records wait, and nothing is committed until they can be written. -/
def finishStep (status : Byte) (op : W32) (p : Nat) (s : State) : State :=
  match s.stepOf p with
  | none => s
  | some t =>
    if recordsFree status t s then closeStep status op p s
    else updStep p (fun t => { t with phase := .ended, failed := some (status, op) }) s

/-- The digests of a step per logical cluster, sent to the partner (R453); what each holds the manual leaves open
(DESIGN CHOICE: notes/assumptions/26.md). -/
def sendClusterDigests (p : Nat) (t : Step) (s : State) : State :=
  match s.part p with
  | none => s
  | some q =>
    q.clusters.foldl (fun s n =>
      let (a, s) := takeFree s
      let (b, s) := takeFree s
      let (c, s) := takeFree s
      let (d, s) := takeFree s
      sendFrame (.clusterDigest (BitVec.ofNat 8 t.ctx.val) t.number n
        { step := t.number, ctx := BitVec.ofNat 8 t.ctx.val, status := 0, rows := 0, records := 0, dShared := a, dKv := b, dToken := c, dState := d }) s) s

/-- The secondary asks for every row that a failed step wrote and for the context's state (R453). -/
def askLevel (t : Step) (s : State) : State :=
  match s.ctx t.ctx.val with
  | none => s
  | some k =>
    let c := BitVec.ofNat 8 t.ctx.val
    let s := t.dirty.foldl (fun s r => sendFrame (.copyReq c objRow (BitVec.ofNat 64 (4096 * r)) 4096) s) s
    (tablePieces s t.ctx.val k).foldl (fun s x => sendFrame (.copyReq c x.1 (BitVec.ofNat 64 x.2.1) (BitVec.ofNat 64 x.2.2.length)) s) s

/-- The two digests of a step are there: both modules commit, or both fail it with CHECKSUM_MISMATCH and look for the clusters that
differ (R452, R453). -/
def compareStep (p : Nat) (mine theirs : DigestBody) (s : State) : State :=
  match s.stepOf p with
  | none => s
  | some t =>
    let s := { s with pair := { s.pair with
      digests := s.pair.digests.filter (fun d => d.ctx != mine.ctx), theirs := s.pair.theirs.filter (fun d => d.ctx != mine.ctx) } }
    let (status, op) := t.failed.getD (stDone, 0xFFFFFFFF)
    if sameDigest mine theirs then finishStep status op p s
    else
      let s := note .digestDiffer t.ctx.val t.number.toNat s
      let s := finishStep stChecksum op p s
      let s := updCtx t.ctx.val (fun k => { k with auditNext := true }) s
      let s := sendClusterDigests p t s
      if isSecondary s then askLevel t s else s

/-- What the engines have counted of an operation that did not end counts with its step (R89). -/
def keepEngine (p : Nat) : State → State := updStep p (fun t => { t with counts := t.counts.add t.engine, engine := {} })

/-- A step ends with a status: in a locked pair it waits for the partner's digest. -/
def endStep (status : Byte) (op : W32) (p : Nat) (s : State) : State :=
  let s := keepEngine p s
  match s.stepOf p with
  | none => s
  | some t =>
    if lockedStep s && decide (t.phase ≠ .compared) && decide (t.phase ≠ .ended) then
      let d := stepDigest status p t s
      let s := sendFrame (.digest d) s
      let s := updStep p (fun t => { t with phase := .compared, failed := some (status, op) }) s
      match s.pair.theirs.find? (fun x => x.ctx == d.ctx && x.step == d.step) with
      | some x => compareStep p d x s
      | none => { s with pair := { s.pair with digests := s.pair.digests ++ [d] } }
    else finishStep status op p s

/-- Steps whose records waited are closed once they can be written. -/
def closeEnded (s : State) : State :=
  s.parts.keys.foldl (fun s p =>
    match s.stepOf p with
    | some t =>
      match t.failed with
      | some (st, op) => onlyIf (decide (t.phase = .ended) && recordsFree st t s) (closeStep st op p) s
      | none => s
    | none => s) s

end Sys2Proof.Machine
end

