-- ==== Sys2Proof/Machine/PowerOps.lean ====
section
/-! DEFINITION. Operations on power that several families share: requests for sites, power-state orders and their exit, and
what the module loses when its power states, resets and input take the power away (R338, R354 to R358, R363 to R367, R414).
Rests on the log entries (notes/assumptions/<n>.md) 38 (DEDUCED), 42 (DEDUCED), 47 (DEDUCED). -/
namespace Sys2Proof.Machine

/-! ### Sites (R354 to R357) -/

/-- The sites of a partition's clusters. -/
def partSites (s : State) (q : Partition) : List Nat := q.clusters.map s.siteOf

/-- A site that is off for heat or tripped is powered by its return alone (R360, R362). -/
def coolEnough (s : State) (i : Nat) : Bool := (s.site i).heat = .normal || (s.site i).heat = .marked

/-- A site asks to be powered, in order of request (R356). -/
def requestSite (i : Nat) (s : State) : State :=
  let r := s.site i
  if r.power ≠ .dark || r.requested || !coolEnough s i then s
  else
    let s := updSite i (fun r => { r with requested := true }) s
    { s with power := { s.power with admission := s.power.admission ++ [i] } }

/-- Sites set to power up in the waves of R357: those that heat does not keep off. -/
def requestWaves (is : List Nat) (s : State) : State :=
  { s with power := { s.power with waves := union s.power.waves (is.filter (coolEnough s)), nextWave := 0 } }

/-- A site is placed: its cluster is not retired, and belongs to a partition whose sites this module powers (R354). -/
def sitePlaced (s : State) (i : Nat) : Bool :=
  !(s.site i).retired && !(s.site i).lost && s.parts.any (fun e => !s.pair.reserved.contains e.1 && (partSites s e.2).contains i)

/-- Every cluster of a partition runs, or a cover carries its share (R360). -/
def partPowered (s : State) (q : Partition) : Bool :=
  (partSites s q).all (fun i => decide ((s.site i).power = .on) || (s.site i).cover.isSome)

/-! ### What is lost (R13, R364, R414) -/

/-- The contents of every cluster lost; the substitutions of the chart stay. -/
def clustersCold (s : State) : State := { s with clusters := s.clusters.mapVal (fun _ r => r.cold) }

/-- Every partition, context, ring, mark, sequence and page is gone, with the shared store and the learned table. -/
def loseWork (s : State) : State :=
  clustersCold { s with
    mem := [], memPoison := [], memForms := [], owners := [], scrubs := [], parts := [], ctxs := [], seqs := [], dir := [], sq := [], cq := []
    tq := [], heldRecs := [], marks := [], net := {}, dimm := [], dimmBad := [], dimmWork := {}
    build := { s.build with exchanges := [] }
    power := { s.power with learned := [], admission := [], waves := [] }
    stores := s.stores.mapVal (fun _ r => { r with queue := [], written := [] }) }

/-- The PCIe side lost: the link is down and every function's registers are as at reset (R257, R258), apart from Bus Master Enable
and, until power is lost, the number of PTM results (DEDUCED: notes/assumptions/38.md). -/
def loseHost (s : State) : State := { s with fns := s.fns.mapVal (fun _ r => { bme := r.bme }), link := { ptmSeq := s.link.ptmSeq, lanesOut := s.link.lanesOut } }

/-- Every site dark. -/
def allDark (s : State) : State := (List.range 100).foldl (fun s i => siteDark i s) s

/-- Everything but the always-on domain loses power (R59, R363): what OFF and an input fault leave. -/
def powerLost (s : State) : State :=
  let s := allDark (loseHost (loseWork s))
  { s with
    fns := []
    link := { s.link with ptmSeq := 0 }
    chans := s.chans.mapVal (fun _ r => { r with state := .out, trained := false, selfRefresh := false, retrain := none, sliceAt := none, powerDown := false })
    pair := { s.pair with ports := s.pair.ports.mapVal (fun _ p => { p with lanes := 0, down := true, training := false, replay := [] })
                          formed := false, mode := 0, entering := false, log := [], digests := [], theirs := [], reserved := [] }
    life := { s.life with ready := false, resetting := true } }

/-- A start is in progress (R402). -/
def starting (s : State) : Bool :=
  match s.life.phase with
  | .cold _ => true
  | .warm _ => true
  | .unpowered => false
  | .running => false

/-! ### Power-state orders (R365 to R367) -/

/-- Compute dies that a power state has left dark are powered in waves, their core stores and operand buffers zeros, and DIMMs leave self-refresh; the
Consort ports return to their lanes (R357, R363, R364). -/
def leaveDark (s : State) : State :=
  let s := if s.life.power = .sleep then { s with
      chans := s.chans.mapVal (fun _ r => if r.trained then { r with tempTrained := r.tempMax, trainedAt := s.now } else r)
      pair := { s.pair with ports := s.pair.ports.mapVal (fun _ p => { p with lanes := if p.lanes = 0 then 0 else max p.lanes p.awake, awake := 0 }) } } else s
  if s.life.power = .doze || s.life.power = .sleep then
    let s := clustersCold { s with chans := s.chans.mapVal (fun _ r => { r with selfRefresh := false }) }
    requestWaves ((List.range 100).filter (sitePlaced s)) s
  else s

/-- The state ON is taken up: clocks run again, and what a dark state has left off comes back (R357, R366). -/
def exitToOn (s : State) : State :=
  let s := leaveDark s
  let s := { s with life := { s.life with power := .on } }
  let s := (List.range 25).foldl (fun s r => updRegion r (fun g => { g with stopped := false }) s) s
  { s with chans := s.chans.mapVal (fun _ r => { r with powerDown := false }) }

/-- Orders that have waited are served in order of arrival (R367): ON at once; another state begins to be entered. From OFF,
an order to ON waits for the cold start that it begins (COLD_START), and during a start every order waits for its end. -/
def serveOrders (s : State) : Nat → State
  | 0 => s
  | n + 1 =>
    if s.life.entering.isSome || s.life.power = .off || starting s then s
    else
      match s.life.orders with
      | [] => s
      | o :: r =>
        let s := { s with life := { s.life with orders := r } }
        if o.state = .on then serveOrders (exitToOn s) n
        else { s with life := { s.life with entering := some o } }

/-- An order or trigger for a power state (R366, R367); orders wait while firmware is activated (R507). -/
def orderPower (o : PowerOrder) (s : State) : State :=
  if s.update.phase ≠ .idle then { s with update := { s.update with waiting := s.update.waiting ++ [o] } }
  else
    let s := { s with life := { s.life with orders := s.life.orders ++ [o] } }
    serveOrders s s.life.orders.length

/-- R365: what refuses an order while a pair is formed, and an order for OFF while a context exists. -/
def orderRefused (o : PowerOrder) (s : State) : Bool :=
  (decide (o.state ≠ .on) && s.pair.formed && ((s.pair.mode == 2 && decide (s.pair.role = .secondary)) || s.pair.mode == 3))
    || (decide (o.state = .off) && !o.force && !s.ctxs.isEmpty)

/-- A STEP that is ready to begin wakes IDLE, DOZE or SLEEP when PWR_AUTO_WAKE is 1 (R366). -/
def autoWake (s : State) : State :=
  let asleep := s.life.entering.isSome || s.life.power = .idle || s.life.power = .doze || s.life.power = .sleep
  if asleep && s.setting .pwrAutoWake == 1 && decide (s.life.power ≠ .off) && !s.life.orders.any (fun o => o.state == .on)
      && !(s.life.entering.any (fun o => o.state == .off)) then
    orderPower { state := .on } s
  else s

/-- No service die works (R465). -/
def noServiceDie (s : State) : Bool := !s.mgmt.sv0.works && !s.mgmt.sv1.works

/-- Nothing keeps steps from beginning in the module as a whole: a service die works, the module is ON, enters no other state, activates no firmware and is
ready, and its reference is no holdover (R328, R366, R504). -/
def stepsAllowed (s : State) : Bool :=
  s.life.ready && !noServiceDie s && decide (s.life.power = .on) && s.life.entering.isNone && decide (s.update.phase = .idle ∨ s.update.phase = .standbyRestart)
    && !s.pair.entering && decide (s.power.source ≠ .holdover)

end Sys2Proof.Machine
end

