-- ==== Sys2Proof/Machine/Batch.lean ====
section
/-! DEFINITION. How a step begins: pages reserved, the batch fixed, token-ring room found, the step table written, the core stores
zeroed at a change of context, and the waits before operation 0 (R158, R197, R198, R203, R218, R265, R268, R269, R278, R303, R386,
R445, R450, R524).
Rests on the log entries (notes/assumptions/<n>.md) 9 (DESIGN CHOICE), 48 (DEDUCED). -/
namespace Sys2Proof.Machine

/-! ### The batch (R197, R203, R524) -/

/-- A batch as it is formed. -/
structure Batch where
  st       : State
  rows     : List StepRow := []
  seqs     : List StepSeq := []
  reserved : List Nat := []
  deferred : Nat := 0
  denied   : Nat := 0
  left     : Nat := 0          -- rows a prefill chunk may still take
  errors   : List (Nat × WordFlips) := []    -- words with bits flipped as the prompts are read (R142)

/-- Directory entries that positions touch at every layer and group and that no page is assigned to yet. -/
def entriesNeeded (s : State) (q : Seq) (c : KvConfig) (from_ n : Nat) : List Nat :=
  let blocks := (List.range ((from_ + n - 1) / 64 + 1 - from_ / 64)).map (· + from_ / 64)
  ((List.range c.layers).flatMap (fun l => (List.range c.groups).flatMap (fun g => blocks.map (q.entry c l g)))).filter
    (fun e => !s.dir.has e)

/-- Pages reserved for a sequence, whole or not at all. -/
def reservePages (c : CtxId) (es : List Nat) (s : State) : Option State :=
  match s.ctx c.val with
  | none => none
  | some k =>
    (allocPages s k es).map (fun (ps, k) =>
      { s with ctxs := s.ctxs.put c.val k, dir := ps.foldl (fun d x => d.put x.1 ⟨x.2, false⟩) s.dir })

/-- What a prompt read finds: the tokens, a granule that is not the context's, or a poisoned word. -/
inductive PromptRead where
  | tokens (l : List W32)
  | denied
  | poison (word : Nat)

def readPrompt (s : State) (c : CtxId) (q : Seq) (from_ n : Nat) : PromptRead :=
  let a := wordAddr q.promptAddr + 4 * from_
  if !openTo s c a (4 * n) then .denied
  else
    match (wordsOf a (4 * n)).find? (fun w => s.memPoison.contains w) with
    | some w => .poison w
    | none => .tokens (readWords s a n)

/-- A sequence whose prompt cannot be read stops at once (R524). -/
def stopUnreadable (slot : Nat) (s : State) : State :=
  updSeq slot (fun q => { q with state := .stopped, stopReason := 0x07 }) (seqNotice slot 0x07 true s)

/-- A poisoned word found outside every step: its row is mapped and its segment tested (R146, R382); the record has the status that a
descriptor is given (R400). -/
def outsidePoison (status : Byte) (c : CtxId) (w : Nat) (s : State) : State :=
  if h : w / 2 ^ 23 < 100 then
    let m : StoreRef := .segment ⟨w / 2 ^ 23, h⟩
    let row := w % 2 ^ 23 / 64
    let s := updStore m (fun r => { r with counters := { r.counters with poison := satAdd r.counters.poison 1 } }) s
    detect 0x07 (rowUnit s m row) { ctx := BitVec.ofNat 8 c.val, status := status } (mapOnce 0x03 0x07 m row s)
  else s

/-- Errors that the read of a prompt finds in its words (R142). -/
def promptErrors (c : CtxId) (q : Seq) (from_ n : Nat) (errs : List (Nat × WordFlips)) (s : State) : State :=
  let a := wordAddr q.promptAddr + 4 * from_
  if openTo s c a (4 * n) then segmentErrors (errs.filter (fun e => touchesWord a (4 * n) e.1)) { ctx := BitVec.ofNat 8 c.val } s else s

/-- One sequence considered for the batch. -/
def takeSeq (c : CtxId) (g : KvConfig) (kind : StepKind) (slot : Nat) (b : Batch) : Batch :=
  match b.st.seqs.find slot with
  | none => b
  | some q =>
    let n := if kind = .decode then 1 else min b.left (q.promptLen - q.prefilled)
    if n = 0 then b
    else
      let es := entriesNeeded b.st q g q.length n
      match reservePages c es b.st with
      | none => { b with deferred := b.deferred + 1 }
      | some s =>
        let add (s : State) (toks : List W32) (final : Bool) : Batch :=
          { b with
            st := s, reserved := b.reserved ++ es, left := b.left - n
            rows := b.rows ++ toks.zipIdx.map (fun (t, i) => ⟨slot, q.length + i, t⟩)
            seqs := b.seqs ++ [⟨slot, final, b.rows.length, n⟩] }
        if kind = .decode then add s [q.lastToken] true
        else
          let seen := promptErrors c q q.prefilled n b.errors
          match readPrompt (seen b.st) c q q.prefilled n with
          | .tokens l => add (seen s) l (decide (q.promptLen ≤ q.prefilled + n))
          | .denied => { b with st := stopUnreadable slot b.st, denied := b.denied + 1 }
          | .poison w => { b with st := stopUnreadable slot (outsidePoison 0xFF c w (seen b.st)) }

/-- The batch of a step of a context (R197): training takes no sequences. -/
def formBatch (c : CtxId) (kind : StepKind) (cnt : Nat) (errs : List (Nat × WordFlips)) (s : State) : Batch :=
  match kind, (s.ctx c.val).bind (·.kv) with
  | .training, _ => { st := s }
  | _, none => { st := s }
  | _, some g =>
    let want : SeqState := if kind = .decode then .decode else .prefill
    ((s.seqs.select (fun _ q => q.ctx == c && q.state == want)).keys).foldl (fun b n => takeSeq c g kind n b)
      { st := s, left := cnt, errors := errs }

/-! ### Token-ring room (R269, R274) -/

/-- The token rings that FINAL sequences of the batch name and that do not exist for the context, or lack room for the step's records and those
that wait. -/
def ringsLacking (c : CtxId) (b : Batch) : List Nat :=
  let rings := (b.seqs.filter (·.final)).filterMap (fun x => (b.st.seqs.find x.slot).map (fun q => q.tokenRing.toNat))
  rings.eraseDups.filter (fun n =>
    match b.st.tq.find n with
    | none => true
    | some r => r.ctx != c || decide (r.room < count rings (· == n) + (b.st.heldRecs.getD n []).length))

/-- An attempt undone: its pages and the rotation point return, and the STEP waits for some token rings; a sequence stopped by R524 stays
stopped, and reads that were refused will be reported with the chunk's completion. -/
def undoAttempt (c : CtxId) (ring : Nat) (rotation : Option Nat) (lacking : List Nat) (b : Batch) : State :=
  let s := freeEntries c.val b.reserved { b.st with sq := b.st.sq.modify ring (fun q => { q with
    waitsFor := lacking, denied := satAdd q.denied b.denied, step := q.step.map (fun d => { d with hdr := { d.hdr with errors := [] } }) }) }
  updCtx c.val (fun k => { k with
    rotation := rotation
    total := { k.total with accessDenied := satAdd k.total.accessDenied b.denied } }) s

/-! ### The step table (R198) -/

def rowEntry (r : StepRow) : List Byte := leBytes 4 r.slot ++ leBytes 4 r.pos ++ leBytes 4 r.token.toNat ++ leBytes 4 0

def seqEntry (x : StepSeq) : List Byte :=
  leBytes 2 x.slot ++ leBytes 2 (if x.final then 1 else 0) ++ leBytes 4 x.first ++ leBytes 4 x.rows ++ leBytes 4 (x.first + x.rows - 1)

/-- The step table written at STEP_TABLE on the context's behalf. -/
def stepTable (s : State) (c : CtxId) (rows : List StepRow) (seqs : List StepSeq) : List Wr :=
  match (s.ctx c.val).bind (·.kv) with
  | none => []
  | some g =>
    let base := wordAddr g.table
    [⟨base, rows.flatMap rowEntry, false⟩, ⟨base + 0x400000, seqs.flatMap seqEntry, false⟩].filter (fun w => !w.bytes.isEmpty)

/-- A write's granules are open to a context (R155). -/
def wrOpen (s : State) (c : CtxId) (w : Wr) : Bool := openTo s c w.addr w.bytes.length

/-! ### What keeps a step from beginning (R268, R34, R366, R379, R398, R445, R457) -/

/-- The pair keeps a context's next step: point m − B is not yet secured, or the primary holds its secured contexts. -/
def pairKeeps (s : State) (k : Context) : Bool :=
  isPrimary s && s.pair.mode == 2 && decide (k.securing = .secured)
    && (s.pair.held || decide (k.secured.getD 0 + s.setting .cnsStepLoss < k.point + 1))

/-- A fault capture entry of another context awaits its targeted self-test, for at most 10 ms (R159). -/
def captureWaits (s : State) (q : Partition) (c : CtxId) : Bool :=
  q.clusters.any (fun n => (s.cluster n).cores.any (fun m => m.2.capture.any (fun e =>
    (e.orphan || e.ctx != BitVec.ofNat 8 c.val) && !e.readBy && decide ((dieNow s (s.siteOf n) - e.time).toNat < 10 * (ticksPerSecond / 1000)))))

/-- Nothing of a partition or a context keeps a step of it from beginning. -/
def contextReady (s : State) (q : Partition) (c : CtxId) (k : Context) : Bool :=
  decide (q.state = .ready) && q.step.isNone && q.held.isEmpty && !k.halted && decide (k.reset = .none) && !k.waitsFor && !captureWaits s q c

/-- A partition may take a step of a context. -/
def mayBegin (s : State) (q : Partition) (c : CtxId) (k : Context) : Bool := stepsAllowed s && partPowered s q && contextReady s q c k

/-- A ring holds a STEP that the power state alone keeps from beginning. -/
def stepReady (s : State) (q : Ring) : Bool :=
  q.step.isSome && q.waitsFor.isEmpty && s.life.ready && !noServiceDie s && decide (s.update.phase = .idle ∨ s.update.phase = .standbyRestart)
    && !s.pair.entering && decide (s.power.source ≠ .holdover)
    && (match s.ctx q.ctx.val with
      | some k => (s.part k.part.val).any (fun p => contextReady s p q.ctx k)
      | none => false)

/-- A STEP that is ready to begin wakes the module (R366). -/
def wakeForStep (s : State) : State := if s.sq.any (fun e => stepReady s e.2) then autoWake s else s

/-! ### Beginning (R158, R218, R269, R303, R386, R450) -/

/-- Summaries that a partition's share of the 1 GiB cache holds (R218). -/
def cacheShare (s : State) : Nat := 2 ^ 30 / max 1 s.parts.length / 1024

/-- The start time of a locked-pair step (R450): the first whole microsecond at least 2 µs from now. -/
def lockedStart (now : W64) : W64 := BitVec.ofNat 64 ((now.toNat + 8000 + 3999) / 4000 * 4000)

/-- A step to begin. -/
structure Begin where
  ctx     : CtxId
  ring    : RingId
  index   : W32
  irqNow  : Bool := false
  tag     : W32 := 0
  kind    : StepKind
  program : Nat
  count   : Nat
  seqCopy : Option (Fin 2) := none     -- the copy of the sequence engine that differed as it formed the step (R384)
  deriving DecidableEq, Repr

/-- The step that begins with a batch, before it waits for anything. -/
def newStep (s : State) (x : Begin) (k : Context) (b : Batch) (rotation : Option Nat) : Step :=
  { ctx := x.ctx, ring := x.ring, index := x.index, irqNow := x.irqNow, tag := x.tag, kind := x.kind, program := x.program
    number := BitVec.ofNat 32 k.begun
    rowCount := if x.kind = .training then x.count else b.rows.length
    seqCount := b.seqs.length, rows := b.rows, seqs := b.seqs
    counts := { seqDeferred := b.deferred, accessDenied := b.denied }
    deniedBefore := (s.sq.find x.ring.val).elim 0 (·.denied)
    reserved := b.reserved, rotationWas := rotation
    audit := k.auditNext || k.begun % s.setting .errAuditInterval == 0
    started := s.now, cacheCap := cacheShare s
    phase := .between
    dirty := rowsTouched ((stepTable b.st x.ctx b.rows b.seqs).filter (wrOpen b.st x.ctx)) }

/-- A begun step waits for its gang (R303) or, in a locked pair, for its start time (R450); one whose program handle is empty fails
before its first operation (R269). -/
def stepWaits (p : Nat) (x : Begin) (s : State) : State :=
  match s.ctx x.ctx.val with
  | none => s
  | some k =>
    if (k.programs.find x.program).isNone then endStep stProgram 0xFFFFFFFF p s
    else
      match k.gang with
      | some g => gangArrive g.val x.ctx (updStep p (fun t => { t with phase := .gangWait }) s)
      | none =>
        if lockedStep s then
          if s.pair.role = .primary then
            let start := lockedStart (instanceNow s (sitePos (leadSite s p)))
            sendFrame (.stepStart (BitVec.ofNat 8 x.ctx.val) (BitVec.ofNat 32 (k.begun - 1)) start)
              (updStep p (fun t => { t with phase := .lockedHold start }) s)
          else
            match s.pair.starts.find? (fun y => y.1.toNat == x.ctx.val && y.2.1 == BitVec.ofNat 32 (k.begun - 1)) with
            | some y => updStep p (fun t => { t with phase := .lockedHold y.2.2 }) s
            | none => updStep p (fun t => { t with phase := .begun }) s
        else s

/-- The clusters of a partition made ready for a step: zeroed where its context is another than the last (R158), and the capture entries of other
contexts with them (R159). -/
def clearClusters (q : Partition) (c : CtxId) (s : State) : State :=
  let other := match q.lastCtx with
    | some d => d != c
    | none => false
  q.clusters.foldl (fun s n =>
    dropCaptures n (fun e => e.orphan || e.ctx != BitVec.ofNat 8 c.val) (if other then zeroCluster n s else thawCluster n s)) s

/-- The copies of the sequence engine have differed as they formed a step: it fails before its first operation (R380, R384). -/
def formingDiffers (p : Nat) (t : Step) (copy : Nat) (s : State) : State :=
  let s := detect 0x03 (seqUnit copy) { stepMet s p stChecksum with op := 0xFFFFFFFF } s
  endStep stChecksum 0xFFFFFFFF p (updCtx t.ctx.val (fun k => { k with auditNext := true }) s)

/-- A step begins with its batch. A step table that lies in part outside the context's granules fails the step (R155). -/
def beginStep (p : Nat) (x : Begin) (rotation : Option Nat) (b : Batch) : State :=
  let s := b.st
  match s.part p, s.ctx x.ctx.val with
  | some q, some k =>
    let t := newStep s x k b rotation
    let s := clearClusters q x.ctx s
    let s := if t.audit then (partSites s q).foldl (fun s i => updCounters i (fun c => { c with auditSteps := satAdd c.auditSteps 1 }) s) s else s
    let table := stepTable s x.ctx b.rows b.seqs
    let shut := !table.all (wrOpen s x.ctx)
    let s := (table.filter (wrOpen s x.ctx)).foldl (fun s w => ctxWrite x.ctx w.addr w.bytes s) s
    let s := updPart p (fun q => { q with step := some t }) { s with sq := s.sq.modify x.ring.val (fun q => { q with denied := 0 }) }
    let s := updCtx x.ctx.val (fun k => { k with begun := k.begun + 1, auditNext := false, pairHold := false }) s
    if shut then endStep stAccess 0xFFFFFFFF p (countStep p (fun c => { c with accessDenied := satAdd c.accessDenied 1 }) s)
    else
      match x.seqCopy with
      | some k => if s.errs.seqCopyOff then stepWaits p x s else formingDiffers p t k.val s
      | none => stepWaits p x s
  | _, _ => s

/-- LOCKED_STEP_START_AT_S: the Reckoner has reached S, and operation 0 goes to the S-cores. -/
def lockedStarts (p : PartId) (s : State) : State :=
  updStep p.val (fun t => match t.phase with
    | .lockedHold x => if navigatorAt p.val x s then { t with phase := .between } else t
    | _ => t) s

def execLockedStepStartAtS (p : PartId) (s : State) : Out := .next (lockedStarts p s)

end Sys2Proof.Machine
end

