-- ==== Sys2Proof/Machine/Descriptors.lean ====
section
/-! DEFINITION. Submission descriptors: their 64 bytes, what each does, and how the W96 takes one from its ring (R194 to R196, R202,
R256, R264 to R273, R278, R279, R449).
Rests on the log entries (notes/assumptions/<n>.md) 9 (DESIGN CHOICE), 24 (DESIGN CHOICE), 29 (DEDUCED), 30 (DEDUCED), 33 (DEDUCED), 36 (DEDUCED), 46
(DEDUCED). -/
namespace Sys2Proof.Machine

/-! ### Descriptors (R267) -/

/-- A descriptor's body. -/
inductive Desc where
  | nop
  | step (kind : Byte) (program : W16) (count : W32)
  | programLoad (program : W16) (count : W32) (host : W64)
  | programUnload (program : W16)
  | seqAdmit (a : AdmitArgs)
  | seqCancel (slot : W32)
  | seqRetire (slot : W32)
  | write (host : W64) (ss : BitVec 36) (length : W64)
  | read (host : W64) (ss : BitVec 36) (length : W64)
  | reserved (type : Byte)
  deriving DecidableEq, Repr

def Desc.type : Desc → Byte
  | .nop => 0x00 | .step _ _ _ => 0x01 | .programLoad _ _ _ => 0x02 | .programUnload _ => 0x03 | .seqAdmit _ => 0x04
  | .seqCancel _ => 0x05 | .seqRetire _ => 0x06 | .write _ _ _ => 0x07 | .read _ _ _ => 0x08 | .reserved t => t

/-- The body from offset 0x08. -/
def Desc.body : Desc → List Byte
  | .nop => []
  | .step k p n => leBytes 2 k.toNat ++ leBytes 2 p.toNat ++ leBytes 4 n.toNat
  | .programLoad p n a => leBytes 4 p.toNat ++ leBytes 4 n.toNat ++ leBytes 8 a.toNat
  | .programUnload p => leBytes 4 p.toNat
  | .seqAdmit a => [a.tokenRing, a.stopSet] ++ leBytes 2 a.topK.toNat ++ leBytes 4 a.promptLen.toNat ++ leBytes 4 a.maxLen.toNat
      ++ leBytes 4 a.promptAddr.toNat ++ leBytes 4 a.temp.toNat ++ leBytes 4 a.topP.toNat ++ leBytes 4 a.seed.toNat ++ leBytes 4 0
      ++ leBytes 8 a.hostTag.toNat
  | .seqCancel n => leBytes 4 n.toNat
  | .seqRetire n => leBytes 4 n.toNat
  | .write h ss n => leBytes 8 h.toNat ++ leBytes 8 ss.toNat ++ leBytes 8 n.toNat
  | .read h ss n => leBytes 8 h.toNat ++ leBytes 8 ss.toNat ++ leBytes 8 n.toNat
  | .reserved _ => []

/-- The 64 bytes of a descriptor. -/
def Desc.bytes (d : Desc) (h : DescHdr) : List Byte :=
  padList 64 0 ([d.type] ++ leBytes 3 (if h.irqNow then 1 else 0) ++ leBytes 4 h.tag.toNat ++ d.body)

/-- A descriptor from its 64 bytes. -/
def descOfBytes (bs : List Byte) : Desc :=
  let w (o n : Nat) : Nat := leNat ((bs.drop o).take n)
  let w32 (o : Nat) : W32 := BitVec.ofNat 32 (w o 4)
  match w 0 1 with
  | 0 => .nop
  | 1 => .step (BitVec.ofNat 8 (w 8 1)) (BitVec.ofNat 16 (w 10 2)) (w32 12)
  | 2 => .programLoad (BitVec.ofNat 16 (w 8 2)) (w32 12) (BitVec.ofNat 64 (w 16 8))
  | 3 => .programUnload (BitVec.ofNat 16 (w 8 2))
  | 4 => .seqAdmit { tokenRing := bs.getD 8 0, stopSet := bs.getD 9 0, topK := BitVec.ofNat 16 (w 10 2), promptLen := w32 12, maxLen := w32 16
                     promptAddr := w32 20, temp := w32 24, topP := w32 28, seed := w32 32, hostTag := BitVec.ofNat 64 (w 40 8) }
  | 5 => .seqCancel (w32 8)
  | 6 => .seqRetire (w32 8)
  | 7 => .write (BitVec.ofNat 64 (w 8 8)) (BitVec.ofNat 36 (w 16 8)) (BitVec.ofNat 64 (w 24 8))
  | 8 => .read (BitVec.ofNat 64 (w 8 8)) (BitVec.ofNat 36 (w 16 8)) (BitVec.ofNat 64 (w 24 8))
  | t => .reserved (BitVec.ofNat 8 t)

/-- A descriptor that is reserved, or exceeds a limit of R267 (R272); a HOST_ADDR of PROGRAM_LOAD that is not 64-byte aligned is one
(DEDUCED: notes/assumptions/30.md). -/
def Desc.invalid : Desc → Bool
  | .step k p n => decide (k.toNat > 2) || decide (p.toNat > 63) || (decide (k.toNat ≠ 0) && decide (n.toNat > 262144))
  | .programLoad p n a => decide (p.toNat > 63) || decide (n.toNat > 65536) || decide (a.toNat % 64 ≠ 0)
  | .programUnload p => decide (p.toNat > 63)
  | .write _ _ n => decide (n.toNat > segmentBytes)
  | .read _ _ n => decide (n.toNat > segmentBytes)
  | .reserved _ => true
  | .nop => false | .seqAdmit _ => false | .seqCancel _ => false | .seqRetire _ => false

def kindOf (k : Byte) : StepKind := if k = 0 then .decode else if k = 1 then .prefill else .training

/-! ### Admission (R194, R195, R202, R270) -/

/-- The lowest run of n directory entries that no sequence holds. -/
def directoryRun (s : State) (n : Nat) : Option Nat :=
  let runs := s.seqs.filterMap (fun (_, q) => ((s.ctx q.ctx.val).bind (·.kv)).map (fun c => (q.dirBase, q.run c)))
  let free (a : Nat) : Bool := decide (a + n ≤ 2 ^ 27) && runs.all (fun r => decide (a + n ≤ r.1) || decide (r.1 + r.2 ≤ a))
  ((0 :: runs.map (fun r => r.1 + r.2)).filter free).foldl (fun b a =>
    match b with
    | none => some a
    | some x => some (min x a)) none

/-- The lowest reason that refuses an admission, in the order of R270: 0 for none. -/
def admitReason (s : State) (c : CtxId) (k : Context) (a : AdmitArgs) : Nat :=
  let held := count s.seqs (fun e => e.2.ctx == c)
  let t := ofF32 a.temp
  let p := ofF32 a.topP
  let run := match k.kv with
    | some g => directoryRun s (g.layers * g.groups * ceilDiv a.maxLen.toNat 64)
    | none => some 0
  if (k.usesSeq && decide (k.quota ≤ held)) || (Tab.lowestFree s.seqs 32768).isNone then 1
  else if a.maxLen.toNat ≤ a.promptLen.toNat then 2
  else if a.maxLen.toNat > 262144 then 3
  else if t.isSpecial || t.lt .zero then 4
  else if !(Num.lt .zero p && p.le .one) then 5
  else if a.topK.toNat > 1024 then 6
  else if a.stopSet.toNat ≥ 16 && a.stopSet ≠ 0xFF then 7
  else if run.isNone then 8
  else if !(match s.tq.find a.tokenRing.toNat with
      | some r => r.ctx == c
      | none => false) then 9
  else if !k.usesSeq || k.kv.isNone then 10
  else if !openTo s c (wordAddr a.promptAddr) (4 * a.promptLen.toNat) then 11
  else 0

/-- The entry of an admitted sequence. -/
def admitted (c : CtxId) (base : Nat) (a : AdmitArgs) : Seq :=
  { state := .prefill, ctx := c, tokenRing := a.tokenRing, stopSet := a.stopSet, promptLen := a.promptLen.toNat, maxLen := a.maxLen.toNat
    dirBase := base, dirSpan := ceilDiv a.maxLen.toNat 64, promptAddr := a.promptAddr, temp := a.temp, topP := a.topP
    topK := a.topK.toNat, seed := a.seed, hostTag := a.hostTag }

def markChanged (c : CtxId) : State → State := updCtx c.val (fun k => { k with changed := true })

def admitSeq (c : CtxId) (a : AdmitArgs) (s : State) : DescEnd × State :=
  if a.promptLen = 0 then ({ zero := true }, s)
  else
    match s.ctx c.val with
    | none => ({}, s)
    | some k =>
      let r := admitReason s c k a
      if r ≠ 0 then ({ status := stAdmit, result := BitVec.ofNat 32 r }, s)
      else
        match k.kv, Tab.lowestFree s.seqs 32768 with
        | some g, some slot =>
          match directoryRun s (g.layers * g.groups * ceilDiv a.maxLen.toNat 64) with
          | some base =>
            ({ result := BitVec.ofNat 32 slot }, markChanged c { s with seqs := s.seqs.put slot (admitted c base a) })
          | none => ({ status := stAdmit, result := 8 }, s)
        | _, _ => ({ status := stAdmit, result := 10 }, s)

/-! ### Cancel and retire (R196, R224, R269) -/

/-- A slot has a row in a running step. -/
def inRunningStep (s : State) (slot : Nat) : Bool :=
  s.parts.any (fun e => match e.2.step with
    | some t => t.seqs.any (fun x => x.slot == slot)
    | none => false)

def ownSeq (s : State) (c : CtxId) (slot : Nat) : Option Seq := (s.seqs.find slot).bind (fun q => if q.ctx = c then some q else none)

def cancelSeq (c : CtxId) (slot : Nat) (s : State) : DescEnd × State :=
  match ownSeq s c slot with
  | none => ({ status := stSlot }, s)
  | some q =>
    if q.state = .stopped || q.state = .lost then ({}, s)
    else if inRunningStep s slot then ({}, updSeq slot (fun q => { q with cancel := true }) s)
    else
      ({}, markChanged c (updSeq slot (fun q => { q with state := .stopped, stopReason := 0x03 }) (seqNotice slot 0x03 true s)))

def retireSeq (c : CtxId) (slot : Nat) (s : State) : DescEnd × State :=
  match ownSeq s c slot with
  | none => ({ status := stSlot }, s)
  | some _ =>
    if inRunningStep s slot then ({}, updSeq slot (fun q => { q with retire := true }) s)
    else ({}, freeSeq slot s)

/-! ### Transfers (R135, R145, R155, R269, R278) -/

/-- What stops a transfer before anything moves. -/
def transferBad (s : State) (c : CtxId) (a n : Nat) : Option Byte :=
  if a + n > 100 * segmentBytes then some stAddress
  else if !openTo s c a n then some stAccess
  else none

/-- ACCESS_DENIED counted in the context (R155, R160). -/
def countDenied (c : CtxId) : State → State :=
  updCtx c.val (fun k => { k with total := { k.total with accessDenied := satAdd k.total.accessDenied 1 } })

def failDesc (c : CtxId) (st : Byte) (s : State) : DescEnd × State :=
  ({ status := st }, if st = stAccess then countDenied c s else s)

/-- A poisoned word met by a descriptor: reported for its context and its row mapped (R146, R380). -/
def descPoison (c : CtxId) (w : Nat) (s : State) : State := outsidePoison stMemory c w s

/-- WRITE: whole words replace poison; a partial write to a poisoned word fails. -/
def writeDesc (c : CtxId) (a n : Nat) (bytes : List Byte) (s : State) : DescEnd × State :=
  if n = 0 then ({ zero := true }, s)
  else
    match transferBad s c a n with
    | some st => failDesc c st s
    | none =>
      match ((wordsOf a n).filter (fun w => !coversWord a n w)).find? (fun w => s.memPoison.contains w) with
      | some w => ({ status := stMemory }, descPoison c w s)
      | none => ({ result := BitVec.ofNat 32 n }, ctxWrite c a bytes s)

/-- READ: every byte before the first poisoned word goes to the host. -/
def readDesc (c : CtxId) (fn : Fn) (host : W64) (a n : Nat) (s : State) : DescEnd × State :=
  if n = 0 then ({ zero := true }, s)
  else
    match transferBad s c a n with
    | some st => failDesc c st s
    | none =>
      match (wordsOf a n).find? (fun w => s.memPoison.contains w) with
      | some w =>
        let m := 64 * w - a
        let s := if m = 0 then s else emit fn.val (.data fn host (s.ssRead a m)) s
        ({ status := stMemory, result := BitVec.ofNat 32 m }, descPoison c w s)
      | none => ({ result := BitVec.ofNat 32 n }, emit fn.val (.data fn host (s.ssRead a n)) s)

/-! ### Programs (R269) -/

/-- A running step of the context uses the handle. -/
def handleInUse (s : State) (c : CtxId) (h : Nat) : Bool :=
  match runningStep s c.val with
  | some (_, t) => t.program == h
  | none => false

/-- A new program travels to the secondary once (R439). -/
def programSnapshot (c : CtxId) (h : Nat) (s : State) : State :=
  match s.ctx c.val with
  | none => s
  | some k =>
    if isPrimary s && s.pair.mode == 2 && decide (k.securing ≠ .notSecured) then
      (programPieces s { k with programs := k.programs.select (fun n _ => n == h) }).foldl
        (fun s x => sendFrame (.snapshot (BitVec.ofNat 8 c.val) (pieceBody s 0xFFFFFFFF x)) s) s
    else s

def loadProgram (c : CtxId) (h n : Nat) (bytes : List Byte) (s : State) : DescEnd × State :=
  if n = 0 then ({ zero := true }, s)
  else
    match placeProgram c.val h n bytes s with
    | some s => ({}, programSnapshot c h s)
    | none => ({ status := stProgram }, s)

def unloadProgram (c : CtxId) (h : Nat) (s : State) : DescEnd × State :=
  ({}, updCtx c.val (fun k => { k with programs := k.programs.drop h }) s)

/-! ### The effect of a descriptor other than STEP -/

/-- The effect of a descriptor for its context, through a function; bytes are what host memory gave for it. -/
def descEffect (c : CtxId) (fn : Fn) (d : Desc) (bytes : List Byte) (s : State) : DescEnd × State :=
  if d.invalid then ({ status := stDesc }, s)
  else
    match d with
    | .nop => ({}, s)
    | .step _ _ _ => ({}, s)
    | .programLoad h n _ => loadProgram c h.toNat n.toNat bytes s
    | .programUnload h => unloadProgram c h.toNat s
    | .seqAdmit a => admitSeq c a s
    | .seqCancel n => cancelSeq c n.toNat s
    | .seqRetire n => retireSeq c n.toNat s
    | .write _ a n => writeDesc c a.toNat n.toNat bytes s
    | .read h a n => readDesc c fn h a.toNat n.toNat s
    | .reserved _ => ({ status := stDesc }, s)

/-- A descriptor that waits before it begins: a program handle that a running step uses (R269). -/
def Desc.waits (s : State) (c : CtxId) : Desc → Bool
  | .programLoad h n _ => n ≠ 0 && handleInUse s c h.toNat
  | .programUnload h => handleInUse s c h.toNat
  | _ => false

/-- Words of the shared store that a descriptor reads: those of a READ, and those of a WRITE that it covers in part (R135). -/
def Desc.wordsRead : Desc → List Nat
  | .read _ a n => wordsOf a.toNat n.toNat
  | .write _ a n => (wordsOf a.toNat n.toNat).filter (fun w => !coversWord a.toNat n.toNat w)
  | _ => []

/-- The bytes of the shared store that a descriptor touches. -/
def Desc.range : Desc → Nat × Nat
  | .read _ a n => (a.toNat, n.toNat)
  | .write _ a n => (a.toNat, n.toNat)
  | _ => (0, 0)

/-- Errors that a descriptor's reads of the shared store find, once it has been let in (R142). -/
def descErrors (c : CtxId) (d : Desc) (errs : List (Nat × WordFlips)) (s : State) : State :=
  if !d.invalid && (transferBad s c d.range.1 d.range.2).isNone then
    segmentErrors (errs.filter (fun e => d.wordsRead.contains e.1)) { ctx := BitVec.ofNat 8 c.val } s
  else s

/-! ### Taking a descriptor (R256, R264, R265, R268) -/

/-- The next unread entry of a submission ring may begin. -/
def takeable (s : State) (n : Nat) : Option (Ring × Context) :=
  match s.sq.find n with
  | none => none
  | some q =>
    match s.cq.find q.compRing, s.ctx q.ctx.val with
    | some r, some k =>
      if s.link.up && (s.fnr q.fn.val).bme && q.cons != q.prod && q.begun.isNone && decide (r.reserved < r.room) && !k.halted
          && decide (k.reset = .none) && !(s.pair.fenced && decide (k.securing = .secured)) then some (q, k) else none
    | _, _ => none

/-- The entry is read: its completion entry is reserved, the consumer index advances and is written back. -/
def readEntry (n : Nat) (q : Ring) (s : State) : State :=
  let s := { s with sq := s.sq.put n { q with cons := q.cons + 1, begun := some q.cons, step := none, waitsFor := [] } }
  let s := { s with cq := s.cq.modify q.compRing (fun r => { r with reserved := r.reserved + 1 }) }
  emit q.fn.val (.index q.fn q.wb (q.cons + 1)) s

/-- Bits of HIF_ERR (R258). -/
def errBadAccess : Nat := 0
def errSetupBusy : Nat := 1
def errRange : Nat := 2
def errUnowned : Nat := 3
def errHostRead : Nat := 4
def errStatusBlock : Nat := 5

def setErr (f : Nat) (n : Nat) : State → State := updFn f (fun r => { r with err := r.err ||| BitVec.ofNat 6 (2 ^ n) })

/-- Host bytes that one DESC_FWD frame carries past its offset 0x48 (R431, R432). -/
def hostBytesPerFrame : Nat := 4024

/-- The primary of a locked pair forwards a descriptor with its host bytes, continued in further frames, each of which names the descriptor again (R432,
R449; DEDUCED: notes/assumptions/46.md). -/
def forwardDesc (n : Nat) (q : Ring) (d : Desc) (h : DescHdr) (bytes : List Byte) (s : State) : State :=
  if lockedStep s && decide (s.pair.role = .primary) then
    (chunks hostBytesPerFrame (max 1 ((bytes.length + hostBytesPerFrame - 1) / hostBytesPerFrame)) bytes).foldl
      (fun s b => sendFrame (.desc (BitVec.ofNat 8 q.ctx.val) (BitVec.ofNat 8 n) q.cons (d.bytes h) b) s) s
  else s

/-- An admission that the primary refuses for its token ring: the secondary, which has no rings, is not sent it. -/
def Desc.ringRefused (s : State) (c : CtxId) : Desc → Bool
  | .seqAdmit a => a.promptLen ≠ 0 && (match s.ctx c.val with
      | some k => decide (admitReason s c k a = 9)
      | none => false)
  | _ => false

/-! ### Transfers in pieces (R269, R278, R417) -/

/-- The transfer of a WRITE or READ that does not end within the first 4 KiB of the shared store it reaches; nothing keeps it from moving. -/
def longTransfer (q : Ring) (h : DescHdr) (d : Desc) (bytes : List Byte) (s : State) : Option Moving :=
  let long (a n : Nat) : Bool := decide (4096 < a % 4096 + n) && (transferBad s q.ctx a n).isNone
  if d.invalid then none
  else
    match d with
    | .write host a n =>
      if long a.toNat n.toNat then some { type := 0x07, tag := h.tag, irqNow := h.irqNow, host := host, ss := a.toNat, length := n.toNat, bytes := bytes } else none
    | .read host a n =>
      if long a.toNat n.toNat then some { type := 0x08, tag := h.tag, irqNow := h.irqNow, host := host, ss := a.toNat, length := n.toNat } else none
    | _ => none

/-- Bytes to the next 4 KiB boundary of the shared store, or to the transfer's end. -/
def Moving.piece (m : Moving) : Nat := min (m.length - m.moved) (4096 - (m.ss + m.moved) % 4096)

/-- A running transfer ends: RESULT is all that has moved. -/
def endTransfer (n : Nat) (m : Moving) (index : W32) (status : Byte) (moved : Nat) (s : State) : State :=
  completeDesc n index m.tag m.type m.irqNow { status := status, result := BitVec.ofNat 32 moved }
    { s with sq := s.sq.modify n (fun q => { q with moving := none }) }

/-- A running transfer moves its bytes up to the next 4 KiB boundary; the last of them completes it, and what stops a piece stops it. -/
def movePiece (n : Nat) (s : State) : State :=
  match s.sq.find n with
  | none => s
  | some q =>
    match q.moving, q.begun with
    | some m, some index =>
      let a := m.ss + m.moved
      let k := m.piece
      let (x, s) := if m.type = 0x07 then writeDesc q.ctx a k (m.bytes.take k) s
        else readDesc q.ctx q.fn (m.host + BitVec.ofNat 64 m.moved) a k s
      if x.status ≠ stDone then endTransfer n m index x.status (m.moved + x.result.toNat) s
      else if m.length ≤ m.moved + k then endTransfer n m index stDone m.length s
      else { s with sq := s.sq.modify n (fun q => { q with moving := some { m with moved := m.moved + k, bytes := m.bytes.drop k } }) }
    | _, _ => s

/-- A running transfer moves on: routes do not change, its context is not being reset, and its function may read host memory (R256, R285, R417). -/
def movesOn (s : State) (q : Ring) : Bool :=
  q.moving.isSome && !s.wafer.stopped && s.link.up && (s.fnr q.fn.val).bme && (s.ctx q.ctx.val).any (fun k => decide (k.reset = .none))

/-- Position of the segment that a shared-store address lies in. -/
def segmentAt (s : State) (a : Nat) : Nat := sitePos (dieSite (s.siteOf (a / segmentBytes)))

/-- A transfer's piece crosses the fabric, as a header flit and its data flits: a WRITE's on VC1 from the host die to the segment, a READ's data on VC2
from the segment to the host die (R283, R286). -/
def Moving.cross (m : Moving) (s : State) : State :=
  let seg := segmentAt s (m.ss + m.moved)
  let flits := 1 + (m.piece + 511) / 512
  if m.type = 0x07 then followRoute 1 flits (fabricRoute s.wafer.routesFor 1 hostPos seg) 4 s
  else followRoute 2 flits (fabricRoute s.wafer.routesFor 2 seg hostPos) 5 s

/-- The rings of running transfers in the order in which their pieces go: WRITEs as the host die sends them, then READs as the router of the host die
serves its inputs (R286). -/
def transferOrder (s : State) : List Nat × State :=
  let run := s.sq.select (fun _ q => movesOn s q)
  let arriving := run.filterMap (fun (n, q) => match q.moving with
    | some m =>
      if m.type = 0x07 then none
      else some (n, exitPort hostPos (((fabricRoute s.wafer.routesFor 2 (segmentAt s (m.ss + m.moved)) hostPos).dropLast.getLast?).getD hostPos))
    | none => none)
  let (reads, o) := servedOrder 2 arriving.length arriving (s.wafer.outs.getD (8 * hostPos + 4) {})
  (run.keys.filter (fun n => !reads.contains n) ++ reads
  , if arriving.isEmpty then s else { s with wafer := { s.wafer with outs := s.wafer.outs.put (8 * hostPos + 4) o } })

/-- Every running transfer moves its next piece. -/
def moveTransfers (s : State) : State :=
  let (order, s) := transferOrder s
  order.foldl (fun s n => movePiece n (match (s.sq.find n).bind (·.moving) with
    | some m => m.cross s
    | none => s)) s

/-- What passes on an empty queue: a tick, a piece of each transfer that runs, and the wake by a STEP that has become ready (DESIGN CHOICE:
notes/assumptions/9.md). -/
def pass (s : State) : State := wakeForStep (moveTransfers (idle s))

/-- A descriptor other than STEP is taken, acts and completes; a long transfer moves its first piece and runs on; a read of host memory that fails
completes it with HOST_READ_ERROR. -/
def takeDesc (ring : RingId) (h : DescHdr) (d : Desc) (bytes : List Byte) (body : HostRead) (s : State) : State :=
  match takeable s ring.val with
  | none => s
  | some (q, _) =>
    if h.read = .ok && !d.invalid && d.waits s q.ctx then s
    else
      let s := readEntry ring.val q s
      let bad := h.read = .failed || (body = .failed && !d.invalid)
      if bad then
        completeDesc ring.val q.cons h.tag d.type h.irqNow { status := stHostRead } (setErr q.fn.val errHostRead s)
      else
        let s := if d.ringRefused s q.ctx then s else forwardDesc ring.val q d h bytes s
        let s := descErrors q.ctx d h.errors s
        match longTransfer q h d bytes s with
        | some m => movePiece ring.val { s with sq := s.sq.modify ring.val (fun q => { q with moving := some m }) }
        | none =>
          let (x, s) := descEffect q.ctx q.fn d bytes s
          completeDesc ring.val q.cons h.tag d.type h.irqNow x s

/-- The Navigator tries the STEP that a ring holds: it begins; or it waits for token rings or for the pair, and nothing of the attempt stays. -/
def tryStep (n : Nat) (s : State) : State :=
  match takeable s n with
  | none => s
  | some (q, k) =>
    match q.step, s.part k.part.val with
    | some d, some part =>
      if !q.waitsFor.isEmpty || !mayBegin s part q.ctx k then s
      else if pairKeeps s k then updCtx q.ctx.val (fun k => { k with pairHold := true }) s
      else
        let b := formBatch q.ctx (kindOf d.kind) d.count.toNat d.hdr.errors s
        let lacking := ringsLacking q.ctx b
        if !lacking.isEmpty then undoAttempt q.ctx n k.rotation lacking b
        else
          let s := forwardDesc n q (.step d.kind d.program d.count) d.hdr [] (readEntry n q b.st)
          beginStep k.part.val
            ⟨q.ctx, asRing n, q.cons, d.hdr.irqNow, d.hdr.tag, kindOf d.kind, d.program.toNat, d.count.toNat, d.hdr.seqCopy⟩ k.rotation { b with st := s }
    | _, _ => s

/-- Rings in round robin: in ascending order from the one after the ring whose step ran last (R268). -/
def robin (last : Option RingId) (rings : List Nat) : List Nat :=
  match last with
  | none => rings
  | some r => rings.filter (fun n => decide (r.val < n)) ++ rings.filter (fun n => decide (n ≤ r.val))

/-- The rings of a partition's contexts that hold a STEP. -/
def ringsWithStep (s : State) (p : Nat) : List Nat :=
  (s.sq.select (fun _ q => q.step.isSome && (s.ctx q.ctx.val).any (fun k => k.part.val == p))).keys

/-- The Navigator of a partition takes the first STEP in round robin that may begin. -/
def navigate (p : Nat) (s : State) : State :=
  (robin ((s.part p).bind (·.lastRing)) (ringsWithStep s p)).foldl (fun s n => tryStep n s) s

/-- A STEP has been read: the Navigator of its context's partition chooses among those that are ready. -/
def takeStep (ring : RingId) (h : DescHdr) (kind : Byte) (program : W16) (cnt : W32) (s : State) : State :=
  match takeable s ring.val with
  | none => s
  | some (_, k) =>
    if h.read = .failed || (Desc.step kind program cnt).invalid then takeDesc ring h (.step kind program cnt) [] .ok s
    else
      let s := { s with sq := s.sq.modify ring.val (fun q => { q with step := some ⟨h, kind, program, cnt⟩ }) }
      if stepsAllowed s then navigate k.part.val s
      else wakeForStep s

/-! ### Commands -/

def execNopDescriptor (ring : RingId) (h : DescHdr) (s : State) : Out := done s (takeDesc ring h .nop [] .ok)
def execStepDecode (ring : RingId) (h : DescHdr) (program : W16) (s : State) : Out := done s (takeStep ring h 0 program 0)
def execStepPrefill (ring : RingId) (h : DescHdr) (program : W16) (count : W32) (s : State) : Out :=
  done s (takeStep ring h 1 program count)
def execStepTraining (ring : RingId) (h : DescHdr) (program : W16) (count : W32) (s : State) : Out :=
  done s (takeStep ring h 2 program count)
def execProgramLoad (ring : RingId) (h : DescHdr) (program : W16) (count : W32) (hostAddr : W64) (bytes : List Byte) (body : HostRead)
    (s : State) : Out :=
  done s (takeDesc ring h (.programLoad program count hostAddr) bytes (if count = 0 then .ok else body))
def execProgramUnload (ring : RingId) (h : DescHdr) (program : W16) (s : State) : Out :=
  done s (takeDesc ring h (.programUnload program) [] .ok)
def execSeqAdmit (ring : RingId) (h : DescHdr) (a : AdmitArgs) (s : State) : Out := done s (takeDesc ring h (.seqAdmit a) [] .ok)
def execSeqCancel (ring : RingId) (h : DescHdr) (slot : W32) (s : State) : Out := done s (takeDesc ring h (.seqCancel slot) [] .ok)
def execSeqRetire (ring : RingId) (h : DescHdr) (slot : W32) (s : State) : Out := done s (takeDesc ring h (.seqRetire slot) [] .ok)
def execWrite (ring : RingId) (h : DescHdr) (hostAddr : W64) (ssAddr : BitVec 36) (length : W64) (bytes : List Byte) (body : HostRead)
    (s : State) : Out :=
  done s (takeDesc ring h (.write hostAddr ssAddr length) bytes (if length = 0 then .ok else body))
def execRead (ring : RingId) (h : DescHdr) (hostAddr : W64) (ssAddr : BitVec 36) (length : W64) (s : State) : Out :=
  done s (takeDesc ring h (.read hostAddr ssAddr length) [] .ok)

/-- A descriptor of a reserved TYPE, a STEP of a reserved KIND, or one that exceeds a limit: the type is the one it was read with. -/
def reservedDesc (ring : RingId) (h : DescHdr) (type : Byte) (s : State) : State :=
  match takeable s ring.val with
  | none => s
  | some (q, _) =>
    let s := readEntry ring.val q s
    if h.read = .failed then completeDesc ring.val q.cons h.tag type h.irqNow { status := stHostRead } (setErr q.fn.val errHostRead s)
    else completeDesc ring.val q.cons h.tag type h.irqNow { status := stDesc } (forwardDesc ring.val q (.reserved type) h [] s)

def execDescReservedType (ring : RingId) (h : DescHdr) (type : Byte) (s : State) : Out := done s (reservedDesc ring h type)

end Sys2Proof.Machine
end

