-- ==== Sys2Proof/Machine/Rings.lean ====
section
/-! DEFINITION. Doorbells, the status block, coalescing and time-outs of reads of host memory (R251, R254, R256, R263 to R266, R274 to
R277, R437).
Rests on the log entries (notes/assumptions/<n>.md) 37 (DEDUCED), 61 (PRESUMED). -/
namespace Sys2Proof.Machine

/-! ### Doorbells (R254, R264, R266, R437) -/

/-- A function reaches a context: the PF every one, a VF those of its partition (R254). -/
def reaches (s : State) (f : Fn) (c : CtxId) : Bool :=
  f.val == 0 || (match s.ctx c.val with
    | some k => k.part.val + 1 == f.val
    | none => false)

/-- A producer index that is refused (R266). -/
def producerBad (r : Ring) (v : W32) : Bool := decide ((v - r.cons).toInt > 2 ^ r.log2) || decide ((v - r.prod).toInt < 0)

/-- A consumer index that is refused. -/
def consumerBad (r : Ring) (v : W32) : Bool := decide ((v - r.prod).toInt > 0) || decide ((v - r.cons).toInt < 0)

/-- A doorbell for a ring of one kind: unowned, out of range, or accepted. -/
def doorbell (f : Fn) (r : Option Ring) (bad : Ring → Bool) (accept : Ring → State → State) (s : State) : State :=
  if !s.link.up then s
  else
    match r with
    | none => setErr f.val errUnowned s
    | some r =>
      if isSecondary s || !reaches s f r.ctx then setErr f.val errUnowned s
      else if bad r then setErr f.val errRange s
      else accept r s

def execRingSqTail (fn : Fn) (ring : RingId) (value : W32) (s : State) : Out :=
  .next (doorbell fn (s.sq.find ring.val) (producerBad · value)
    (fun r s => { s with sq := s.sq.put ring.val { r with prod := value } }) s)

def execRingCqHead (fn : Fn) (ring : RingId) (value : W32) (s : State) : Out :=
  .next (doorbell fn (s.cq.find ring.val) (consumerBad · value)
    (fun r s => { s with cq := s.cq.put ring.val { r with cons := value } }) s)

def execRingTqHead (fn : Fn) (ring : RingId) (value : W32) (s : State) : Out :=
  .next (doorbell fn (s.tq.find ring.val) (consumerBad · value)
    (fun r s => wakeSteps ring.val (releaseHeld ring.val { s with tq := s.tq.put ring.val { r with cons := value } })) s)

/-! ### The status block (R275, R276) -/

def stateBit (b : Bool) (n : Nat) : Nat := if b then 2 ^ n else 0

/-- TOKEN_WAIT: a STEP of the context waits for a token ring (R269). -/
def tokenWait (s : State) (c : Nat) : Bool := s.sq.any (fun e => e.2.ctx.val == c && !e.2.waitsFor.isEmpty)

/-- Records of a ring that are still held for its function, at addresses of the ring: entries of some bytes. -/
def heldOf (s : State) (r : Ring) (bytes : Nat) : Nat :=
  let mine (a : W64) : Bool := decide (r.base.toNat ≤ a.toNat) && decide (a.toNat < r.base.toNat + 2 ^ r.log2 * bytes)
  count (s.fnr r.fn.val).held (fun w => match w with
    | .completion _ a _ => bytes == 128 && mine a
    | .token _ a _ => bytes == 32 && mine a
    | .index _ _ _ => false | .data _ _ _ => false | .statusBlock _ _ _ => false | .result _ _ _ => false | .interrupt _ _ _ _ => false)

/-- The producer index that a status block shows: of the records already written (R279). -/
def shownIndex (s : State) (bytes : Nat) (r : Ring) : W32 := r.prod - BitVec.ofNat 32 (heldOf s r bytes)

/-- MARK_WAIT: the step is held by a MARK_WAIT, or by a gang wait until S (R275, R303). -/
def StepPhase.waits : StepPhase → Bool
  | .waiting => true | .gangWait => true | .gangHold _ => true
  | .begun => false | .lockedHold _ => false | .between => false | .running => false | .signalling => false | .compared => false | .ended => false

/-- STATE of a context. -/
def ctxStateWord (s : State) (c : Nat) : Nat :=
  match s.ctx c with
  | none => stateBit (s.scrubs.any (fun x => x.ctx.val == c)) 6
  | some k =>
    let run := runningStep s c
    stateBit true 0 + stateBit k.halted 1 + stateBit run.isSome 2
      + stateBit (match run with
        | some (_, t) => t.phase.waits
        | none => false) 3
      + stateBit (tokenWait s c) 4 + stateBit (k.pairHold || (s.pair.held && decide (k.securing = .secured))) 5
      + stateBit (s.scrubs.any (fun x => x.ctx.val == c)) 6 + stateBit k.lookoutOn 7

/-- The eight words of a context, 0 outside the function's reach. -/
def ctxWords (s : State) (f : Fn) (c : CtxId) : List Nat :=
  match s.ctx c.val with
  | none => if f.val = 0 then [0, 0, 0, 0, 0, ctxStateWord s c.val, 0, 0] else [0, 0, 0, 0, 0, 0, 0, 0]
  | some k =>
    if !reaches s f c then [0, 0, 0, 0, 0, 0, 0, 0]
    else
      let (step, op) := match runningStep s c.val with
        | some (_, t) => (t.number.toNat, if t.current.isSome then t.op else 0xFFFFFFFF)
        | none => (0xFFFFFFFF, 0xFFFFFFFF)
      [k.opsEnded, k.stepsDone, k.descDone, step, op, ctxStateWord s c.val, 0, 0]

/-- The 8 KiB block as words at offsets, HEARTBEAT last. -/
def statusBlock (s : State) (f : Fn) (beat : W32) : List (Nat × W32) :=
  let w (o n : Nat) : Nat × W32 := (o, BitVec.ofNat 32 n)
  let ring (t : Tab Ring) (n : Nat) (g : Ring → W32) : Nat :=
    match t.find n with
    | some r => if reaches s f r.ctx then (g r).toNat else 0
    | none => 0
  [w 4 (s.build.grade + stateBit s.life.ready 2 + stateBit s.life.resetting 3), w 8 ((dieNow s hostDie).toNat % 2 ^ 32), w 12 ((dieNow s hostDie).toNat / 2 ^ 32)]
    ++ (List.range 12).map (fun i => w (0x10 + 4 * i) 0)
    ++ (List.finRange 64).flatMap (fun c => (ctxWords s f c).zipIdx.map (fun (x, i) => w (0x40 + 32 * c.val + 4 * i) x))
    ++ (List.range 256).map (fun n => w (0x840 + 4 * n) (ring s.sq n (·.cons)))
    ++ (List.range 256).map (fun n => w (0xC40 + 4 * n) (ring s.cq n (shownIndex s 128)))
    ++ (List.range 256).map (fun n => w (0x1040 + 4 * n) (ring s.tq n (shownIndex s 32)))
    ++ (List.range 752).map (fun i => w (0x1440 + 4 * i) 0) ++ [(0, beat)]

/-- Every 100 µs the block is written, when it is enabled; a write that fails sets HIF_ERR.STATUS_BLOCK. While Bus Master Enable is
clear the write waits. -/
def statusBlockWrite (f : Fn) (delivered : Bool) (s : State) : State :=
  let r := s.fnr f.val
  if !s.link.up || r.sbLo.toNat % 2 = 0 then s
  else
    let beat := r.heartbeat + 1
    let addr := BitVec.ofNat 64 (r.sbHi.toNat * 2 ^ 32 + r.sbLo.toNat / 4096 * 4096)
    let s := updFn f.val (fun r => { r with heartbeat := beat }) s
    if delivered then emit f.val (.statusBlock f addr (statusBlock s f beat)) s else setErr f.val errStatusBlock s

def execStatusBlockWrite (fn : Fn) (delivered : Bool) (s : State) : Out := .next (statusBlockWrite fn delivered s)

/-! ### Coalescing (R277) -/

/-- COALESCE_US after the first record not yet signalled, the ring raises its vector. -/
def coalesced (r : Ring) (s : State) : Ring × State :=
  match r.vector with
  | some v => if r.unsignalled ≠ 0 && r.coalUs ≠ 0 then (r.raised, interrupt r.fn.val v s) else (r, s)
  | none => (r, s)

def coalesceTimeout (token : Bool) (n : Nat) (s : State) : State :=
  if token then
    match s.tq.find n with
    | some r =>
      let (r, s) := coalesced r s
      { s with tq := s.tq.put n r }
    | none => s
  else
    match s.cq.find n with
    | some r =>
      let (r, s) := coalesced r s
      { s with cq := s.cq.put n r }
    | none => s

def execCoalesceTimeout (token : Bool) (ring : RingId) (s : State) : Out := .next (coalesceTimeout token ring.val s)

/-! ### Completion time-out (R251, R261, R272) -/

/-- Completion Timeout Status of Advanced Error Reporting set in a function (R251; PRESUMED: notes/assumptions/61.md). -/
def reportTimeout (f : Nat) : State → State :=
  updFn f (fun r => { r with reports := { r.reports with uncorrectable := r.reports.uncorrectable ||| 0x4000 } })

/-- A read of host memory that gets no completion: the entry of a ring completes as read, with the fields that were never read
free; or the mailbox's command completes with HOST_READ_ERROR. -/
def completionTimeout (f : Fn) (ring : Option RingId) (s : State) : State :=
  match ring with
  | some n =>
    match takeable s n.val with
    | none => s
    | some (q, _) =>
      if q.fn ≠ f then s
      else
        let s := readEntry n.val q s
        let (v, s) := takeFree s
        completeDesc n.val q.cons (v.setWidth 32) ((v >>> 32).setWidth 8) (v.getLsbD 40) { status := stHostRead } (reportTimeout f.val (setErr f.val errHostRead s))
  | none =>
    let r := s.fnr f.val
    if !s.link.up || !r.bme || r.pending.isSome then s
    else raise f.val evSetup (updFn f.val (fun r => { r with status := stHostRead }) (reportTimeout f.val (setErr f.val errHostRead s)))

def execCompletionTimeout (fn : Fn) (ring : Option RingId) (s : State) : Out := done s (completionTimeout fn ring)

end Sys2Proof.Machine
end

