-- ==== Sys2Proof/Machine/Setup.lean ====
section
/-! DEFINITION. The set-up mailbox and the commands for partitions, contexts, granules and rings (R32, R154, R157, R195, R240, R254,
R256, R261, R262, R278, R317, R321, R354, R437, R438, R441, R459, R507).
Rests on the log entries (notes/assumptions/<n>.md) 9 (DESIGN CHOICE), 31 (DEDUCED), 46 (DEDUCED), 58 (DESIGN CHOICE). -/
namespace Sys2Proof.Machine

/-! ### What the pair secures (R438, R441, R447) -/

def Securing.code : Securing → Nat
  | .notSecured => 0 | .syncing => 1 | .secured => 2

/-- A change of the securing state is reported (R441). A snapshot pass copies the pages that are in use as it begins, and as it ends those given up
return to the pool (R204). -/
def setSecuring (c : Nat) (x : Securing) (s : State) : State :=
  match s.ctx c with
  | none => s
  | some k =>
    if k.securing = x then s
    else note .secured c x.code (updCtx c (fun k => { k with securing := x, copying := if x = .syncing then k.used.keys else [], returning := [] }) s)

/-- A halted context goes on, once its resume takes effect (R273, R398). -/
def resumeCtx (c : Nat) : State → State := updCtx c (fun k => { k with halted := false, resumeDue := false })

/-- A resume that waited for an exchange or a restore takes effect when nothing of either remains. -/
def resumeDueCtx (c : Nat) (s : State) : State :=
  match s.ctx c with
  | none => s
  | some k =>
    let exchanging := match s.part k.part.val with
      | some q => s.build.exchanges.any (fun e => q.groups.contains (e.n / 12))
      | none => false
    if k.resumeDue && !k.waitsFor && !exchanging && decide (k.reset = .none) then resumeCtx c s else s

/-- Lost pages that awaited a copy back are lost. -/
def loseDue (c : Nat) (s : State) : State :=
  match s.ctx c with
  | none => s
  | some k =>
    let s := k.pagesDue.foldl (fun s (_, e) =>
      match holderOf s c e with
      | none => s
      | some slot =>
        match s.seqs.find slot with
        | none => s
        | some q => if q.state = .lost then s else updSeq slot (fun q => { q with state := .lost, stopReason := 0x04 }) (seqNotice slot 0x04 true s)) s
    updCtx c (fun k => { k with pagesDue := [] }) s

/-- A context that the pair secures no longer: no hold, no recovery. -/
def unsecure (c : Nat) (s : State) : State :=
  let s := setSecuring c .notSecured (loseDue c s)
  resumeDueCtx c (updCtx c (fun k => { k with pairHold := false, restore := [], waitsFor := false, dirty := [], freedSlots := [], secured := none, unsecured := [], point := 0, poolThere := 0 }) s)

/-- The groups that the partitions take on the secondary, which has formed them. -/
def groupsThere (s : State) : Nat := s.parts.foldl (fun n e => if e.2.mirrored then n + e.2.groups.length else n) 0

/-- The secondary can place a partition of some groups beside those it has formed (R438). -/
def placeableThere (s : State) (groups : Nat) : Bool :=
  match s.pair.partner with
  | some b => decide (groupsThere s + groups ≤ b.placeable)
  | none => false

/-- The secondary has the DIMM blocks for some pools (R317, R438): block b of a pool comes from the (b mod n)-th of its n channels in service. -/
def blocksThere (s : State) (pools : List Nat) : Bool :=
  match s.pair.partner with
  | some b =>
    let n := b.frames.length
    pools.all (· == 0) || (decide (n ≠ 0) && b.frames.zipIdx.all (fun (f, i) => decide ((pools.map (fun k => (k + n - 1 - i) / n)).sum ≤ f)))
  | none => false

/-- The securing state of a new context of a partition: it starts SYNCING while a mirrored or locked pair is formed, unless its partition cannot
be formed on the secondary (R438, R441). -/
def newSecuring (s : State) (p : Nat) : Securing :=
  if isPrimary s && !s.pair.alone && (s.part p).any (·.mirrored) then .syncing else .notSecured

def kvOf (b : CtxConfigBlock) : KvConfig :=
  ⟨b.layers.toNat, b.kvHeads.toNat, b.kvFormat = 2, b.headsPerPage.toNat, b.poolPages.toNat, b.stepTable⟩

/-- Whether the secondary can form a partition is settled as its creation, or the pool of a context of it, is forwarded: where it cannot, the contexts of
that partition are unsecured (R438). -/
def settleThere (x : ForwardedSetup) (s : State) : State :=
  match x with
  | .partCreate p g =>
    let n := count (List.range 8) (bit g)
    updPart p.toNat (fun q => { q with mirrored := placeableThere (updPart p.toNat (fun q => { q with mirrored := false }) s) n }) s
  | .ctxConfig b =>
    match s.ctx b.context.toNat with
    | none => s
    | some k =>
      let mine := (kvOf b).blocks
      let pools := mine :: (s.ctxs.select (fun c _ => c ≠ b.context.toNat)).map (fun (_, k) => k.poolThere)
      if !bit b.sections 0 || !(s.part k.part.val).any (·.mirrored) then s
      else if blocksThere s pools then updCtx b.context.toNat (fun k => { k with poolThere := mine }) s
      else
        let s := updPart k.part.val (fun q => { q with mirrored := false }) s
        ((s.ctxs.select (fun _ y => y.part == k.part)).keys).foldl (fun s c => unsecure c s) s
  | _ => s

/-- Granule numbers that one SETUP_FWD frame carries: a block of at most 4,032 bytes past its offset 0x40 (R431, R432; DEDUCED:
notes/assumptions/46.md). -/
def granulesPerFrame : Nat := 2008

/-- The frames that carry a forwarded command: a grant or a return of more granules than one carries goes as several. -/
def setupPieces : ForwardedSetup → List ForwardedSetup
  | .granuleGrant c gs => (chunks granulesPerFrame (max 1 ((gs.length + granulesPerFrame - 1) / granulesPerFrame)) gs).map (.granuleGrant c)
  | .granuleReturn c gs => (chunks granulesPerFrame (max 1 ((gs.length + granulesPerFrame - 1) / granulesPerFrame)) gs).map (.granuleReturn c)
  | x => [x]

/-- A set-up command sent to the secondary. -/
def sendForwarded (x : ForwardedSetup) (s : State) : State := (setupPieces x).foldl (fun s y => sendFrame (.setup y) s) (settleThere x s)

/-- A completed command forwarded by the primary of a mirrored or locked pair (R438). -/
def forwardSetup (x : Option ForwardedSetup) (s : State) : State :=
  match x with
  | some c => if isPrimary s then sendForwarded c s else s
  | none => s

/-! ### The mailbox (R256, R261, R262, R437, R438) -/

/-- How a set-up command ends: with a status that is not DONE, with nothing changed or with an error met; done, with a result for the block and what is
forwarded to the secondary; or not yet. -/
inductive SetupEnd where
  | fail (status : Byte)
  | failIn (status : Byte) (s : State)
  | ok (s : State) (result : Option (List Byte)) (fwd : Option ForwardedSetup)
  | wait (p : SetupPending) (s : State)

/-- STATUS is set, BUSY cleared and SETUP_DONE raised. -/
def setupDone (f : Nat) (st : Byte) (s : State) : State :=
  raise f evSetup (updFn f (fun r => { r with status := st, pending := none }) s)

/-- The command carried out, its block read; a result is written into the block at 0x40 (R297). -/
def setupRun (h : SetupHdr) (eval : State → SetupEnd) (s : State) : State :=
  let f := h.fn.val
  let r := s.fnr f
  if h.read = .failed then setupDone f stHostRead (setErr f errHostRead s)
  else if !s.life.ready || noServiceDie s then setupDone f stBusy s
  else if isSecondary s then setupDone f stPermit s
  else
    match eval s with
    | .fail st => setupDone f st s
    | .failIn st s => setupDone f st s
    | .wait p s => updFn f (fun r => { r with pending := some p }) s
    | .ok s result fwd =>
      let s := match result with
        | some bs => emit f (.result h.fn ((r.setupHi.setWidth 64 <<< 32) + r.setupLo.setWidth 64 + 0x40) bs) s
        | none => s
      setupDone f stDone (forwardSetup fwd s)

/-- A write of a command code to HIF_SETUP_CMD: refused while BUSY; its block waits to be read while Bus Master Enable is clear. -/
def setup (i : Instr) (h : SetupHdr) (eval : State → SetupEnd) (s : State) : State :=
  let f := h.fn.val
  let r := s.fnr f
  if !s.link.up then s
  else if r.pending.isSome || r.unread.isSome then setErr f errSetupBusy s
  else if !r.bme then updFn f (fun r => { r with unread := some i }) s
  else setupRun h eval s

/-! ### Names (R254, R262) -/

/-- A context that a command names, within the function's reach. -/
def namedCtx (s : State) (f : Fn) (c : Byte) : Except Byte (CtxId × Context) :=
  if h : c.toNat < 64 then
    match s.ctx c.toNat with
    | none => .error stConfig
    | some k => if reaches s f ⟨c.toNat, h⟩ then .ok (⟨c.toNat, h⟩, k) else .error stPermit
  else .error stConfig

/-- A command on a context that exists and is within reach. -/
def onCtx (s : State) (f : Fn) (c : Byte) (g : CtxId → Context → SetupEnd) : SetupEnd :=
  match namedCtx s f c with
  | .error st => .fail st
  | .ok (c, k) => g c k

/-! ### Partitions (R32, R262, R354) -/

/-- The groups of a bitmap, ascending. -/
def groupList (b : Byte) : List Nat := (List.range 8).filter (fun g => bit b g)

/-- A partition comes to be: it forms while the sites of its groups power up. On the secondary of a mirrored pair its groups are
reserved and their sites left dark (R354). -/
def makePartition (p : Nat) (groups : List Nat) (dark : Bool) (s : State) : State :=
  let q : Partition := { groups := groups, state := if dark then .ready else .forming }
  let s := { s with parts := s.parts.put p q }
  if dark then { s with pair := { s.pair with reserved := union s.pair.reserved [p] } }
  else if s.life.power = .on || s.life.power = .idle then (partSites s q).foldl (fun s i => requestSite i s) s
  else s

/-- A partition exists: it has been formed (R262). -/
def partExists (s : State) (p : Nat) : Bool := (s.part p).any (fun q => decide (q.state ≠ .forming))

def partCreate (partition groups : Byte) (f : Fn) (s : State) : SetupEnd :=
  if f.val ≠ 0 then .fail stPermit
  else if h : partition.toNat < 8 then
    if groups = 0 then .fail stConfig
    else if s.parts.has partition.toNat || (groupList groups).any (fun g =>
        !groupPlaceable s g || s.parts.any (fun e => e.2.groups.contains g)) then .fail stBusy
    else .wait (.partCreate ⟨partition.toNat, h⟩) (makePartition partition.toNat (groupList groups) false s)
  else .fail stConfig

/-- The partition exists once every site of it is in service. -/
def partFormed (s : State) (q : Partition) : Bool :=
  decide (q.state = .forming) && (partPowered s q || s.life.power = .doze || s.life.power = .sleep)

/-- A cluster of the partition has no site. -/
def partUnmapped (s : State) (q : Partition) : Bool := q.clusters.any (fun n => s.build.unmapped.contains n)

/-- A partition ceases to be; its sites power down by SITE_POWER_DOWN. -/
def dropPartition (p : Nat) (s : State) : State :=
  match s.part p with
  | none => s
  | some q =>
    let is := partSites s q
    let s := is.foldl (fun s i => updSite i (fun r => { r with requested := false, cover := none }) s) s
    { s with
      parts := s.parts.drop p
      power := { s.power with admission := s.power.admission.filter (fun i => !is.contains i), waves := s.power.waves.filter (fun i => !is.contains i) }
      pair := { s.pair with reserved := s.pair.reserved.filter (· ≠ p) } }

/-- PART_CREATE_DONE: STATE reads ready, and the command that made the partition completes. One whose clusters can no longer all be had is not
carried out at all, and fails as for a group that is not placeable (R261, R262; DEDUCED: notes/assumptions/31.md). -/
def partCreateDone (p : PartId) (s : State) : State :=
  match s.part p.val with
  | none => s
  | some q =>
    if decide (q.state = .forming) && partUnmapped s q then
      let s := dropPartition p.val s
      if (s.fnr 0).pending = some (.partCreate p) then setupDone 0 stBusy s else s
    else if !partFormed s q then s
    else
      let s := updPart p.val (fun q => { q with state := .ready }) s
      if (s.fnr 0).pending = some (.partCreate p) then
        setupDone 0 stDone (forwardSetup (some (.partCreate (BitVec.ofNat 8 p.val)
          (BitVec.ofNat 8 (q.groups.foldl (fun m g => m + 2 ^ g) 0)))) s)
      else s

def execPartCreateDone (p : PartId) (s : State) : Out := done s (partCreateDone p)

def partHolds (s : State) (p : Nat) : Bool := s.ctxs.any (fun e => e.2.part.val == p)

def partDestroy (partition : Byte) (f : Fn) (s : State) : SetupEnd :=
  if f.val ≠ 0 then .fail stPermit
  else if !partExists s partition.toNat then .fail stConfig
  else if partHolds s partition.toNat then .fail stBusy
  else .ok (dropPartition partition.toNat s) none (some (.partDestroy partition))

/-! ### Contexts (R157, R262, R300, R321, R441, R479) -/

def makeCtx (c : Nat) (p : PartId) (flags : Byte) (quota : W32) (securing : Securing) (s : State) : State :=
  let k : Context :=
    { part := p, usesSeq := bit flags 0, debug := bit flags 1, quota := if bit flags 0 then quota.toNat else 0, created := serviceNow s
      securing := .notSecured, energyFrom := serviceNow s, quietSince := s.now }
  setSecuring c securing { s with ctxs := s.ctxs.put c k }

def ctxCreate (context partition flags : Byte) (quota : W32) (f : Fn) (s : State) : SetupEnd :=
  if f.val ≠ 0 && partition.toNat + 1 ≠ f.val then .fail stPermit
  else if h : partition.toNat < 8 then
    if context.toNat ≥ 64 || (bit flags 0 && (quota = 0 || quota.toNat > 32768)) || !partExists s partition.toNat then .fail stConfig
    else if s.ctxs.has context.toNat then .fail stBusy
    else
      .ok (makeCtx context.toNat ⟨partition.toNat, h⟩ flags quota (newSecuring s partition.toNat) s) none (some (.ctxCreate context partition flags quota))
  else .fail stConfig

/-- The core stores and operand buffers of the partition that a context used last are zeroed (R157): with a step of its own running there, as the
step leaves (DESIGN CHOICE: notes/assumptions/58.md). -/
def scrubCores (c : CtxId) (s : State) : State :=
  s.parts.foldl (fun s (p, q) =>
    match q.step with
    | some t => if t.ctx = c then updPart p (fun q => { q with scrubDue := true }) s else s
    | none => if q.lastCtx = some c then q.clusters.foldl (fun s n => zeroCluster n s) s else s) s

/-- Granules fenced in one update, their zero scrub begun (R157). -/
def fenceGranules (c : CtxId) (gs : List Nat) (s : State) : State :=
  scrubCores c { s with
    owners := gs.foldl (fun o g => o.put g 0x41) s.owners
    scrubs := s.scrubs ++ [⟨c, gs⟩] }

/-- The granules that a context owns. -/
def ownedBy (s : State) (c : CtxId) : List Nat := (s.owners.filter (fun e => e.2 == BitVec.ofNat 8 c.val && decide (s.owner e.1 = e.2))).map (·.1)

/-- DIMM blocks of a context fenced until they have been zero-filled (R321). -/
def fencePool (c : CtxId) (s : State) : State :=
  match s.ctx c.val with
  | none => s
  | some k =>
    updCtx c.val (fun k => { k with pool := [], used := [], rotation := none, shortfall := 0 })
      { s with dimmWork := { s.dimmWork with
          fenced := s.dimmWork.fenced ++ k.pool.map (fun e => (c.val, e.2))
          old := s.dimmWork.old.filter (fun o => o.ctx ≠ c) } }

/-- The energy record of a context for the interval since its last (R479): partition, FLAGS, CREATED, FROM, STEPS, TOKENS, energy, that
of its clusters, cluster-milliseconds, and the end of the interval. -/
def energyRecord (final : Bool) (c : CtxId) (s : State) : State :=
  match s.ctx c.val with
  | none => s
  | some k =>
    let flags := (if final then 1 else 0) + (if s.pair.formed && s.pair.mode == 3 && decide (s.pair.role = .secondary) then 2 else 0)
    let s := sendRecord (.energy c [k.part.val, flags, k.created.toNat, k.energyFrom.toNat, k.energySteps, k.energyTokens
      , k.energyMj - k.energyLast, k.clusterMj - k.clusterLast, k.clusterMs - k.msLast, (serviceNow s).toNat]) s
    updCtx c.val (fun k => { k with
      energyLast := k.energyMj, clusterLast := k.clusterMj, msLast := k.clusterMs, energyFrom := serviceNow s, energySteps := 0, energyTokens := 0 }) s

/-- The fault capture entries held for a context that goes: they belong to no context that takes its number later (R159). -/
def orphanCaptures (c : CtxId) (s : State) : State :=
  { s with clusters := s.clusters.mapVal (fun _ r => { r with cores := r.cores.mapVal (fun _ k => { k with
      capture := k.capture.map (fun e => if e.ctx = BitVec.ofNat 8 c.val then { e with orphan := true } else e) }) }) }

/-- A context torn down (R262): rings, sequences, programs and marks go, granules and DIMM blocks are fenced, its learned pairs are
cleared. -/
def destroyCtx (c : CtxId) (s : State) : State :=
  let s := orphanCaptures c (leaveMarks c (energyRecord true c s))
  let gs := ownedBy s c
  let s := { s with
    sq := s.sq.filter (fun e => e.2.ctx ≠ c), cq := s.cq.filter (fun e => e.2.ctx ≠ c), tq := s.tq.filter (fun e => e.2.ctx ≠ c)
    heldRecs := (s.heldRecs.mapVal (fun _ l => l.filter (fun x => x.1 ≠ c))).filter (fun e => !e.2.isEmpty)
    dir := s.dir.filter (fun e => !(s.seqs.any (fun q => q.2.ctx == c && (seqEntries s q.2).contains e.1)))
    seqs := s.seqs.filter (fun e => e.2.ctx ≠ c)
    power := { s.power with learned := s.power.learned.filter (fun l => l.ctx ≠ c) } }
  let s := fenceGranules c gs (fencePool c s)
  { s with ctxs := s.ctxs.drop c.val }

/-- A submission ring is idle (R262). -/
def Ring.idle (r : Ring) : Bool := r.cons == r.prod && r.begun.isNone

def ctxDestroy (context : Byte) (f : Fn) (s : State) : SetupEnd :=
  onCtx s f context (fun c _ =>
    if s.sq.any (fun e => e.2.ctx == c && !e.2.idle) then .fail stBusy
    else .ok (destroyCtx c s) none (some (.ctxDestroy context)))

/-! ### Configuration (R195, R240, R262, R317) -/

/-- Frames of a channel (R308, R317). -/
def channelFrames (s : State) : Nat := s.build.channelGb * 10 ^ 9 / 2 ^ 21

/-- A frame of a channel is unassigned and unfenced. -/
def frameFree (s : State) (p : Place) : Bool :=
  !s.ctxs.any (fun e => e.2.pool.any (fun b => b.2 == p)) && !s.dimmWork.fenced.any (fun b => b.2 == p)
    && !s.dimmWork.old.any (fun o => o.place == p)

/-- The lowest free frames of a channel, at most n, none of them in a list. -/
def freeFrames (s : State) (chan n : Nat) : List Nat :=
  ((List.range (channelFrames s)).filter (fun f => frameFree s ⟨chan, f⟩)).take n

/-- Pool blocks assigned to a new pool (R317): block b to the (b mod n)-th channel in service, at its lowest unassigned frame. -/
def assignPool (s : State) (blocks : Nat) : Option (Tab Place) :=
  let cs := chansInService s
  let n := cs.length
  if n = 0 then none
  else
    let cols := cs.zipIdx.map (fun (c, i) => (freeFrames s c ((blocks + n - 1 - i) / n)).map (fun f => (⟨c, f⟩ : Place)))
    (List.range blocks).foldr (fun b acc =>
      match acc, (cols.getD (b % n) [])[b / n]? with
      | some l, some p => some ((b, p) :: l)
      | _, _ => none) (some [])

def kvBad (s : State) (c : CtxId) (k : Context) (b : CtxConfigBlock) : Bool :=
  let perMax := if b.kvFormat = 1 then 7 else 4
  !k.usesSeq || b.layers = 0 || decide (b.layers.toNat > 128) || b.kvHeads = 0 || decide (b.kvHeads.toNat > 64)
    || !(b.kvFormat == 1 || b.kvFormat == 2) || b.headsPerPage = 0 || decide (b.headsPerPage.toNat > perMax)
    || b.poolPages = 0 || decide (b.poolPages.toNat > 2 ^ 27) || b.stepTable = 0
    || !openTo s c (wordAddr b.stepTable) 0x480000

def auditBad (b : CtxConfigBlock) : Bool :=
  let hi := ofF32 b.missHigh
  let lo := ofF32 b.missLow
  b.auditWindow = 0 || decide (b.auditWindow.toNat > 1024) || b.kselStep = 0 || decide (b.kselStep.toNat > 255)
    || b.kselMax = 0 || decide (b.kselMax.toNat > 65536) || decide (b.returnFlag.toNat > 1)
    || !(Num.lt .zero hi && hi.le .one) || !(Num.le .zero lo && lo.lt hi)

/-- The sections other than KV applied. -/
def configCtx (b : CtxConfigBlock) (k : Context) : Context :=
  let k := if bit b.sections 1 then { k with stopSets := b.stopSets.take 16 } else k
  let k := if bit b.sections 2 then
      { k with audit := ⟨b.auditRate.toNat, b.auditWindow.toNat, b.missHigh, b.missLow, b.kselStep.toNat, b.kselMax.toNat
        , b.returnFlag = 1, b.auditSeed⟩ }
    else k
  if bit b.sections 3 then { k with slots := k.slots.filter (fun e => !bit b.clearMask e.1) } else k

/-- The KV settings set with their pool, the blocks held before fenced. -/
def setKv (c : CtxId) (b : CtxConfigBlock) (pool : Tab Place) (s : State) : State :=
  updCtx c.val (fun k => { k with kv := some (kvOf b), pool := pool }) (fencePool c s)

def ctxConfig (b : CtxConfigBlock) (f : Fn) (s : State) : SetupEnd :=
  onCtx s f b.context (fun c k =>
    let kv := bit b.sections 0
    if (kv && kvBad s c k b) || (bit b.sections 2 && auditBad b) then .fail stConfig
    else
      let finish (s : State) : SetupEnd := .ok (markChanged c (updCtx c.val (configCtx b) s)) none (some (.ctxConfig b))
      if !kv then finish s
      else if s.seqs.any (fun e => e.2.ctx == c) then .fail stBusy
      else
        match assignPool s (kvOf b).blocks with
        | none => .fail stBusy
        | some pool => finish (setKv c b pool s))

/-! ### Granules (R154, R157, R262) -/

/-- Granules granted to a context. -/
def grantAll (c : CtxId) (gs : List Nat) (s : State) : State :=
  { s with owners := gs.foldl (fun o g => o.put g (BitVec.ofNat 8 c.val)) s.owners }

/-- What stands against a grant: a granule that does not exist for it, or one that is not free. -/
def grantBad (s : State) (gs : List Nat) : Option Byte :=
  if gs.any (fun g => decide (g ≥ 24576) || s.owner g == 0x42 || s.owner g == 0x43) then some stConfig
  else if gs.any (fun g => s.owner g != 0x40 && s.owner g != 0x41) then some stBusy
  else none

/-- A granule is owned by a context outside a function's reach (R254). -/
def granuleOutside (s : State) (f : Fn) (g : Nat) : Bool :=
  (s.ctxs.any (fun e => s.owner g == BitVec.ofNat 8 e.1 && !reaches s f (asCtx e.1)))

def granuleGrant (context : Byte) (granules : List W16) (f : Fn) (s : State) : SetupEnd :=
  if granules.any (fun g => granuleOutside s f g.toNat) then .fail stPermit
  else onCtx s f context (fun c _ =>
    let gs := granules.map (·.toNat)
    if gs.length > 2040 then .fail stConfig
    else
      match grantBad s gs with
      | some st => .fail st
      | none =>
        if gs.any (fun g => s.owner g == 0x41) then .wait (.grant c gs) s
        else .ok (grantAll c gs s) none (some (.granuleGrant context granules)))

/-- GRANULE_GRANT_RESUME: the fenced granules that a grant waited for have been scrubbed. -/
def granuleGrantResume (f : Fn) (s : State) : State :=
  match (s.fnr f.val).pending with
  | some (.grant c gs) =>
    match grantBad s gs with
    | some st => setupDone f.val st s
    | none =>
      if gs.any (fun g => s.owner g == 0x41) then s
      else setupDone f.val stDone (forwardSetup (some (.granuleGrant (BitVec.ofNat 8 c.val) (gs.map (BitVec.ofNat 16 ·)))) (grantAll c gs s))
  | _ => s

def execGranuleGrantResume (fn : Fn) (s : State) : Out := done s (granuleGrantResume fn)

/-- A granule holds a byte of the step table while the KV settings are set. -/
def holdsTable (k : Context) (g : Nat) : Bool :=
  match k.kv with
  | some c => (granulesOf (wordAddr c.table) 0x480000).contains g
  | none => false

def granuleReturn (context : Byte) (granules : List W16) (f : Fn) (s : State) : SetupEnd :=
  if granules.any (fun g => granuleOutside s f g.toNat) then .fail stPermit
  else onCtx s f context (fun c k =>
    let gs := granules.map (·.toNat)
    if gs.length > 2040 || gs.any (fun g => decide (g ≥ 24576) || s.owner g != BitVec.ofNat 8 c.val) then .fail stConfig
    else if gs.any (holdsTable k) then .fail stBusy
    else if gs.isEmpty then .ok s none none
    else .ok (fenceGranules c gs.eraseDups s) none (some (.granuleReturn context granules)))

/-! ### Rings (R262, R263, R274, R459) -/

/-- Vectors of a function's table (R251). -/
def vectorsOf (f : Fn) : Nat := if f.val = 0 then 2048 else 256

/-- A RECOVERED record for each sequence of a context that is due one on a ring (R459). -/
def recoverRecords (c : CtxId) (n : Nat) (s : State) : State :=
  (s.seqs.select (fun _ q => q.ctx == c && q.recoverDue && q.tokenRing.toNat == n)).foldl (fun s (slot, _) =>
    seqNotice slot 0x06 false (updSeq slot (fun q => { q with recoverDue := false }) s)) s

def makeRing (f : Fn) (c : CtxId) (b : RingBlock) (s : State) : State :=
  let r : Ring :=
    { ctx := c, fn := f, log2 := b.sizeLog2.toNat, vector := if b.vector = 0xFFFF then none else some b.vector.toNat
      base := b.base, wb := b.wbAddr, compRing := b.compRing.toNat, coalCount := b.coalesceCount.toNat, coalUs := b.coalesceUs.toNat }
  let n := b.ring.toNat
  if b.kind = 0 then { s with sq := s.sq.put n r }
  else if b.kind = 1 then { s with cq := s.cq.put n r }
  else wakeSteps n (recoverRecords c n (releaseHeld n { s with tq := s.tq.put n r }))

def ringCreate (b : RingBlock) (f : Fn) (s : State) : SetupEnd :=
  if b.kind = 0 && (s.cq.find b.compRing.toNat).any (fun r => !reaches s f r.ctx) then .fail stPermit
  else onCtx s f b.context (fun c _ =>
    let comp := (s.cq.find b.compRing.toNat).any (fun r => r.ctx == c)
    if decide (b.kind.toNat > 2) || decide (b.sizeLog2.toNat < 6) || decide (b.sizeLog2.toNat > 16)
        || (decide (b.vector ≠ 0xFFFF) && decide (vectorsOf f ≤ b.vector.toNat)) || decide (b.base.toNat % 4096 ≠ 0)
        || decide (b.wbAddr.toNat % 64 ≠ 0) || (b.kind == 0 && !comp) || decide (b.coalesceUs.toNat > 1000) then .fail stConfig
    else if (b.kind == 0 && s.sq.has b.ring.toNat) || (b.kind == 1 && s.cq.has b.ring.toNat) || (b.kind == 2 && s.tq.has b.ring.toNat) then
      .fail stBusy
    else .ok (makeRing f c b s) none none)

def ringTable (s : State) (kind : Byte) : Tab Ring := if kind = 0 then s.sq else if kind = 1 then s.cq else s.tq

/-- What keeps a ring from being destroyed. -/
def ringBusy (s : State) (kind : Byte) (n : Nat) (r : Ring) : Bool :=
  if kind = 0 then !r.idle
  else if kind = 1 then s.sq.any (fun e => e.2.compRing == n)
  else s.seqs.any (fun e => e.2.ctx == r.ctx && e.2.tokenRing.toNat == n)

def dropRing (kind : Byte) (n : Nat) (s : State) : State :=
  if kind = 0 then { s with sq := s.sq.drop n } else if kind = 1 then { s with cq := s.cq.drop n } else { s with tq := s.tq.drop n }

def ringDestroy (kind ring : Byte) (f : Fn) (s : State) : SetupEnd :=
  if kind.toNat > 2 then .fail stConfig
  else
    match (ringTable s kind).find ring.toNat with
    | none => .fail stConfig
    | some r =>
      if !reaches s f r.ctx then .fail stPermit
      else if ringBusy s kind ring.toNat r then .fail stBusy
      else .ok (dropRing kind ring.toNat s) none none

/-! ### Commands -/

/-- PART_CREATE waits while firmware is activated (R507). -/
def partCreateCmd (h : SetupHdr) (partition groups : Byte) (s : State) : State :=
  if s.update.phase ≠ .idle && s.link.up && (s.fnr h.fn.val).pending.isNone then
    if (s.fnr h.fn.val).unread.isSome then setErr h.fn.val errSetupBusy s
    else updFn h.fn.val (fun r => { r with unread := some (.partCreate h partition groups) }) s
  else setup (.partCreate h partition groups) h (partCreate partition groups h.fn) s

def execPartCreate (h : SetupHdr) (partition groups : Byte) (s : State) : Out := done s (partCreateCmd h partition groups)
def execPartDestroy (h : SetupHdr) (partition : Byte) (s : State) : Out :=
  done s (setup (.partDestroy h partition) h (partDestroy partition h.fn))
def execCtxCreate (h : SetupHdr) (context partition flags : Byte) (quota : W32) (s : State) : Out :=
  done s (setup (.ctxCreate h context partition flags quota) h (ctxCreate context partition flags quota h.fn))
def execCtxDestroy (h : SetupHdr) (context : Byte) (s : State) : Out :=
  done s (setup (.ctxDestroy h context) h (ctxDestroy context h.fn))
def execCtxConfig (h : SetupHdr) (b : CtxConfigBlock) (s : State) : Out := done s (setup (.ctxConfig h b) h (ctxConfig b h.fn))
def execGranuleGrant (h : SetupHdr) (context : Byte) (granules : List W16) (s : State) : Out :=
  done s (setup (.granuleGrant h context granules) h (granuleGrant context granules h.fn))
def execGranuleReturn (h : SetupHdr) (context : Byte) (granules : List W16) (s : State) : Out :=
  done s (setup (.granuleReturn h context granules) h (granuleReturn context granules h.fn))
def execRingCreate (h : SetupHdr) (b : RingBlock) (s : State) : Out := done s (setup (.ringCreate h b) h (ringCreate b h.fn))
def execRingDestroy (h : SetupHdr) (kind ring : Byte) (s : State) : Out :=
  done s (setup (.ringDestroy h kind ring) h (ringDestroy kind ring h.fn))
/-- A reserved command code. -/
def execSetupReserved (h : SetupHdr) (code : Byte) (s : State) : Out :=
  done s (setup (.setupReserved h code) h (fun _ => .fail stConfig))

end Sys2Proof.Machine
end

