-- ==== Sys2Proof/Machine/MarkMap.lean ====
section
/-! DEFINITION. The operations of MARK_MAP (R254, R290, R297 to R299, R301 to R306).
Rests on the log entries (notes/assumptions/<n>.md) 31 (DEDUCED), 35 (DEDUCED). -/
namespace Sys2Proof.Machine

/-! ### Effects, shared with what the primary of a pair forwards (R438) -/

/-- The free context mark whose unit is nearest the lead cluster of a partition, ties to the lower unit (R298). -/
def freeMark (s : State) (p : Nat) : Option Nat :=
  let used := s.ctxs.flatMap (fun e => e.2.vmarks.map (fun v => v.2.val))
  let lead := leadSite s p
  let free (u : Nat) : Option Nat := ((List.range 112).map (fun j => 128 * u + 16 + j)).find? (fun k => !used.contains k)
  ((List.range 64).foldl (fun (b : Option (Nat × Nat)) u =>
    match free u with
    | none => b
    | some k =>
      let d := hops lead (unitSite u)
      match b with
      | none => some (d, k)
      | some (e, _) => if d < e then some (d, k) else b) none).map (·.2)

/-- A context maps a physical mark under a virtual identifier. -/
def mapMark (c : CtxId) (v : Nat) (k : MarkId) (s : State) : State :=
  updCtx c.val (fun x => { x with vmarks := x.vmarks.put v k, changed := true }) s

/-- A mark comes to be: a change made by the host (R301). -/
def makeMark (c : CtxId) (v : Nat) (k : MarkId) (kind : Byte) (target value : W32) (period : Nat) (s : State) : State :=
  let m : Mark :=
    { kind := markKindOf kind.toNat, value := if kind = 0 then value else 0, target := if kind = 1 then target else 0
      period := if kind = 2 then period else 0, last := { time := markNow s k.val, source := 0xFE, op := 6 } }
  mapMark c v k { s with marks := s.marks.put k.val m }

/-- A context joins a gang: TARGET rises at once (R304). -/
def gangAdd (k : MarkId) (c : CtxId) (s : State) : State :=
  let m := s.mark k.val
  updCtx c.val (fun x => { x with gang := some k })
    { s with marks := s.marks.put k.val { m with members := m.members ++ [c], target := m.target + 1 } }

/-! ### Names -/

/-- A command on a context and a virtual identifier. -/
def onMark (s : State) (f : Fn) (c : Byte) (v : W16) (g : CtxId → Context → SetupEnd) : SetupEnd :=
  onCtx s f c (fun c k => if v.toNat > 2047 then .fail stConfig else g c k)

/-- A command on a mark that the context maps. -/
def onMapped (s : State) (f : Fn) (c : Byte) (v : W16) (g : CtxId → Context → MarkId → SetupEnd) : SetupEnd :=
  onMark s f c v (fun c k => match k.vmarks.find v.toNat with
    | none => .fail stConfig
    | some m => g c k m)

/-! ### The operations -/

def createBad (kind : Byte) (target : W32) (period : W32) : Bool :=
  decide (kind.toNat > 2) || (kind == 1 && (target == 0 || decide (target.toNat > 65535))) || (kind == 2 && decide (period.toNat < 4000))

def markCreate (context : Byte) (vmark : W16) (kind : Byte) (target value period : W32) (f : Fn) (s : State) : SetupEnd :=
  onMark s f context vmark (fun c k =>
    if createBad kind target period then .fail stConfig
    else if k.vmarks.has vmark.toNat then .fail stBusy
    else
      match freeMark s k.part.val with
      | none => .fail stBusy
      | some n =>
        if h : n < 8192 then
          .ok (makeMark c vmark.toNat ⟨n, h⟩ kind target value period.toNat s) (some (leBytes 2 n))
            (some (.markCreate context vmark kind target value period (BitVec.ofNat 16 n)))
        else .fail stBusy)

/-- Contexts of two partitions are joined through the PF alone. -/
def markShare (context : Byte) (vmark : W16) (owner : Byte) (ownerVmark : W16) (f : Fn) (s : State) : SetupEnd :=
  if namedCtx s f owner matches .error 0x18 then .fail stPermit
  else onMark s f context vmark (fun c k =>
    match namedCtx s f owner with
    | .error st => .fail st
    | .ok (_, o) =>
      match o.vmarks.find ownerVmark.toNat with
      | none => .fail stConfig
      | some n =>
        if k.vmarks.has vmark.toNat then .fail stBusy
        else .ok (mapMark c vmark.toNat n s) (some (leBytes 2 n.val)) (some (.markShare context vmark owner ownerVmark (BitVec.ofNat 16 n.val))))

def markUnmap (context : Byte) (vmark : W16) (f : Fn) (s : State) : SetupEnd :=
  onMapped s f context vmark (fun c _ n =>
    let m := s.mark n.val
    if m.waiters.any (fun w => w.ctx == c) || m.members.contains c then .fail stBusy
    else .ok (markChanged c (unmapMark c.val vmark.toNat s)) none (some (.markUnmap context vmark)))

/-- A command that reads a mark, with what its SEC-DED code finds: one with an uncorrectable error has no effect, and fails with
MEMORY_UNCORRECTABLE (R380, R384; DEDUCED: notes/assumptions/31.md). -/
def onSound (k : MarkId) (found : Option EccKind) (s : State) (g : SetupEnd) : SetupEnd :=
  if (s.mark k.val).bad || found = some .uncorrectable then .failIn stMemory (markLost k.val s) else g

/-- SIGNAL applies its mode to the mark and completes when the unit has acknowledged it; while routes change it waits at the local port (R285). -/
def markHostSignal (context : Byte) (vmark : W16) (mode : Byte) (value : W32) (found : Option EccKind) (f : Fn) (s : State) : SetupEnd :=
  onMapped s f context vmark (fun c _ n =>
    if !markPermits (s.mark n.val).kind mode.toNat then .fail stConfig
    else if s.wafer.stopped then .wait (.signal context vmark mode value) s
    else onSound n found s (.ok (markChanged c (applyMark n.val mode.toNat value .host s)) none (some (.markSignal context vmark mode value))))

/-- A context number as a function may see it (R301, R302). -/
def shownSource (s : State) (f : Fn) (x : Byte) : Byte :=
  if h : x.toNat < 64 then (if reaches s f ⟨x.toNat, h⟩ then x else 0xFF) else x

/-- The inspection record (R302). -/
def inspection (s : State) (f : Fn) (n : Nat) : List Byte :=
  let m := s.mark n
  let ws := m.waiters.take 8
  let source := shownSource s f m.last.source
  let (index, step) : W16 × W32 := if source.toNat < 64 then (m.last.index, m.last.step) else (0xFFFF, 0xFFFFFFFF)
  leBytes 2 n ++ leBytes 1 m.kind.code ++ leBytes 1 (mappers s n).length ++ leBytes 4 m.value.toNat ++ leBytes 4 m.count.toNat
    ++ leBytes 4 m.target.toNat ++ leBytes 8 m.last.time.toNat ++ [source, m.last.op]
    ++ leBytes 2 index.toNat ++ leBytes 4 step.toNat ++ leBytes 1 ws.length ++ List.replicate 31 0
    ++ ws.flatMap (fun w => [shownSource s f (BitVec.ofNat 8 w.ctx.val)] ++ leBytes 1 w.mode.code ++ [0, 0] ++ leBytes 4 w.target.toNat
        ++ leBytes 8 w.since.toNat)

def markInspect (context : Byte) (vmark : W16) (found : Option EccKind) (f : Fn) (s : State) : SetupEnd :=
  onMapped s f context vmark (fun _ _ n => onSound n found s (.ok s (some (inspection s f n.val)) none))

def lookoutSet (context : Byte) (vmark : W16) (ms : W32) (f : Fn) (s : State) : SetupEnd :=
  onMark s f context vmark (fun c _ =>
    if ms = 0 || ms.toNat > 60000 then .fail stConfig
    else .ok (updCtx c.val (fun x => { x with lookoutMs := ms.toNat }) s) none none)

/-- The Lookout record (R306). -/
def LookoutRec.bytes (r : LookoutRec) : List Byte :=
  [r.ctx, r.part] ++ leBytes 1 r.entries.length ++ [r.missed] ++ leBytes 4 r.step.toNat ++ leBytes 4 r.op.toNat ++ leBytes 4 0
    ++ leBytes 8 r.quietSince.toNat ++ leBytes 8 r.recorded.toNat ++ List.replicate 32 0
    ++ r.entries.flatMap (fun e => leBytes 1 (if e.score then 1 else 0) ++ [e.cluster] ++ leBytes 2 e.vmark.toNat ++ leBytes 2 e.phys.toNat
        ++ [e.mode, e.source] ++ leBytes 4 e.target.toNat ++ leBytes 4 e.value.toNat ++ leBytes 8 e.lastTime.toNat ++ leBytes 8 0)

/-- A Lookout record as a function may see it (R301, R306). -/
def LookoutRec.shown (s : State) (f : Fn) (r : LookoutRec) : LookoutRec :=
  { r with entries := r.entries.map (fun e => { e with source := shownSource s f e.source }) }

/-- The held record is written and freed; with none held its CONTEXT field is 0xFF. -/
def lookoutRead (context : Byte) (vmark : W16) (f : Fn) (s : State) : SetupEnd :=
  onMark s f context vmark (fun c k =>
    match k.lookout with
    | some r => .ok (updCtx c.val (fun x => { x with lookout := none, overdue := false }) s) (some (r.shown s f).bytes) none
    | none => .ok s (some [0xFF]) none)

def gangJoin (context : Byte) (vmark : W16) (f : Fn) (s : State) : SetupEnd :=
  onMapped s f context vmark (fun c k n =>
    let m := s.mark n.val
    if m.kind = .gang && m.members.any (fun x => !reaches s f x) then .fail stPermit
    else if m.kind ≠ .gang || m.members.any (fun x => match s.ctx x.val with
        | some y => y.part == k.part
        | none => false) then .fail stConfig
    else if k.gang.isSome then .fail stBusy
    else .ok (gangAdd n c s) none (some (.gangJoin context vmark)))

def gangLeave (context : Byte) (vmark : W16) (f : Fn) (s : State) : SetupEnd :=
  onMapped s f context vmark (fun c _ n =>
    if !(s.mark n.val).members.contains c then .fail stConfig
    else .ok (gangRemove n.val c s) none (some (.gangLeave context vmark)))

/-! ### Commands -/

def execMarkCreate (h : SetupHdr) (context : Byte) (vmark : W16) (kind : Byte) (target value period : W32) (s : State) : Out :=
  done s (setup (.markCreate h context vmark kind target value period) h (markCreate context vmark kind target value period h.fn))
def execMarkShare (h : SetupHdr) (context : Byte) (vmark : W16) (owner : Byte) (ownerVmark : W16) (s : State) : Out :=
  done s (setup (.markShare h context vmark owner ownerVmark) h (markShare context vmark owner ownerVmark h.fn))
def execMarkUnmap (h : SetupHdr) (context : Byte) (vmark : W16) (s : State) : Out :=
  done s (setup (.markUnmap h context vmark) h (markUnmap context vmark h.fn))
def execMarkHostSignal (h : SetupHdr) (context : Byte) (vmark : W16) (mode : Byte) (value : W32) (found : Option EccKind) (s : State) : Out :=
  done s (setup (.markHostSignal h context vmark mode value found) h (markHostSignal context vmark mode value found h.fn))
def execMarkInspect (h : SetupHdr) (context : Byte) (vmark : W16) (found : Option EccKind) (s : State) : Out :=
  done s (setup (.markInspect h context vmark found) h (markInspect context vmark found h.fn))
def execLookoutSet (h : SetupHdr) (context : Byte) (vmark : W16) (ms : W32) (s : State) : Out :=
  done s (setup (.lookoutSet h context vmark ms) h (lookoutSet context vmark ms h.fn))
def execLookoutRead (h : SetupHdr) (context : Byte) (vmark : W16) (s : State) : Out :=
  done s (setup (.lookoutRead h context vmark) h (lookoutRead context vmark h.fn))
def execGangJoin (h : SetupHdr) (context : Byte) (vmark : W16) (s : State) : Out :=
  done s (setup (.gangJoin h context vmark) h (gangJoin context vmark h.fn))
def execGangLeave (h : SetupHdr) (context : Byte) (vmark : W16) (s : State) : Out :=
  done s (setup (.gangLeave h context vmark) h (gangLeave context vmark h.fn))
/-- A reserved operation of MARK_MAP. -/
def execMarkMapReservedOp (h : SetupHdr) (op : Byte) (s : State) : Out :=
  done s (setup (.markMapReservedOp h op) h (fun _ => .fail stConfig))

end Sys2Proof.Machine
end

