-- ==== Sys2Proof/Machine/Dimm.lean ====
section
/-! DEFINITION. DIMM channels: temperature, patrol scrub, retraining, zero-fill, and the procedure that takes a channel out of service
(R310 to R326).
Rests on the log entries (notes/assumptions/<n>.md) 41 (DESIGN CHOICE). -/
namespace Sys2Proof.Machine

/-! ### Names -/

/-- The memory die of a channel: MA0 to MD2 serve four channels each (R14, R38). -/
def chanDie (c : Nat) : Nat := memoryDies.getD (c / 4) 100

/-- The channels of a memory die, by its index in the order MA0 to MD2. -/
def dieChans (k : Nat) : List Nat := [4 * k, 4 * k + 1, 4 * k + 2, 4 * k + 3]

/-! ### Pool shortfalls (R324) -/

/-- A frame for a block whose rotation begins at a channel: the first channel with an unassigned, unfenced frame, at its lowest. -/
def frameFrom (s : State) (chans : List Nat) : Option Place :=
  chans.findSome? (fun c => (freeFrames s c 1).head?.map (fun f => ⟨c, f⟩))

/-- One missing block of a context restored. Lost pages of it that the partner holds, and that had no place, are asked back (R447). -/
def restoreBlock (c b : Nat) (s : State) : State :=
  let cs := chansInService s
  let n := cs.length
  match frameFrom s (cs.drop (b % max 1 n) ++ cs.take (b % max 1 n)) with
  | none => s
  | some p =>
    let s := updCtx c (fun k => { k with pool := k.pool.put b p, shortfall := k.shortfall - 1 }) s
    match s.ctx c with
    | none => s
    | some k =>
      (k.pagesDue.filter (fun e => k.kv.any (fun g => e.1 / g.perBlock == b) && (s.dir.find e.2).any (fun d => d.page == e.1))).foldl (fun s e =>
        match holderOf s c e.2 with
        | some slot => askPage c slot e.1 s
        | none => s) s

/-- Newly unassigned blocks restore the contexts' shortfalls first, in ascending context number. -/
def restoreShortfalls (s : State) : State :=
  s.ctxs.keys.foldl (fun s c =>
    match s.ctx c with
    | none => s
    | some k =>
      match k.kv with
      | none => s
      | some g =>
        if k.shortfall = 0 then s
        else ((List.range g.blocks).filter (fun b => !k.pool.has b)).foldl (fun s b => restoreBlock c b s) s) s

/-- The operations that read pages which are being lost fail (R50, R313). -/
def failReaders (lost : List (Nat × Nat)) (s : State) : State :=
  s.parts.keys.foldl (fun s p =>
    match readyOp s p (fun d => isOp 0x0C d || isOp 0x0D d || isOp 0x0E d) with
    | none => s
    | some e => if (pagesRead e).any (fun g => lost.contains (e.t.ctx.val, g)) then failStep stMemory p s else s) s

/-! ### Taking a channel out of service (R323, R325) -/

/-- The removal of a bay asks for its channel, in order of request. -/
def requestRemoval (ch : Nat) (s : State) : State :=
  if (s.chan ch).state = .inService && !s.dimmWork.requests.contains ch then
    { s with dimmWork := { s.dimmWork with requests := s.dimmWork.requests ++ [ch] } }
  else s

/-- A channel in service is to be taken out for a cause of its own, in order of request; no touch cancels it. -/
def requestTakeOut (ch : Nat) (s : State) : State :=
  let s := requestRemoval ch s
  if (s.chan ch).state = .inService || (s.chan ch).state = .takingOut then
    { s with dimmWork := { s.dimmWork with forced := union s.dimmWork.forced [ch] } }
  else s

/-- Bytes of a DIMM copied from one place to another, burst by burst: what cannot be read of them cannot be read at the new place (R313). -/
def dimmCopy (a b n : Nat) (s : State) : State :=
  let bad := (s.dimmBad.filter (touchesWord a n)).map (fun w => b / 64 + (w - a / 64))
  let s := dimmWrite b (s.dimmRead a n) s
  { s with dimmBad := s.dimmBad ++ bad.filter (fun w => !s.dimmBad.contains w) }

/-- A page and its summary slot copied between two places of a context's pool. -/
def copyPage (k1 k2 : Context) (p q : Nat) (s : State) : State :=
  match k1.kv, pageAddr k1 p, summaryAddr k1 p, pageAddr k2 q, summaryAddr k2 q with
  | some g, some a, some x, some b, some y => dimmCopy x y 1024 (dimmCopy a b g.stride s)
  | _, _, _, _, _ => s

/-- A page moves to a free page of its context on another channel. -/
def movePage (c page entry : Nat) (k : Context) (s : State) : Option State :=
  (allocPage s k entry).map (fun (q, k2) =>
    let s := copyPage k k2 page q s
    let old : List OldPlace := match pagePlace k page with
      | some (pl, _, _) => [⟨asCtx c, page, pl⟩]
      | none => []
    { s with
      ctxs := s.ctxs.put c { k2 with used := k2.used.drop page }
      dir := s.dir.modify entry (fun d => { d with page := q })
      dimmWork := { s.dimmWork with old := s.dimmWork.old ++ old } })

/-- The whole pool block of a page moves to a frame of another channel, under the same block number. -/
def moveBlock (c page : Nat) (k : Context) (s : State) : Option State :=
  match pagePlace k page with
  | none => none
  | some (pl, _, g) =>
    let b := page / g.perBlock
    (frameFrom s (rotationFrom s (some pl.chan))).map (fun p =>
      let k2 := { k with pool := k.pool.put b p }
      let pages := (k.used.filter (fun u => u.1 / g.perBlock == b)).map (·.1)
      let s := pages.foldl (fun s q => copyPage k k2 q q s) s
      { s with ctxs := s.ctxs.put c k2, dimmWork := { s.dimmWork with old := s.dimmWork.old ++ [⟨asCtx c, page, pl⟩] } })

/-- A page of a channel is copied and its entry switched; none where it cannot be placed. -/
def placePage (c page : Nat) (s : State) : Option State :=
  match s.ctx c with
  | none => none
  | some k =>
    match k.used.find page with
    | none => none
    | some u =>
      match movePage c page u.entry k s with
      | some t => some t
      | none => moveBlock c page k s

/-- The channel stops: pages that could not be placed are lost, its remaining blocks leave their pools, and its bay shows why. -/
def stopChannel (ch : Nat) (s : State) : State :=
  let migrating := decide ((s.bay ch).state = .migrating)
  let heat := (s.chan ch).heatOut
  let lost := (pagesOn s ch).length
  let s := loseChannel ch s
  let s := updChan ch (fun r => { r with state := if migrating then .out else .fault, retrain := none }) s
  let s := if migrating then s else updBay ch (fun b => if heat then { b with state := .faulted } else bayOut b) s
  let waiting := s.bin.removals
  let s := if lost = 0 then s else note .pagesLost ch lost s
  restoreShortfalls (onlyIf migrating (fun s => { s with bin := { s.bin with removals := waiting } }) (forgetChannel ch s))

/-- The procedure ends once no page of the channel can be placed any more. -/
def takeOutEnds (ch : Nat) (s : State) : State :=
  if (pagesOn s ch).any (fun x => (placePage x.1 x.2 s).isSome) then s else stopChannel ch s

/-- The channel that is being taken out stops once nothing of it is left to place: its last pages may have gone with their context or sequence. -/
def takeOutGoesOn (s : State) : State :=
  match s.dimmWork.active with
  | some ch => takeOutEnds ch s
  | none => s

/-- CHANNEL_TAKE_OUT: the first requested channel begins to leave, and its blocks and pages are assigned no more; a bay's removal that is queued waits
for the one before it (R47). -/
def channelTakeOut (ch : Chan) (s : State) : State :=
  if s.dimmWork.active = some ch.val then takeOutEnds ch.val s
  else if s.dimmWork.active.isSome || s.dimmWork.requests.head? ≠ some ch.val
      || ((s.bay ch.val).state = .queued && !s.dimmWork.forced.contains ch.val) then s
  else
    let s := { s with dimmWork := { s.dimmWork with active := some ch.val, requests := s.dimmWork.requests.drop 1 } }
    takeOutEnds ch.val (updChan ch.val (fun r => { r with state := .takingOut }) s)

def execChannelTakeOut (ch : Chan) (s : State) : Out := done s (channelTakeOut ch)

/-- PAGE_COPY_SWITCH: a page, or its whole block, has been copied and its entry switches to the new place; a page that is no longer in use is
skipped. -/
def pageCopySwitch (ch : Chan) (page : PageRef) (s : State) : State :=
  if s.dimmWork.active ≠ some ch.val then s
  else if !(pagesOn s ch.val).contains (page.ctx.val, page.page) then takeOutEnds ch.val s
  else
    match placePage page.ctx.val page.page s with
    | none => s
    | some t => takeOutEnds ch.val t

def execPageCopySwitch (ch : Chan) (page : PageRef) (s : State) : Out := done s (pageCopySwitch ch page)

/-- OLD_PAGE_RELEASE: no running operation holds the old entries of a channel. -/
def execOldPageRelease (ch : Chan) (s : State) : Out :=
  done s (fun s => takeOutGoesOn { s with dimmWork := { s.dimmWork with old := s.dimmWork.old.filter (fun o => o.place.chan ≠ ch.val) } })

/-! ### Temperature (R310) -/

/-- A sensor that has read above 95 °C since a time, after a further reading. -/
def hotFrom (now : W64) (since : Option W64) (t : Int) : Option W64 := if t > 95 then some (since.getD now) else none

/-- A sensor has stayed above 95 °C for 1 s. -/
def hotLong (s : State) : Option W64 → Bool
  | some t => decide (msTicks 1000 ≤ s.since t)
  | none => false

/-- DIMM_TEMP_POLL: refresh doubles above 85 °C, and a channel with a sensor that stays above 95 °C for 1 s leaves service. -/
def dimmTempPoll (ch : Chan) (t0 t1 : Int) (s : State) : State :=
  if (s.chan ch.val).state ≠ .inService && (s.chan ch.val).state ≠ .takingOut then s
  else
    let s := updChan ch.val (fun r => { r with
      tempMax := max t0 t1, doubled := decide (max t0 t1 > 85)
      hotSince := (hotFrom s.now r.hotSince.1 t0, hotFrom s.now r.hotSince.2 t1) }) s
    let r := s.chan ch.val
    if (hotLong s r.hotSince.1 || hotLong s r.hotSince.2) && decide (r.state = .inService) then
      requestTakeOut ch.val (updChan ch.val (fun r => { r with heatOut := true }) s)
    else s

def execDimmTempPoll (ch : Chan) (t0 t1 : Int) (s : State) : Out := done s (dimmTempPoll ch t0 t1)

/-! ### Patrol scrub (R312, R313) -/

/-- DIMM_PATROL_SCRUB: a burst of a channel with commands is read; corrections are written back, and the page of an uncorrectable burst is lost,
stopping only an operation that reads it. -/
def dimmPatrolScrub (ch : Chan) (addr : Nat) (found : BurstFinding) (s : State) : State :=
  if (s.chan ch.val).state ≠ .inService && (s.chan ch.val).state ≠ .takingOut then s
  else
    let a := ch.val * 2 ^ 38 + addr % 2 ^ 38
    let bad := burstRead (s.chan ch.val).marks found = .uncorrectable
    let s := readBurst a found s
    if bad then
      let s := detect 0x09 (chanUnit ch.val) {} (updChan ch.val (fun r => { r with ue := satAdd r.ue 1 }) s)
      match pageAt s a with
      | some (c, p) => losePage c p (failReaders [(c, p)] s)
      | none => s
    else s

def execDimmPatrolScrub (ch : Chan) (addr : Nat) (found : BurstFinding) (s : State) : Out := done s (dimmPatrolScrub ch addr found)

/-! ### Retraining (R314, R316) -/

/-- A cause of R314 holds: the temperature and the time since the last training stand in the state; the oscillator and the error rate are what the
memory die measures. -/
def retrainDue (s : State) (r : ChanRec) : RetrainCause → Bool
  | .temperature => decide (5 < (r.tempMax - r.tempTrained).natAbs)
  | .period => decide (msTicks 600000 ≤ s.since r.trainedAt)
  | .oscillator => true
  | .errorRate => true

/-- CHANNEL_RETRAIN: in native mode a channel begins to retrain, one at a time on a memory die. -/
def channelRetrain (ch : Chan) (cause : RetrainCause) (s : State) : State :=
  let r := s.chan ch.val
  if s.build.trainMode ≠ 0 || r.state ≠ .inService || !retrainDue s r cause || (dieChans (ch.val / 4)).any (fun c => (s.chan c).retrain.isSome) then s
  else updChan ch.val (fun r => { r with retrain := some cause }) s

def execChannelRetrain (ch : Chan) (cause : RetrainCause) (s : State) : Out := .next (channelRetrain ch cause s)

/-- RETRAIN_SLICE: a slice runs, 50 µs or more after the channel's last; the last one ends the retraining, and a failed retraining takes the
channel out of service. -/
def retrainSlice (ch : Chan) (last failed : Bool) (s : State) : State :=
  let r := s.chan ch.val
  let early := match r.sliceAt with
    | some t => decide (s.since t < 200000)
    | none => false
  if r.retrain.isNone || early then s
  else if !last then updChan ch.val (fun r => { r with sliceAt := some s.now }) s
  else
    let s := updChan ch.val (fun r => { r with
      retrain := none, sliceAt := some s.now, retrains := satAdd r.retrains 1, tempTrained := r.tempMax, trainedAt := s.now }) s
    if failed then requestTakeOut ch.val (detect 0x0A (chanUnit ch.val) {} s) else s

def execRetrainSlice (ch : Chan) (last failed : Bool) (s : State) : Out := done s (retrainSlice ch last failed)

/-! ### Zero-fill (R320, R321) -/

/-- Every fenced block of a context zeroed, and those of a channel without commands released as they are: a DIMM is never zeroed before it is
removed (R325). -/
def zeroFenced (c : Nat) (s : State) : State :=
  let ps := s.dimmWork.fenced.filter (fun e => e.1 == c && ((s.chan e.2.chan).state = .inService || (s.chan e.2.chan).state = .takingOut))
  let s := ps.foldl (fun s e => dimmClear e.2.addr 2097152 s) s
  { s with dimmWork := { s.dimmWork with fenced := s.dimmWork.fenced.filter (fun e => e.1 != c) } }

/-- DIMM_ZERO_FILL_DONE: the last of a context's released blocks has been zeroed; the blocks become unassigned. -/
def dimmZeroFillDone (c : CtxId) (s : State) : State :=
  if !s.dimmWork.fenced.any (fun e => e.1 == c.val) then s
  else takeOutGoesOn (restoreShortfalls (raise 0 evScrub (zeroFenced c.val s)))

def execDimmZeroFillDone (c : CtxId) (s : State) : Out := done s (dimmZeroFillDone c)

end Sys2Proof.Machine
end

