-- ==== Sys2Proof/Machine/Sampler.lean ====
section
/-! DEFINITION. The sampler (R221, R222, R225).
Rests on the log entries (notes/assumptions/<n>.md) 33 (DEDUCED). -/
namespace Sys2Proof.Machine

/-- The lowest index whose value meets a test. -/
def lowestWith (l : List W32) (p : W32 → Bool) : Option Nat := l.findIdx? p

/-- A value with NaN taken as −∞ (R222). -/
def noNan (w : W32) : W32 := if (ofF32 w).isNan then f32NegInf else w

def isNegInf (w : W32) : Bool := w == f32NegInf
def isPosInf (w : W32) : Bool := w == f32PosInf

/-- Running sums of a list from +0, in order. -/
def runningSums (l : List W32) : List W32 := (l.foldl (fun ((a, o) : W32 × List W32) x => (f32Add a x, o ++ [f32Add a x])) (0, [])).2

/-- The shortest prefix whose running sum is not below a bound; the whole list where none is. -/
def prefixTo (bound : W32) (l : List (W32 × Nat)) : List (W32 × Nat) :=
  match (runningSums (l.map (·.1))).findIdx? (fun w => (ofF32 bound).le (ofF32 w)) with
  | some i => l.take (i + 1)
  | none => l

/-- The largest value of a list of values that are no NaN. -/
def maxOf (l : List W32) : W32 := l.foldl f32Max f32NegInf

/-- The token that the random draw of R222 picks among candidates ordered by probability. -/
def drawToken (topP : W32) (seed : W32) (index : Nat) (cands : List (W32 × Nat)) : Option Nat :=
  let w := (runningSums (cands.map (·.1))).getLastD 0
  let kept := if (ofF32 topP).lt .one then prefixTo (f32Mul topP w) cands else cands
  let sums := runningSums (kept.map (·.1))
  let total := sums.getLastD 0
  let u := toF32 ((Num.ofNat (hash88 seed index >>> 8).toNat).shift (-24))
  let bound := f32Mul u total
  match sums.findIdx? (fun x => (ofF32 bound).lt (ofF32 x)) with
  | some i => (kept[i]?).map (·.2)
  | none => kept.getLast?.map (·.2)

/-- The values z of R222: scaled logits, or the logits themselves at temperature 0. -/
def scaledLogits (temp : W32) (x : List W32) : List W32 :=
  if (ofF32 temp).isZero then x else x.map (fun v => noNan (f32Mul v (f32Recip temp)))

/-- The token of R222, none where there is no valid token. -/
def pickToken (temp topP : W32) (topK : Nat) (seed : W32) (index : Nat) (x : List W32) : Option Nat :=
  if x.all isNegInf then none
  else if (ofF32 temp).isZero then
    let m := maxOf x
    lowestWith x (fun v => (ofF32 m).le (ofF32 v))
  else
    let z := scaledLogits temp x
    if z.all isNegInf then none
    else
      match lowestWith z isPosInf with
      | some t => some t
      | none =>
        let order := ranked (z.map ofF32)
        let c := if topK = 0 || x.length ≤ topK then order else order.take topK
        let m := maxOf (c.map (fun y => toF32 y.1))
        let ps := ((List.range z.length).filter (fun j => c.any (fun y => y.2 == j))).map (fun j => (f32Exp (f32Sub (z.getD j 0) m), j))
        let byP := (ps.foldr (fun y l =>
          rankIn (ofF32 y.1, y.2) l) ([] : List (Num × Nat))).map (fun y => (toF32 y.1, y.2))
        drawToken topP seed index byP

/-- LOGPROB of a token (R225). -/
def logProb (temp : W32) (x : List W32) (t : Nat) : W32 :=
  let z := scaledLogits temp x
  let m := maxOf z
  if isPosInf m then f32Nan
  else
    let es := z.map (fun v => f32Exp (f32Sub v m))
    f32Sub (f32Sub (z.getD t 0) m) (f32Log (rowSumF32 (es.map ofF32)))

/-- One sampled sequence. -/
def sampleOne (s : State) (slot : Nat) (logits : List W32) : Option Sampled :=
  match s.seqs.find slot with
  | none => none
  | some q =>
    let x := logits.map noNan
    match pickToken q.temp q.topP q.topK q.seed q.generated x with
    | some t => some ⟨slot, some (BitVec.ofNat 32 t), logProb q.temp x t⟩
    | none => some ⟨slot, none, 0⟩

/-- SAMPLE: the step's FINAL sequences, in batch order; their records go out when the step completes. -/
def sample (p : PartId) (h : List HwFault) (s : State) : State :=
  match readyOp s p.val (isOp 0x11) with
  | none => s
  | some e =>
    if zeroWork e.d then zeroOp p.val none s
    else
      let a := e.d.tensA e.d.m e.d.n
      let finals := (e.t.seqs.zipIdx.take e.d.m).filter (fun x => x.1.final)
      let out := finals.filterMap (fun (sq, i) => sampleOne s sq.slot (kRow (a.row s e.cl i)))
      carryOut p.val h e { reads := finals.flatMap (fun x => a.rowReads s e.cl x.2) }
        (updStep p.val (fun t => { t with samples := out }))

def execSample (p : PartId) (h : List HwFault) (s : State) : Out := done s (sample p h)

end Sys2Proof.Machine
end

