-- ==== Sys2Proof/Machine/Checks.lean ====
section
/-! DEFINITION. The checks of an operation descriptor at fetch, in the order of R167 (R64, R65, R135, R167 to R183, R190, R209,
R213, R219 to R221, R229, R231, R235, R296, R522).
Rests on the log entries (notes/assumptions/<n>.md) 30 (DEDUCED), 32 (DEDUCED), 58 (DESIGN CHOICE), 62 (DESIGN CHOICE). -/
namespace Sys2Proof.Machine

/-! ### What an opcode uses (R174, R188, R522) -/

/-- The fields an opcode or kernel names: formats and layouts of its operands of elements, whether B may be a codebook,
whether it rounds, and the splits it permits. -/
structure OpUse where
  fmtA   : Bool := false
  fmtB   : Bool := false
  fmtD   : Bool := false
  layA   : Bool := false
  layB   : Bool := false
  layD   : Bool := false
  layX   : Bool := false
  book   : Bool := false
  round  : Bool := false
  splits : List Nat := [0]
  deriving DecidableEq, Repr

/-- Splits of an elementwise kernel. -/
def spread : List Nat := [1, 2, 3]

/-- Use of a kernel; none for a reserved number (R188). -/
def kernelUse (k : Nat) : Option OpUse :=
  match k with
  | 0x01 => some { fmtA := true, fmtB := true, fmtD := true, layA := true, layD := true, round := true, splits := [1] }
  | 0x02 => some { fmtA := true, fmtD := true, layA := true, layD := true, round := true, splits := [1] }
  | 0x03 => some { fmtA := true, fmtB := true, fmtD := true, layA := true, layB := true, layD := true, round := true, splits := spread }
  | 0x04 => some { fmtA := true, fmtB := true, fmtD := true, layA := true, layB := true, layD := true, round := true, splits := spread }
  | 0x05 => some { fmtA := true, fmtD := true, layA := true, layD := true, round := true, splits := spread }
  | 0x06 => some { fmtA := true, fmtB := true, fmtD := true, layA := true, layB := true, layD := true, round := true, splits := spread }
  | 0x07 => some { fmtA := true, fmtB := true, fmtD := true, layA := true, layB := true, layD := true, round := true, splits := spread }
  | 0x08 => some { fmtA := true, fmtD := true, layA := true, layD := true, round := true, splits := spread }
  | 0x09 => some { fmtA := true, fmtD := true, layA := true, layD := true, round := true, splits := [1] }
  | 0x0A => some { fmtA := true, fmtD := true, layA := true, layD := true, round := true, splits := [1] }
  | 0x0B => some { fmtA := true, fmtD := true, layA := true, layD := true, round := true, splits := [1] }
  | 0x0C => some { fmtA := true, fmtB := true, fmtD := true, layA := true, layD := true, layX := true, round := true, splits := [1] }
  | 0x0D => some { fmtA := true, fmtB := true, fmtD := true, layA := true, layB := true, layD := true, layX := true, round := true, splits := spread }
  | 0x0E => some { fmtA := true, fmtB := true, fmtD := true, layA := true, layB := true, layD := true, layX := true, round := true, splits := spread }
  | 0x0F => some { fmtA := true, fmtD := true, layA := true, layD := true, layX := true, round := true, splits := spread }
  | 0x10 => some { fmtA := true, fmtD := true, layA := true, layD := true, round := true, splits := [1] }
  | 0x11 => some { fmtA := true, fmtB := true, layA := true, layB := true, round := true, splits := [1] }
  | 0x12 => some { fmtA := true, layA := true, round := true, splits := [1] }
  | 0x13 => some { fmtA := true, fmtB := true, fmtD := true, layA := true, layB := true, layD := true, layX := true, round := true, splits := spread }
  | _ => none

/-- Use of an opcode; none for a reserved one (R174). -/
def opUse (d : OpDesc) : Option OpUse :=
  match d.opcode.toNat with
  | 0x00 => some {}
  | 0x01 => some {}
  | 0x02 => some { fmtA := true, fmtB := true, fmtD := true, layA := true, layB := true, layD := true, book := true, round := true, splits := [1, 2, 3, 4] }
  | 0x03 => some { fmtA := true, fmtB := true, fmtD := true, layA := true, layB := true, layD := true, book := true, round := true, splits := [1, 2, 3] }
  | 0x04 => some { fmtA := true, fmtB := true, fmtD := true, book := true, round := true, splits := [6]
                   layA := d.p0.toNat % 4 ≠ 1, layB := d.p0.toNat % 4 = 1, layD := d.p0.toNat % 4 = 1 }
  | 0x05 => some { fmtA := true, fmtB := true, layA := true, layB := true, book := true, splits := [1, 3] }
  | 0x06 => some { splits := [6] }
  | 0x07 => some ((kernelUse d.kernel).getD { splits := [0, 1, 2, 3, 4, 5, 6] })
  | 0x08 => some { layA := true, layD := true, splits := [0, 1] }
  | 0x09 => some { fmtA := true, fmtD := true, layA := true, layD := true, splits := [1] }
  | 0x0A => some { fmtA := true, fmtD := true, layA := true, layD := true, round := true, splits := [1] }
  | 0x0B => some { fmtA := true, fmtD := true, layA := true, layD := true, splits := [1] }
  | 0x0C => some { fmtA := true, fmtD := true, layA := true, round := true, splits := [5] }
  | 0x0D => some { fmtA := true, fmtD := true, layA := true, layD := true, round := true, splits := [5] }
  | 0x0E => some { fmtA := true, fmtD := true, layA := true, layD := true, round := true, splits := [5] }
  | 0x0F => some { fmtA := true, fmtB := true, fmtD := true, layA := true, layB := true, layD := true, layX := true, round := true, splits := [5] }
  | 0x10 => some { fmtA := true, fmtB := true, fmtD := true, layA := true, layB := true, layD := true, layX := true, round := true, splits := [5] }
  | 0x11 => some { fmtA := true, layA := true, splits := [1] }
  | 0x12 => some {}
  | 0x13 => some {}
  | _ => none

/-- What the checks know besides the descriptor: the step, its partition's clusters, its context, and the accumulators that the
operation before it leaves held (SPLIT, DIM_M and DIM_N). -/
structure FetchEnv where
  t    : Step
  cl   : List Nat
  ctx  : Context
  s    : State
  held : Option (Byte × Nat × Nat) := none
  deriving DecidableEq, Repr

/-! ### FORMAT_INVALID (R65, R167, R177, R182, R183) -/

/-- A format code and its scale that an operand may not have. -/
def fmtBad (code scale : Nat) (book : Bool) : Bool :=
  !fmtKnown code || !scaleOk code scale || (isCodebook code && !book)

/-- FP8 either, BF16 or FP16. -/
def attnFmt (code : Nat) : Bool := 1 ≤ code && code ≤ 4

/-- OPERAND_FORMAT (R65, R167). A reserved ROUND is refused where the operation's row of the opcode table names ROUND, which one that converts nothing
does not (DESIGN CHOICE: notes/assumptions/58.md). -/
def formatBad (u : OpUse) (f : FetchEnv) (d : OpDesc) : Bool :=
  let a := d.fmtA.toNat
  let b := d.fmtB.toNat
  let x := d.fmtD.toNat
  let op := d.opcode.toNat
  (u.fmtA && fmtBad a d.scaleA.toNat false) || (u.fmtB && fmtBad b d.scaleB.toNat u.book) || (u.fmtD && fmtBad x d.scaleD.toNat false)
    || (u.round && decide (d.round.toNat ≥ 2))
    || (op == 0x02 && ((d.transA && d.scaleA ≠ 0) || (d.transB && d.scaleB ≠ 0)))
    || ((op == 0x09 || op == 0x0B) && (d.fmtD ≠ d.fmtA || d.scaleD ≠ d.scaleA))
    || (op == 0x0C && (a != 0 || (match f.ctx.kv with
          | some c => x != c.code || d.scaleD.toNat != c.scale
          | none => false)))
    || ((op == 0x0D || op == 0x0E) && !attnFmt a)
    || ((op == 0x0F || op == 0x10) && (!attnFmt a || !attnFmt b || decide (d.round = 1)))
    || (op == 0x10 && decide (x > 2))
    || (op == 0x11 && decide (a > 1))
    || (op == 0x07 && d.kernel == 0x13 && (x != 0 || decide (d.scaleD ≠ 0)))

/-! ### SPLIT_INVALID (R167, R169, R170, R181) -/

def splitBad (u : OpUse) (d : OpDesc) : Bool :=
  !u.splits.contains d.split.toNat
    || (u.layA && decide (d.layA.toNat > 4)) || (u.layB && decide (d.layB.toNat > 4))
    || (u.layD && decide (d.layD.toNat > 4)) || (u.layX && decide (d.layX.toNat > 4))
    || (d.opcode = 0x02 && d.split = 4 && (d.holdAcc || d.accIn))
    || (d.opcode = 0x08 && !((d.layA = 0 && d.layD = 0 && d.split = 0) || (d.layA = d.layD && d.layA ≠ 0 && d.split = 1)))

/-! ### SHAPE_INVALID (R167, R168, R178, R190, R209, R213, R219 to R221, R229, R231, R235, R188) -/

def dimMax : Nat := 262144

/-- A dimension that the opcode uses is above its limit (R168, R174). -/
def dimsBad (d : OpDesc) : Bool :=
  let m := decide (d.m > dimMax)
  let n := decide (d.n > dimMax)
  let k := decide (d.k > dimMax)
  let g := decide (d.g > 65536)
  match d.opcode.toNat with
  | 0x02 => m || n || k
  | 0x03 => m || n || k
  | 0x04 => m || n || k || g
  | 0x05 => m || k || g
  | 0x06 => m || g
  | 0x07 => m || n
  | 0x08 => decide (d.n > segmentBytes)
  | 0x09 => m || n
  | 0x0A => m || n
  | 0x0B => m || n || k
  | 0x0C => m || g
  | 0x0D => m || g
  | 0x0E => m || g
  | 0x0F => m || n || g
  | 0x10 => m || n || g
  | 0x11 => m || n
  | _ => false

/-- Most items of a split that one cluster has. -/
def mostItems (total parts : Nat) : Nat := (List.range parts).foldl (fun x i => max x (partStart (i + 1) total parts - partStart i total parts)) 0

/-- Most rows that one cluster has when row tiles are split in parts. -/
def mostRows (m parts : Nat) : Nat :=
  let tiles := ceilDiv m 64
  (List.range parts).foldl (fun x i => max x (min m (64 * partStart (i + 1) tiles parts) - 64 * partStart i tiles parts)) 0

/-- The rows that the fullest array would hold under HOLD_ACC: its token rows, once for each N-block of its M-core (R172,
R178). -/
def heldRows (d : OpDesc) (parts : Nat) : Nat :=
  let (pr, pc) := match d.split.toNat with
    | 1 => (parts, 1)
    | 2 => (1, parts)
    | 3 => (parts / 12, 12)
    | _ => (1, 1)
  ceilDiv (mostRows d.m pr) 4 * ceilDiv (mostItems (ceilDiv d.n 64) pc) 4

/-- The conditions of held accumulators (R178). -/
def heldBad (f : FetchEnv) (d : OpDesc) : Bool :=
  (match f.held with
    | some (sp, m, n) => !(d.opcode = 0x02 && d.accIn && d.split = sp && d.m = m && d.n = n)
    | none => d.opcode = 0x02 && d.accIn)
  || (d.opcode = 0x02 && d.holdAcc && decide (heldRows d f.cl.length > 2048))

/-- DIM_M is neither a special value nor the count it stands for. -/
def rowsBad (special : W32) (count : Nat) (d : OpDesc) : Bool := d.rawM ≠ special && d.rawM ≠ BitVec.ofNat 32 count

/-- EMBED and the rotary kernels that take tokens and positions from the step table. -/
def fromTable (d : OpDesc) : Bool :=
  d.opcode = 0x0B || (d.opcode = 0x07 && (d.kernel == 0x02 || d.kernel == 0x10) && !bit d.p2 16)

/-- The limits of paged attention (R213, R219). -/
def pagedBad (f : FetchEnv) (c : KvConfig) (d : OpDesc) : Bool :=
  let decode := d.opcode = 0x0D
  (decode && f.t.kind ≠ .decode) || rowsBad 0xFFFFFFFF f.t.rowCount d
    || decide (d.g > 8192) || decide (d.g % c.heads ≠ 0) || decide (d.g / c.heads > 128)
    || decide (d.layer ≥ c.layers)
    || (match ofF32 d.p1 with
        | .fin s m _ => s || m == 0
        | _ => true)
    || (decode && ((ofF32 d.p2).isNan || (ofF32 d.p2).lt .zero))

def shapeBad (f : FetchEnv) (d : OpDesc) : Bool :=
  let op := d.opcode.toNat
  let p0 := d.p0.toNat
  dimsBad d || heldBad f d
    || (fromTable d && (decide (f.t.kind = .training) || rowsBad 0xFFFFFFFF f.t.rowCount d))
    || ((op == 0x0C || op == 0x0D || op == 0x0E || op == 0x11) && decide (f.t.kind = .training))
    || (match f.ctx.kv with
        | none => op == 0x0C || op == 0x0D || op == 0x0E || op == 0x11
        | some c =>
          (op == 0x0C && (rowsBad 0xFFFFFFFF f.t.rowCount d || (decide (d.g ≠ c.heads) && decide (d.g ≠ 0)) || decide (d.layer ≥ c.layers)))
            || ((op == 0x0D || op == 0x0E) && pagedBad f c d))
    || (op == 0x11 && rowsBad 0xFFFFFFFE f.t.seqCount d)
    || ((op == 0x0F || op == 0x10) && decide (d.g % d.n ≠ 0))
    || (op == 0x05 && (decide (d.rank % 64 ≠ 0) || decide (d.rank > 1024) || decide (d.act = 3) || (ofF32 d.p2).isNan))
    || (op == 0x06 && (decide (p0 / 256 % 256 > 64) || decide (d.p1.toNat > dimMax)))
    || (op == 0x04 && (decide (p0 % 4 = 3) || (decide (p0 % 4 = 2) && decide (p0 / 4 % 4 = 3)) || decide (d.p1.toNat > dimMax)
          || (if p0 % 4 = 1 then decide (d.k % 128 ≠ 0) else decide (d.n % 64 ≠ 0))))
    || (op == 0x07 && (d.kernel == 0x02 || d.kernel == 0x10) && decide (128 * (d.p2.toNat % 65536) > d.n))
    || (op == 0x07 && d.kernel == 0x11 && decide (128 * (d.p1.toNat % 65536) > d.n))
    || (op == 0x07 && d.kernel == 0x0A && (decide (d.p1.toNat > 64) || decide (d.p1.toNat > d.n)))

/-! ### ADDRESS_INVALID (R135, R167) -/

/-- The operands of elements of a kernel. -/
def kernelTens (d : OpDesc) : List Tens :=
  let a := d.tensA d.m d.n
  let b := d.tensB d.m d.n
  let x := d.tensD d.m d.n
  match d.kernel with
  | 0x01 => [a, flatTens d.addrB d.fmtB.toNat d.scaleB.toNat 1 d.n, x]
  | 0x02 => [a, flatTens d.addrB 0 0 d.p1.toNat 128, x]
  | 0x03 => [a, b, x]
  | 0x04 => [a, b, x]
  | 0x05 => [a, x]
  | 0x06 => [a, b, x]
  | 0x07 => [a, b, x]
  | 0x08 => [a, x]
  | 0x09 => [a, x]
  | 0x0A => [a, d.tensD d.m d.p1.toNat]
  | 0x0B => [a, x]
  | 0x0C => [a, flatTens d.addrB d.fmtB.toNat d.scaleB.toNat 1 d.n, d.dyX, x, flatTens d.p2 0 0 1 d.n]
  | 0x0D => [a, b, d.dyX, x, d.tensX d.p2 d.fmtD.toNat d.scaleD.toNat d.m d.n]
  | 0x0E => [a, b, d.dyX, x, d.tensX d.p2 d.fmtD.toNat d.scaleD.toNat d.m d.n]
  | 0x0F => [a, d.dyX, x]
  | 0x10 => [a, flatTens d.addrB 0 0 d.p1.toNat 128, x]
  | 0x11 => [a, b]
  | 0x12 => [a]
  | 0x13 => [a, ⟨wordAddr d.addrB, d.layB.toNat, 0, 0, d.m, 2 * d.n, false⟩, x]
              ++ (if d.p1 = 0 then [] else [d.tensX d.p1 d.fmtB.toNat d.scaleB.toNat d.m d.n])
  | _ => []

/-- The operands of elements of an operation. The D of a MATMUL under HOLD_ACC, which it does not write, is not among them (R167; DESIGN CHOICE:
notes/assumptions/62.md). -/
def opTens (f : FetchEnv) (d : OpDesc) : List Tens :=
  match d.opcode.toNat with
  | 0x02 =>
    [if d.transA then d.tensA d.k d.m else d.tensA d.m d.k, if d.transB then d.weightB d.n d.k else d.weightB d.k d.n]
      ++ (if d.holdAcc then [] else [d.tensD d.m d.n])
  | 0x03 => [d.tensA d.m d.k, d.weightB d.k d.n, d.tensD d.m d.n]
  | 0x04 => if d.p0.toNat % 4 = 1 then [d.weightB (d.g * d.k) d.n, d.tensD d.m d.n] else [d.tensA d.m d.k]
  | 0x05 => [d.tensA d.m d.k, d.weightB d.k d.rank, ⟨wordAddr d.p1, 0, d.fmtB.toNat, d.scaleB.toNat, d.rank, d.g, true⟩]
  | 0x07 => kernelTens d
  | 0x09 => [d.tensA d.p1.toNat d.n, d.tensD d.m d.n]
  | 0x0A => [d.tensA d.m d.n, d.tensD d.p1.toNat d.n]
  | 0x0B => [d.tensA d.k d.n, d.tensD d.m d.n]
  | 0x0C => [d.tensA d.m (256 * (f.ctx.kv.elim 0 (·.heads)))]
  | 0x0D => [d.tensA d.m (128 * d.g), d.tensD d.m (128 * d.g)]
  | 0x0E => [d.tensA d.m (128 * d.g), d.tensD d.m (128 * d.g)]
  | 0x0F => [d.tensA d.m (128 * d.g), d.tensB d.m (128 * d.n), d.trainV, d.tensD d.m (128 * d.g)]
  | 0x10 =>
    let grad (w : W32) : Tens := d.tensX w d.fmtD.toNat d.scaleD.toNat d.m (128 * d.n)
    [d.tensA d.m (128 * d.g), d.tensB d.m (128 * d.n), d.trainV, d.tensX d.p1 d.fmtA.toNat d.scaleA.toNat d.m (128 * d.g)
     , d.tensD d.m (128 * d.g), grad d.p2, grad d.p3]
  | 0x11 => [d.tensA d.m d.n]
  | _ => []

/-- The flat operands that are no tensors of elements. -/
def opFlats (d : OpDesc) : List Ext :=
  let m := d.m
  match d.opcode.toNat with
  | 0x03 => [⟨wordAddr d.addrX, 2 * d.p1.toNat⟩]
  | 0x05 => [⟨wordAddr d.addrD, bitmapBytes m d.g⟩]
  | 0x06 =>
    let ksel := d.p0.toNat / 256 % 256
    let index := bit d.p0 0
    [⟨wordAddr d.addrX, if index then 4 * m * ksel else bitmapBytes m d.g⟩]
      ++ (if index && bit d.p0 1 then [⟨wordAddr d.p2, 4 * m * ksel⟩] else [])
      ++ (if bit d.p0 2 then [⟨wordAddr d.p3, bitmapBytes m 1⟩] else [])
  | 0x07 =>
    match d.kernel with
    | 0x02 => if bit d.p2 16 then [⟨wordAddr d.addrX, 4 * m⟩] else []
    | 0x10 => if bit d.p2 16 then [⟨wordAddr d.addrX, 4 * m⟩] else []
    | 0x0A => [⟨wordAddr d.p2, 4 * m * d.p1.toNat⟩]
    | 0x0B => [⟨wordAddr d.addrX, 4 * m⟩, ⟨wordAddr d.p2, 4 * m⟩]
    | 0x11 => [⟨wordAddr d.addrD, 16 * m * (d.p1.toNat % 65536)⟩]
    | 0x12 => [⟨wordAddr d.addrD, 4⟩]
    | 0x13 => [⟨wordAddr d.addrX, 64⟩]
    | _ => []
  | 0x09 => [⟨wordAddr d.addrX, 4 * m⟩]
  | 0x0A => [⟨wordAddr d.addrX, 4 * m⟩]
  | 0x0D => if d.saveStats then [⟨wordAddr d.addrX, 8 * m * d.g⟩] else []
  | 0x0E => if d.saveStats then [⟨wordAddr d.addrX, 8 * m * d.g⟩] else []
  | 0x0F => [⟨wordAddr d.p0, 16 * m * d.g⟩]
  | 0x10 => [⟨wordAddr d.p0, 16 * m * d.g⟩]
  | _ => []

/-- The operands in the block arrangement: offset and stride (R234). -/
def opBlocks (d : OpDesc) : List (Nat × Nat) :=
  let cap := d.p1.toNat
  let a := d.fmtA.toNat
  let b := d.fmtB.toNat
  let x := d.fmtD.toNat
  match d.opcode.toNat with
  | 0x04 =>
    let lists := (wordAddr d.addrX, listStride cap)
    match d.p0.toNat % 4 with
    | 1 => [(wordAddr d.addrA, compactBytes a d.scaleA.toNat cap d.k), lists]
    | 2 => [(wordAddr d.addrB, gridBytes b d.scaleB.toNat d.k (gatedCols (d.p0.toNat / 4 % 4) d.n)), lists
            , (wordAddr d.addrD, compactBytes x d.scaleD.toNat cap d.n)]
    | _ => [(wordAddr d.addrB, gridBytes b d.scaleB.toNat d.k d.n), lists, (wordAddr d.addrD, compactBytes x d.scaleD.toNat cap d.n)]
  | 0x05 => if d.audit then [(wordAddr d.p3, gridBytes b d.scaleB.toNat d.k (gatedCols d.act 128))] else []
  | 0x06 => [(wordAddr d.addrD, listStride cap)]
  | _ => []

/-- A block arrangement whose offset is no offset, or whose fullest slice runs past its segment's end. -/
def blocksBad (parts g : Nat) (b : Nat × Nat) : Bool :=
  decide (b.1 ≥ segmentBytes) || decide (b.1 + mostItems g parts * b.2 > segmentBytes)

/-- The two ranges of a MOVE (R181, R135). -/
def moveBad (d : OpDesc) : Bool :=
  decide (d.n % 64 ≠ 0) || [d.addrA, d.addrD].any (fun w =>
    if d.layA = 0 then flatBad (wordAddr w) d.n
    else decide (wordAddr w ≥ segmentBytes) || decide (wordAddr w + d.n > segmentBytes))

def addressBad (f : FetchEnv) (d : OpDesc) : Bool :=
  (opTens f d).any (·.badAddr f.cl) || (opFlats d).any (fun e => flatBad e.addr e.len)
    || (opBlocks d).any (blocksBad f.cl.length d.g) || (d.opcode = 0x08 && moveBad d)

/-! ### MARK_INVALID (R295, R296) -/

def markBad (f : FetchEnv) (d : OpDesc) : Bool :=
  if d.opcode = 0x12 || d.opcode = 0x13 then
    let mode := d.p0.toNat / 4096 % 4
    match f.ctx.vmarks.find (d.p0.toNat % 2048) with
    | none => true
    | some k =>
      let kind := (f.s.mark k.val).kind
      if d.opcode = 0x12 then !markPermits kind mode else !waitPermits kind mode
  else false

/-- The first check that a descriptor fails, in the order of R167. -/
def checkDesc (f : FetchEnv) (d : OpDesc) : Option Byte :=
  match opUse d with
  | none => some stOpcode
  | some u =>
    if formatBad u f d then some stFormat
    else if splitBad u d then some stSplit
    else if shapeBad f d then some stShape
    else if d.opcode = 0x07 && (kernelUse d.kernel).isNone then some stKernel
    else if addressBad f d then some stAddress
    else if markBad f d then some stMark
    else none

end Sys2Proof.Machine
end

