-- ==== Sys2Proof/Machine/Program.lean ====
section
/-! DEFINITION. The Navigator: the fetch of descriptors, the start, the barrier and the end of operations, the end and the
failure of a step, and the opcodes that do no arithmetic (R161 to R167, R174, R175, R178, R184 to R186, R294, R371, R372).
Rests on the log entries (notes/assumptions/<n>.md) 7 (DESIGN CHOICE), 21 (DEDUCED), 38 (DEDUCED). -/
namespace Sys2Proof.Machine

/-! ### Fetch (R161, R162, R167, R184, R186) -/

/-- The accumulators that the operation at an index will find held (R178). -/
def heldFor (t : Step) : Option (Byte × Nat × Nat) :=
  match t.current with
  | some d => if d.opcode = 0x02 && d.holdAcc then some (d.split, d.m, d.n) else none
  | none => t.held.map (fun h => (h.split, h.m, h.n))

/-- What the Pilot has learned of a phase of a context, number by number (R371). -/
def Learned.numbers (l : Learned) : List Nat :=
  (if l.insensitive then 1 else 0) :: l.clusters.flatMap (fun (n, m) =>
    [n] ++ m.busy ++ [m.accesses, m.special, m.dimmBytes, m.flits, m.wallTime, m.freq])

/-- The Pilot's target for a partition's next operation (R372): what it chooses from the prediction, no higher than the module's
clock and no lower than the lowest frequency of R332. -/
def pilotChoice (s : State) (p : Nat) (c : CtxId) (d : OpDesc) : Nat :=
  let top := match s.build.record with
    | some c => c.maxClock.toNat
    | none => 24
  let known (c : CtxId) (phase : Byte) : List Nat := (s.power.learned.find? (fun x => x.ctx == c && x.phase == phase)).elim [] Learned.numbers
  let foreseen (c : CtxId) (o : OpDesc) : List (List Nat) := [[o.opcode.toNat, o.phase.toNat, o.split.toNat, o.m, o.n, o.k, o.g], known c o.phase]
  max 24 (min top (Config.pilotTarget
    ⟨d.phase, d.split, classCode d.prodKind.cls d.prodKind.int32, [d.m, d.n, d.k, d.g], known c d.phase, s.setting .pwrCap, (s.part p).elim 0 (·.clusters.length),
      (s.parts.select (fun q _ => q != p)).map (fun (_, q) => [q.clusters.length] :: (match q.step with
        | some t => (t.current.toList ++ t.fetched.toList).flatMap (foreseen t.ctx)
        | none => [])),
      if s.setting .pwrMode = 1 then (List.range 122).map (fun i => s.power.coeffs.getD i 1000000) else []⟩))

/-- The partitions planned as one with a partition: those whose running steps belong to contexts of one gang (R375). -/
def plannedWith (s : State) (p : Nat) : List Nat :=
  match (s.stepOf p).bind (fun t => (s.ctx t.ctx.val).bind (·.gang)) with
  | none => [p]
  | some k => s.parts.keys.filter (fun q => q == p || (match s.stepOf q with
      | some t => (s.mark k.val).members.contains t.ctx
      | none => false))

/-- A word of a step program that reads as poison: its row is mapped and tested, and the fetch fails (R146, R380). -/
def fetchPoison (w p i : Nat) (s : State) : State :=
  let s := updStep p (fun t => { t with fetchBad := some stMemory }) s
  let m : StoreRef := .segment 96
  let row := w % 2 ^ 23 / 64
  let s := updStore m (fun r => { r with counters := { r.counters with poison := satAdd r.counters.poison 1 } }) s
  detect 0x07 (rowUnit s m row) { stepMet s p stMemory with op := BitVec.ofNat 32 i } (mapOnce 0x03 0x07 m row s)

/-- The physical mark that a mark opcode names. -/
def markOfOp (s : State) (c : CtxId) (d : OpDesc) : Option MarkId := (s.ctx c.val).bind (fun k => k.vmarks.find (d.p0.toNat % 2048))

/-- A checked descriptor with its identifier translated (R296). -/
def OpDesc.translated (s : State) (c : CtxId) (d : OpDesc) : OpDesc :=
  if d.opcode == 0x12 || d.opcode == 0x13 then { d with mark := markOfOp s c d } else d

/-- DESCRIPTOR_FETCH: the next descriptor is fetched, checked and kept for its start; a failed check is kept likewise. -/
def descriptorFetch (p : PartId) (s : State) : State :=
  match s.part p.val with
  | none => s
  | some q =>
    match q.step with
    | none => s
    | some t =>
      if t.fetched.isSome || t.fetchBad.isSome || t.failed.isSome || decide (t.phase = .compared) || decide (t.phase = .ended)
          || (t.current.any (fun d => d.opcode == 0x01)) then s
      else
        match s.ctx t.ctx.val with
        | none => s
        | some k =>
          let i := if t.current.isSome then t.op + 1 else t.op
          match k.programs.find t.program with
          | none => updStep p.val (fun t => { t with fetchBad := some stProgram }) s
          | some g =>
            if g.count ≤ i then updStep p.val (fun t => { t with fetchBad := some stOpcode }) s
            else
              let a := g.base + 64 * i
              if s.memPoison.contains (a / 64) then fetchPoison (a / 64) p.val i s
              else
                let d := decodeDesc t.rowCount t.seqCount (s.ssRead a 64)
                match checkDesc { t := t, cl := q.clusters, ctx := k, s := s, held := heldFor t } d with
                | some st => updStep p.val (fun t => { t with fetchBad := some st }) s
                | none =>
                  let s := (plannedWith s p.val).foldl (fun s n => updPart n (fun q => { q with target := pilotChoice s p.val t.ctx d }) s) s
                  updStep p.val (fun t => { t with fetched := some (d.translated s t.ctx) }) s

def execDescriptorFetch (p : PartId) (s : State) : Out := done s (descriptorFetch p)

/-- Sites of a partition that have returned resume their own share at the operation boundary (R360). -/
def coversEnd (p : Nat) (s : State) : State :=
  match s.part p with
  | none => s
  | some q => if (q.step.bind (·.current)).isSome then s
      else (q.clusters.map s.siteOf).foldl (fun s i => updSite i (fun r => if r.power = .on then { r with cover := none } else r) s) s

/-- OPERATION_START: with no operation running, the checked descriptor goes to every S-core; one that failed its check fails the
step, with the accumulators held discarded (R167, R178). While routes change, the start waits at the Navigator's port (R285). -/
def operationStart (p : PartId) (s : State) : State :=
  updStep p.val (fun t =>
    if decide (t.phase ≠ .between) || t.failed.isSome || s.wafer.stopped then t
    else
      match t.fetchBad with
      | some st => { t with failed := some (st, BitVec.ofNat 32 t.op), held := none }
      | none =>
        match t.fetched with
        | some d => { t with current := some d, fetched := none, phase := .running, done := false, arrived := [], combined := [], portHeld := [], complete := false, released := false,
                                 counts := t.counts.add t.engine, engine := {} }
        | none => t) s

def execOperationStart (p : PartId) (s : State) : Out := .next (operationStart p (coversEnd p.val s))

/-! ### The operation barrier (R163, R294) -/

/-- A cluster has ended its part of an operation: its ranges are free, what waited at its M-cores goes, and substitutions that waited are made
(R92, R133). -/
def clusterEnds (n : Nat) (s : State) : State := makeSubstitutions n ((List.range 4).foldl (fun s m => runCore n m s) (clearBoards n s))

/-- The routes of a partition's clusters to the unit of its barrier mark: its combining tree (R294). -/
def arrivalTree (s : State) (p : Nat) (q : Partition) : List (Nat × List Nat) :=
  let root := unitAt (barrierMark s p / 128)
  q.clusters.map (fun n => (n, fabricRoute s.wafer.routesFor 0 (sitePos (dieSite (s.siteOf n))) root))

/-- The routers on an arrival's way whose subtree has now arrived whole, in order: each sends one combined arrival on. -/
def combinedAt (tree : List (Nat × List Nat)) (arrived : List Nat) (c : Nat) : List Nat :=
  ((tree.find? (fun x => x.1 == c)).elim [] (·.2.dropLast)).filter (fun a => tree.all (fun x => !x.2.contains a || arrived.contains x.1))

/-- Arrivals that have reached the unit, in combined arrivals. -/
def arrivedAtUnit (tree : List (Nat × List Nat)) (arrived combined : List Nat) : Nat :=
  count tree (fun x => arrived.contains x.1 && x.2.dropLast.all (fun a => combined.contains a))

/-- The links of a tree, each once, from the router that is further from the unit. -/
def treeLinks (tree : List (Nat × List Nat)) : List (Nat × Nat) := (tree.flatMap (fun x => x.2.zip (x.2.drop 1))).eraseDups

/-- BARRIER_ARRIVAL: a cluster that has ended the operation arrives, and routers combine its arrival with others; the last completes the generation of the
firmware mark. While routes change, or a link on its way has no credit, the arrival waits at its local port (R285, R286). -/
def barrierArrival (p : PartId) (c : Cluster) (s : State) : State :=
  match s.part p.val with
  | none => s
  | some q =>
    match q.step with
    | none => s
    | some t =>
      if decide (t.phase ≠ .running) || !t.done || t.complete || t.failed.isSome || !q.clusters.contains c.val || t.arrived.contains c.val then s
      else
        let all := t.arrived ++ [c.val]
        let tree := arrivalTree s p.val q
        let sent := combinedAt tree all c.val
        let combined := t.combined ++ sent
        if s.wafer.stopped || !sent.all (fun a => pathOpen s 0 [a, nextHop s.wafer.routesFor 0 a (unitAt (barrierMark s p.val / 128))]) then
          updStep p.val (fun t => { t with portHeld := union t.portHeld [c.val] }) s
        else
          let s := clusterEnds c.val s
          let s := sent.foldl (fun s a => crossLink a (nextHop s.wafer.routesFor 0 a (unitAt (barrierMark s p.val / 128))) 4 0 1 s) s
          let s := updCtx t.ctx.val (fun k => { k with quietSince := s.now }) s
          let n := arrivedAtUnit tree all combined
          let m := s.mark (barrierMark s p.val)
          let whole := q.clusters.length ≤ n
          updStep p.val (fun t => { t with arrived := all, combined := combined, complete := decide whole })
            (if n = arrivedAtUnit tree t.arrived t.combined then s
            else { s with marks := s.marks.put (barrierMark s p.val) { m with
              kind := .barrier, target := BitVec.ofNat 32 q.clusters.length, count := if whole then 0 else BitVec.ofNat 32 n
              value := if whole then m.value + 1 else m.value, last := { time := markNow s (barrierMark s p.val), source := 0xFD, op := 2 } } })

def execBarrierArrival (p : PartId) (c : Cluster) (s : State) : Out := done s (barrierArrival p c)

/-- BARRIER_RELEASE: the completed generation's release reaches every member cluster, copied by the routers of the tree; while routes change, or a link
has no credit, it waits at the unit's port (R285, R286). -/
def barrierRelease (p : PartId) (s : State) : State :=
  match s.part p.val with
  | none => s
  | some q =>
    match q.step with
    | none => s
    | some t =>
      let links := treeLinks (arrivalTree s p.val q)
      if !t.complete || t.released || s.wafer.stopped || !links.all (fun x => pathOpen s 0 [x.2, x.1]) then s
      else updStep p.val (fun t => { t with released := true })
        (links.foldl (fun s (a, b) => crossLink b a 6 0 1 s) s)

def execBarrierRelease (p : PartId) (s : State) : Out := .next (barrierRelease p s)

/-! ### The end of an operation (R163, R218, R305, R371) -/

/-- One eighth of the way towards a measurement. -/
def towards (old new : Nat) : Nat := (7 * old + new) / 8

/-- An operation whose wall time changes by less than 2 % for 10 % of frequency is insensitive to it. -/
def insensitive (old new : Measure) : Bool :=
  let df := if old.freq ≤ new.freq then new.freq - old.freq else old.freq - new.freq
  let dt := if old.wallTime ≤ new.wallTime then new.wallTime - old.wallTime else old.wallTime - new.wallTime
  df ≠ 0 && decide (10 * old.freq ≤ 100 * df) && decide (100 * dt * old.freq < 20 * df * old.wallTime)

/-- A learned value moved by a measurement of the same cluster. -/
def learnMeasure (old new : Measure) : Measure :=
  ⟨new.cluster, (List.range 4).map (fun k => towards (old.busy.getD k 0) (new.busy.getD k 0)), towards old.accesses new.accesses, towards old.special new.special,
   towards old.dimmBytes new.dimmBytes, towards old.flits new.flits, towards old.wallTime new.wallTime, towards old.freq new.freq⟩

/-- The learned table after an operation of a context with a phase tag; 0x00 is never learned, and the pair least recently used
is replaced (R371). -/
def learnTable (c : CtxId) (phase : Byte) (ms : List Measure) (l : List Learned) : List Learned :=
  if phase = 0 then l
  else
    let old := l.find? (fun x => x.ctx == c && x.phase == phase)
    let rest := l.filter (fun x => !(x.ctx == c && x.phase == phase))
    let base : Learned := match old with
      | some x => x
      | none => ⟨c, phase, [], false⟩
    let flat := ms.any (fun m => match base.clusters.find m.cluster.val with
      | some x => insensitive x m
      | none => false)
    let clusters := ms.foldl (fun t m => t.put m.cluster.val (match t.find m.cluster.val with
      | some x => learnMeasure x m
      | none => m)) base.clusters
    ({ base with clusters := clusters, insensitive := base.insensitive || flat } :: rest).take 4096

/-- A measurement of a cluster whose region a droop hold lowers: the frequency learned is the one that the Pilot chose (R374). -/
def unheld (s : State) (p : Nat) (m : Measure) : Measure :=
  if (s.region (siteRegion (s.siteOf m.cluster.val))).holdAt.isSome then { m with freq := (s.part p).elim m.freq (fun q => max m.freq q.target) } else m

/-- OPERATION_END: the operation has ended on every cluster and its barrier has completed. -/
def operationEnd (p : PartId) (ms : List Measure) (s : State) : State :=
  match s.stepOf p.val with
  | none => s
  | some t =>
    match t.current with
    | none => s
    | some d =>
      if decide (t.phase ≠ .running) || !t.released || t.failed.isSome || d.opcode == 0x01 then s
      else
        let s := { s with power := { s.power with learned := learnTable t.ctx d.phase (ms.map (unheld s p.val)) s.power.learned } }
        let s := updCtx t.ctx.val (fun k => { k with opsEnded := satAdd k.opsEnded 1 }) s
        let s := updStep p.val (fun t => { t with
          phase := .between, op := t.op + 1, current := none, done := false, arrived := [], combined := [], portHeld := [], complete := false, released := false
          cacheLayer := if d.opcode = 0x0D then d.layer + 1 else t.cacheLayer
          cacheUsed := if d.opcode = 0x0D then 0 else t.cacheUsed
          cacheBad := if d.opcode = 0x0D then [] else t.cacheBad }) s
        episodeEnds t.ctx.val s

def execOperationEnd (p : PartId) (measured : List Measure) (s : State) : Out := .next (operationEnd p measured s)

/-- OPERATION_FAIL: in-flight work has completed after a failure; the step ends with the first status (R164, R185, R381). -/
def operationFail (p : PartId) (s : State) : State :=
  match s.stepOf p.val with
  | none => s
  | some t =>
    match t.failed with
    | none => s
    | some (st, op) =>
      if decide (t.phase = .compared) || decide (t.phase = .ended) then s
      else episodeEnds t.ctx.val (endStep st op p.val (updStep p.val (fun t => { t with fetched := none }) (outliveWaits t s)))

def execOperationFail (p : PartId) (s : State) : Out := done s (operationFail p)

/-! ### Opcodes without arithmetic (R174, R175, R293, R295) -/

/-- NOP: nothing; its barrier follows. -/
def nop (p : PartId) (s : State) : State :=
  match readyOp s p.val (isOp 0x00) with
  | none => s
  | some _ => opDone p.val s

def execNop (p : PartId) (s : State) : Out := .next (nop p s)

/-- END: the step ends with DONE. Where the copies of the sequence engine differ in what it commits or records, the step fails (R384). -/
def endOp (p : PartId) (copy : Option (Fin 2)) (s : State) : State :=
  match readyOp s p.val (isOp 0x01) with
  | none => s
  | some e =>
    match copy with
    | some k => if s.errs.seqCopyOff then ends e s else stepError 0x03 (seqUnit k.val) p.val s
    | none => ends e s
where
  ends (e : Env) (s : State) : State := episodeEnds e.t.ctx.val (endStep stDone 0xFFFFFFFF p.val s)

def execEndStep (p : PartId) (seqCopy : Option (Fin 2)) (s : State) : Out := done s (endOp p seqCopy)

/-- The mode that a mark opcode names. -/
def OpDesc.markMode (d : OpDesc) : Nat := d.p0.toNat / 4096 % 4

/-- MARK_SIGNAL: the message leaves for the mark's unit, and the operation ends at its acknowledgement. -/
def markSignal (p : PartId) (s : State) : State :=
  match readyOp s p.val (isOp 0x12) with
  | none => s
  | some e =>
    match e.d.mark with
    | none => failStep stMark p.val s
    | some k =>
      let v : W32 := if e.d.markMode = 0 || e.d.markMode = 1 then e.d.p1 else 0
      updStep p.val (fun t => { t with phase := .signalling }) (sendMsg p (k.val / 128) (.signal k (BitVec.ofNat 8 e.d.markMode) v) s)

def execMarkSignal (p : PartId) (s : State) : Out := .next (markSignal p s)

/-- MARK_WAIT: the wait leaves for the mark's unit, and the operation ends at its wake. -/
def markWait (p : PartId) (s : State) : State :=
  match readyOp s p.val (isOp 0x13) with
  | none => s
  | some e =>
    match e.d.mark with
    | none => failStep stMark p.val s
    | some k =>
      let s := updCtx e.t.ctx.val (fun c => { c with quietSince := s.now }) s
      updStep p.val (fun t => { t with phase := .waiting })
        (sendMsg p (k.val / 128) (.signal k (BitVec.ofNat 8 (16 + e.d.markMode)) (if e.d.markMode = 1 then 0 else e.d.p1)) s)

def execMarkWait (p : PartId) (s : State) : Out := .next (markWait p s)

end Sys2Proof.Machine
end

