-- ==== Sys2Proof/Machine/Fabric.lean ====
section
/-! DEFINITION. Links that fail, and the change of routes (R283 to R285).
Rests on the log entries (notes/assumptions/<n>.md) 24 (DESIGN CHOICE). -/
namespace Sys2Proof.Machine

/-- The chart unit of a link, named by the position at its west or north end (R25). -/
def linkUnit (pos : Nat) (south : Bool) : UnitRef :=
  ⟨0x0B, xyByte (posSite pos).1, xyByte (posSite pos).2, if south then 1 else 0, 0, 0⟩

/-- Some route of the tables for a set of links out is longer than 22 links, or does not reach its destination (R284). -/
def routesTooLong (out : List (Nat × Bool)) (routersOut : List Nat) : Bool :=
  let live := (List.range 144).filter (fun p => !routersOut.contains p)
  !out.isEmpty && (List.finRange 4).any (fun vc => live.any (fun p => live.any (fun q =>
    let r := fabricRoute out vc p q
    decide (r.length > 23) || r.getLast? != some q)))

/-- A link is taken out of service during operation: what waits in the replay buffer of a direction waits for new tables, and the link is tested
(R283, R285). A flit that the receiver had, its acknowledgements lost, goes on and waits as well. -/
def linkFails (pos : Nat) (south : Bool) (a b : Nat) (received : Bool) (s : State) : State :=
  let first := if received then s.net.fabric.find? (fun m => crosses (m.path s) a b) else none
  let s := linkOut pos south { s with wafer := { s.wafer with
    dirs := (s.wafer.dirs.drop (dirKey a b)).drop (dirKey b a), stopped := true } }
  detect 0x0B (linkUnit pos south) {} { s with net := { s.net with fabric := first.toList ++ s.net.fabric } }

/-- Arrivals at operation barriers that waited at their local ports (R285, R286). -/
def heldArrivals (s : State) : State :=
  if s.wafer.stopped then s
  else s.parts.keys.foldl (fun s p =>
    match s.stepOf p with
    | none => s
    | some t => t.portHeld.foldl (fun s n => if h : n < 100 then barrierArrival (asPart p) ⟨n, h⟩ s else s)
        (updStep p (fun t => { t with portHeld := [] }) s)) s

/-- FLIT_RETRY: the n-th unacknowledged flit of a virtual channel in one direction of a link is sent again, or one that had been sent once joins them; the
sixteenth failure in a row of one flit takes the link out of service. A credit that returns lets an arrival cross that waited for it. -/
def flitRetry (at_ : Pos) (south back : Bool) (vc : Fin 4) (nth : Nat) (outcome : FlitOutcome) (s : State) : State :=
  let far := if south then at_.val + 12 else at_.val + 1
  let (a, b) := if back then (far, at_.val) else (at_.val, far)
  let k := dirKey a b
  if !(linksAt at_.val).contains (at_.val, south) || s.wafer.linksOut.contains (at_.val, south) then s
  else
    match outcome with
    | .acknowledged => heldArrivals { s with wafer := { s.wafer with dirs := s.wafer.dirs.update k {} (LinkDir.acknowledged vc nth) } }
    | .failed received =>
      if (((s.wafer.dirs.getD k {}).unacknowledged vc nth).elim 0 (·.retries)) + 1 < 16 then
        { s with wafer := { s.wafer with dirs := s.wafer.dirs.update k {} (LinkDir.failed vc nth) } }
      else linkFails at_.val south a b received s

def execFlitRetry (at_ : Pos) (south back : Bool) (vc : Fin 4) (nth : Nat) (outcome : FlitOutcome) (s : State) : Out :=
  done s (flitRetry at_ south back vc nth outcome)

/-- SIGNALs of the host that waited at the local port (R285). -/
def heldSignals (s : State) : State :=
  (List.finRange 9).foldl (fun s f =>
    match (s.fnr f.val).pending with
    | some (.signal c v m x) =>
      (match markHostSignal c v m x none f s with
      | .ok s _ fwd => setupDone f.val stDone (forwardSetup fwd s)
      | .fail st => setupDone f.val st s
      | .failIn st s => setupDone f.val st s
      | .wait _ _ => s)
    | _ => s) s

/-- Arrivals at gang marks, and releases, that waited at their local ports (R285). -/
def heldGangs (s : State) : State :=
  let s := s.parts.keys.foldl (fun s p =>
    match s.stepOf p with
    | none => s
    | some t =>
      match (s.ctx t.ctx.val).bind (·.gang) with
      | some k =>
        if t.phase = .gangWait && !(s.mark k.val).waiters.any (fun w => w.ctx == t.ctx && decide (w.mode = .gang) && w.ended.isNone) then
          gangArrive k.val t.ctx s
        else s
      | none => s) s
  s.marks.keys.foldl (fun s k => if (s.mark k).kind = .gang then gangCheck k s else s) s

/-- What the routers of a barrier's tree have combined, by new tables: the clusters whose arrivals stand count again over their routes, so that none is
lost with the old tree (R285, R294). -/
def recombine (s : State) : State :=
  s.parts.foldl (fun s (p, q) => updStep p (fun t =>
    let tree := arrivalTree s p q
    { t with combined := (tree.flatMap (fun x => x.2.dropLast)).eraseDups.filter (fun a => tree.all (fun x => !x.2.contains a || t.arrived.contains x.1)) }) s) s

/-- New tables for the links in service are installed, waiting packets go on by their new routes, and local ports accept again. -/
def installRoutes (s : State) : State :=
  let s := { s with wafer := { s.wafer with
      routesFor := s.wafer.linksOut, stopped := false
      longRoutes := routesTooLong s.wafer.linksOut s.wafer.routersOut } }
  heldSignals (heldGangs (heldArrivals (admitMessages (recombine { s with net := { s.net with
    fabric := s.net.fabric ++ s.net.stuck.filter (fun m => m.fresh s), stuck := [] } }))))

/-- ROUTE_CHANGE: where the links in service have changed, the routes change. -/
def execRouteChange (s : State) : Out :=
  done s (onlyIf (s.wafer.routesFor ≠ s.wafer.linksOut || s.wafer.stopped) installRoutes)

end Sys2Proof.Machine
end

