-- ==== Sys2Proof/Machine/Repair.lean ====
section
/-! DEFINITION. Targeted self-tests, their outcomes and the repairs that follow; the exchange of a retired cluster; a cluster lost
during a run (R16, R20 to R23, R33, R34, R92, R94, R110, R112, R159, R312, R316, R329, R389 to R398, R409, R410).
Rests on the log entries (notes/assumptions/<n>.md) 38 (DEDUCED), 43 (DEDUCED), 44 (DEDUCED), 58 (DESIGN CHOICE), 60 (DEDUCED). -/
namespace Sys2Proof.Machine

/-! ### Partitions that wait (R34, R379) -/

/-- The partition of a unit's site, for a unit of a compute die. -/
def partOfUnit (s : State) (u : UnitRef) : Option Nat :=
  match unitDie u with
  | some d => if d < 100 && u.unit ≠ 0x03 && u.unit ≠ 0x0C then partOf s (s.logicalAt d) else none
  | none => none

/-! ### Failing a step at once (R110, R397) -/

/-- The step of a partition fails and ends: what is in flight elsewhere ends as R110 gives, and its context halts. -/
def abortStep (status : Byte) (p : Nat) (s : State) : State :=
  match s.stepOf p with
  | none => s
  | some t =>
    if t.phase = .compared || t.phase = .ended then s
    else
      let s := failStep status p s
      let (st, op) := ((s.stepOf p).bind (·.failed)).getD (status, BitVec.ofNat 32 t.op)
      episodeEnds t.ctx.val (endStep st op p (updStep p (fun t => { t with fetched := none, held := none }) (outliveWaits t s)))

/-! ### Repairs (R390) -/

/-- A phase is off (R350); a seventh takes the site dark and retires its cluster (R351). -/
def phaseOff (source cause : Byte) (i phase : Nat) (s : State) : State :=
  let s := updSite i (fun r => { r with phasesOff := if r.phasesOff.contains phase then r.phasesOff else r.phasesOff ++ [phase] }) s
  if (s.site i).phasesOff.length < 7 then s else (retireCluster source cause (s.logicalAt i) s).2

/-- A cluster goes out of service at once, by the loss of what feeds it: a step of its partition fails, and the cluster is retired. -/
def clusterOut (source cause : Byte) (n : Nat) (s : State) : State :=
  let s := match partOf s n with
    | some p => abortStep stChecksum p s
    | none => s
  (retireCluster source cause n s).2

/-- The pages of the channels that a loss has taken out are lost (R16, R323). -/
def channelsGone (before s : State) : State :=
  ((List.range 48).filter (fun c => decide ((before.chan c).state ≠ .fault) && decide ((s.chan c).state = .fault))).foldl (fun s c => loseChannel c s) s

/-- A wire of a group fails: the spare takes its place, and a second failed wire loses the group, with the outcome of what
it carries (R16). -/
def wireFail (source : Byte) (u : UnitRef) (s : State) : State :=
  let (lost, t) := wireFails u s
  if !lost then t
  else if u.unit = 0x02 then
    match unitDie u with
    | some d => if d < 100 then clusterOut source 0x0C (s.logicalAt d) t else channelsGone s t
    | none => t
  else
    match Config.seamCarries u.a.toNat u.b.toNat with
    | .sense i _ =>
      if !((t.site i).primaryOpen && (t.site i).duplicateOpen) then note .sensePair i 0 t
      else if (t.site i).bothOpen then t
      else clusterOut source 0x0C (t.logicalAt i) (updSite i (fun r => { r with bothOpen := true }) t)
    | .link _ _ => t
    | .path _ _ => t
    | .coupling _ _ => t

/-- Two marked devices lie on one subchannel (R312). -/
def twoMarked (l : List Nat) : Bool := (List.range 4).any (fun k => decide (2 ≤ count l (fun d => d / 16 == k)))

/-- A DIMM device marked against its bay; a second one on a subchannel takes the channel out of service (R312). -/
def markDevice (ch device : Nat) (s : State) : State :=
  let l := (s.chan ch).marks
  if l.contains device then s
  else
    let s := updChan ch (fun r => { r with marks := l ++ [device] }) s
    let s := note .deviceMarked ch device { s with log := { s.log with deviceMarks := s.log.deviceMarks.put ch (l ++ [device]) } }
    if twoMarked (l ++ [device]) then requestTakeOut ch s else s

/-- A lasting outcome of a unit without a chart code (R390). -/
def noChart (cls : Byte) (u : UnitRef) (s : State) : State :=
  { s with log := { s.log with noChartLasting := if s.log.noChartLasting.contains (cls, u) then s.log.noChartLasting else s.log.noChartLasting ++ [(cls, u)] } }

/-- The compute site of a fabric position. -/
def posCompute (pos : Nat) : Option Nat :=
  let x := pos % 12
  let y := pos / 12
  if 1 ≤ x && x ≤ 10 && 1 ≤ y && y ≤ 10 then some (10 * (y - 1) + (x - 1)) else none

/-- A node out of lock: its router goes with every link of the position; at a compute site the cluster is retired and the segment
mapped out (R329). -/
def nodeLost (source : Byte) (pos : Nat) (s : State) : W32 × State :=
  if s.wafer.nodesOut.contains pos then (0, s)
  else
    let s := { s with wafer := { s.wafer with nodesOut := s.wafer.nodesOut ++ [pos], routersOut := union s.wafer.routersOut [pos], stopped := true } }
    let s := (linksAt pos).foldl (fun s l => linkOut l.1 l.2 s) s
    let s := note .nodeState pos 1 s
    match posCompute pos with
    | none => (0, s)
    | some i =>
      let n := s.logicalAt i
      segmentOut source 0x10 n (retireCluster source 0x10 n s).2

/-- A ring die that has failed for good: entries for what it serves (R390, class 0x14). -/
def dieRepair (source : Byte) (d : Nat) (s : State) : W32 × State :=
  let s := channelsGone s (ringDieLost d s)
  match dieKind d with
  | 1 =>
    let k := (memoryDies.findIdx? (· == d)).getD 0
    (dieChans k).foldl (fun x c => chartWrite source (chanUnit c) 0x02 0x14 x.2) (0, s)
  | 3 => chartWrite source (bareUnit 0x0F ((consortDies.findIdx? (· == d)).getD 0) 0xFF) 0x02 0x14 s
  | 4 => chartWrite source (bareUnit 0x0D (if d = 105 then 0 else 1) 0) 0x07 0x14 s
  | 5 => chartWrite source (bareUnit 0x0E (if d = 108 then 0 else 1) 0) 0x07 0x14 s
  | _ => (0, s)

/-- The last chart entry that retired a cluster's site, for a repair already made at detection. -/
def lastEntryFor (s : State) (u : UnitRef) : W32 :=
  ((s.build.chart.filter (fun e => e.unit.x == u.x && e.unit.y == u.y)).getLast?).elim 0 (·.seqNo)

/-- A row mapped, its entry written where a spare was left. -/
def rowMapped (source cls : Byte) (m : StoreRef) (row : Nat) (s : State) : W32 × State :=
  let u := rowUnit s m row
  let (ok, s) := mapRow source cls m row s
  if ok then chartWrite source u 0x01 cls s else (lastEntryFor s u, s)

/-- A memory row mapped for good (R151, R390): one that an uncorrectable error has mapped in the field already keeps its mapping. A spare that
fails serves no row, and gives up the one that it has. -/
def rowRepair (source cls : Byte) (m : StoreRef) (row : Nat) (s : State) : W32 × State :=
  match spareNamed m row with
  | some k =>
    match (s.store m).remap.find? (fun e => e.2 == k && sameSpares m e.1 row) with
    | some e => rowMapped source cls m e.1 s
    | none => (0, updStore m (fun r => { r with badFree := if r.badFree.contains (row, k) then r.badFree else r.badFree ++ [(row, k)] }) s)
  | none =>
    if source = 0x03 && (cls = 0x05 || cls = 0x07) && (s.store m).remap.any (fun e => e.1 == row) then
      chartWrite source (rowUnit s m row) 0x01 cls s
    else rowMapped source cls m row s

/-- The memory and row that a chart unit names. -/
def storeOfUnit (s : State) (u : UnitRef) : Option (StoreRef × Nat) :=
  match unitDie u with
  | none => none
  | some d =>
    let n := s.logicalAt d
    if h : n < 100 then
      if u.unit = 0x03 then some (.segment ⟨n, h⟩, u.c.toNat)
      else if h2 : u.unit = 0x04 ∧ u.a.toNat < 7 then some (.core ⟨n, h⟩ ⟨u.a.toNat, h2.2⟩, 64 * u.c.toNat + u.b.toNat)
      else if h2 : u.unit = 0x05 ∧ u.a.toNat < 4 ∧ u.b.toNat < 4 then some (.accumulator ⟨n, h⟩ ⟨u.a.toNat, h2.2.1⟩ ⟨u.b.toNat, h2.2.2⟩, u.c.toNat)
      else none
    else none

/-- The cluster at a unit's site retired. -/
def retireAt (source cls : Byte) (u : UnitRef) (s : State) : W32 × State :=
  match unitDie u with
  | some d => if d < 100 then retireCluster source cls (s.logicalAt d) s else (0, s)
  | none => (0, s)

/-- A channel that a repair maps out serves yet: it leaves by the procedure of R323 first. -/
def leaving (s : State) (ch : Nat) : Bool := decide ((s.chan ch).state = .inService) || decide ((s.chan ch).state = .takingOut)

/-- A channel asked out of service, its repair to be written once it has gone (R20). -/
def takeOutFor (d : RepairDue) (s : State) : State :=
  requestTakeOut d.chan { s with errs := { s.errs with due := s.errs.due ++ [d] } }

/-- The repair after a lasting outcome, and the SEQ_NO of the entry written. A second failed wire of a group has an entry as the first has,
ACTION 0x01, though the group is lost by it: R390 names no other (DESIGN CHOICE: notes/assumptions/58.md). A field loop whose test has located
no failing group has nothing to repair, nor has an error of a store that names no row (DESIGN CHOICE: notes/assumptions/58.md). -/
def repair (source cls : Byte) (u : UnitRef) (s : State) : W32 × State :=
  let site := (unitDie u).getD 0
  match cls.toNat with
  | 0x01 =>
    if u.unit = 0x06 || u.unit = 0x07 then substitute source cls (s.logicalAt site) u.a.toNat u.b.toNat (u.unit == 0x07) u.c.toNat s
    else retireAt source cls u s
  | 0x02 => retireAt source cls u s
  | 0x03 =>
    if u.unit = 0x08 then retireAt source cls u s
    else (0, noChart cls u { s with errs := { s.errs with seqCopyOff := true } })
  | 0x04 | 0x05 | 0x06 | 0x07 =>
    match storeOfUnit s u with
    | some (m, row) => rowRepair source cls m row s
    | none => (0, s)
  | 0x08 | 0x09 => (0, noChart cls u (markDevice (12 * u.a.toNat + u.b.toNat) u.c.toNat s))
  | 0x0A =>
    let ch := 12 * u.a.toNat + u.b.toNat
    if leaving s ch then (0, takeOutFor { chan := ch, source := source } s)
    else chartWrite source (chanUnit ch) 0x02 cls (updChan ch (fun r => { r with state := .fault }) s)
  | 0x0B => chartWrite source u 0x03 cls (linkOut (unitPos u) (u.a == 1) s)
  | 0x0C => chartWrite source u 0x01 cls (wireFail source u s)
  | 0x0D => chartWrite source u 0x06 cls (phaseOff source 0x0E site u.a.toNat s)
  | 0x0E => let r := retireAt source cls u s; (if r.1 = 0 then lastEntryFor s u else r.1, r.2)
  | 0x0F => retireAt source cls u s
  | 0x10 => let r := nodeLost source (unitPos u) s; (if r.1 = 0 then lastEntryFor s u else r.1, r.2)
  | 0x11 => (0, noChart cls u { s with reck := { s.reck with faulty := union s.reck.faulty [unitPos u] } })
  | 0x12 => chartWrite source u 0x02 cls (portMappedOut u s)
  | 0x13 => if u.unit = 0x02 then chartWrite source u 0x01 cls (wireFail source u s) else (0, noChart cls u (note .hostPort u.a.toNat 0 s))
  | 0x14 => dieRepair source site s
  | 0x15 =>
    if u.unit = 0x01 then chartWrite source u 0x01 cls (wireFail source u s)
    else if unitDie u = none then (0, s)
    else if site < 100 then (let r := retireAt source cls u s; (if r.1 = 0 then lastEntryFor s u else r.1, r.2))
    else dieRepair source site s
  | _ => (0, s)

/-- A bond group of its memory die that a channel's signals use is lost (R16). -/
def bondOut (s : State) (c : Nat) : Bool :=
  s.wafer.wires.any (fun e => decide (2 ≤ e.2.length) && decide (2 ^ 33 ≤ e.1) && decide ((e.1 - 2 ^ 33) / 2 ^ 16 = chanDie c)
    && bit (Config.bondChannels (chanDie c) ((e.1 - 2 ^ 33) % 2 ^ 16)) (c % 4))

/-- A channel with an enabled bay that the start may bring into service: not out by the chart or for this power cycle, its memory die
working, its bay neither blue nor disabled. -/
def chanUsable (s : State) (c : Nat) : Bool :=
  chanEnabled s c && !(s.build.chart ++ s.build.volatile).any (fun e => e.unit == chanUnit c) && !s.life.abandoned.contains (200 + c)
    && !(s.die (chanDie c)).failed && !bondOut s c && decide ((s.bay c).state ≠ .safe)

/-- A channel that went out of service by an error of its own, its bay not touched, may serve again: its DIMM is seated and mapped out, and
nothing else keeps the channel out. -/
def channelMayReturn (s : State) (c : Nat) : Bool :=
  decide ((s.chan c).state = .fault) && decide ((s.bay c).state = .mappedOut) && (s.bay c).present && chanUsable s c && !(s.chan c).heatOut
    && !twoMarked (s.chan c).marks

/-- A channel serves again, its DIMM zeroed; its blocks restore shortfalls first. -/
def channelBack (c : Nat) (s : State) : State :=
  let s := dimmClear (c * 2 ^ 38) (2 ^ 38) s
  restoreShortfalls (updBay c (fun b => { b with state := .inService })
    (updChan c (fun r => { r with state := .inService, trained := true }) { s with dimmBad := s.dimmBad.filter (fun w => w / 2 ^ 32 ≠ c) }))

/-- A channel returns to service: its take-out for the error is given up where it still serves and no other cause of it stands, and where it has
stopped it serves again (R392). -/
def channelReturns (c : Nat) (s : State) : State :=
  if leaving s c then
    if (s.chan c).heatOut || twoMarked (s.chan c).marks || s.errs.due.any (fun d => d.chan == c) then s
    else if (s.bay c).state = .queued || (s.bay c).state = .migrating then
      { s with dimmWork := { s.dimmWork with forced := s.dimmWork.forced.filter (· ≠ c) } }
    else updChan c (fun r => { r with state := .inService }) { s with dimmWork := { s.dimmWork with
        requests := s.dimmWork.requests.filter (· ≠ c), forced := s.dimmWork.forced.filter (· ≠ c)
        active := if s.dimmWork.active = some c then none else s.dimmWork.active } }
  else if channelMayReturn s c then channelBack c s
  else s

/-- A ring die whose self-check has passed serves again: its channels with a DIMM seated, its port, its firmware or its copy. -/
def dieReturns (d : Nat) (s : State) : State :=
  let s := updDie d (fun r => { r with failed := false }) s
  match dieKind d with
  | 1 =>
    (dieChans ((memoryDies.findIdx? (· == d)).getD 0)).foldl (fun s c => if channelMayReturn s c then channelBack c s else s) s
  | 3 => updPort ((consortDies.findIdx? (· == d)).getD 0) (fun r => { r with mapped := false, training := true }) s
  | 4 =>
    if d = 105 then { s with mgmt := { s.mgmt with sv0 := { s.mgmt.sv0 with works := true }, graceNo := none } }
    else { s with mgmt := { s.mgmt with sv1 := { s.mgmt.sv1 with works := true }, graceNo := none } }
  | 5 => if d = 108 then { s with flash0 := { s.flash1 with works := true } } else { s with flash1 := { s.flash0 with works := true } }
  | _ => s

/-- A link that a node's loss took out is kept out by nothing else: no entry or test of its own, no lost seam group, no other node. -/
def linkMayReturn (s : State) (l : Nat × Bool) : Bool :=
  !(s.build.chart ++ s.build.volatile).any (fun e => e.unit.unit == 0x0B && unitPos e.unit == l.1 && (e.unit.a == 1) == l.2)
    && !s.errs.tests.any (fun t => t.cls == 0x0B && unitPos t.unit == l.1 && (t.unit.a == 1) == l.2)
    && !s.wafer.wires.any (fun e => decide (2 ≤ e.2.length) && decide (e.1 < 2 ^ 33) &&
        decide (Config.seamCarries ((e.1 - 2 ^ 32) / 2 ^ 16) ((e.1 - 2 ^ 32) % 2 ^ 16) = .link l.1 l.2))
    && !s.wafer.routersOut.contains l.1 && !s.wafer.routersOut.contains (if l.2 then l.1 + 12 else l.1 + 1)

/-- A node that is in lock again: its router serves, with the links that nothing else keeps out, by the procedure of R285. -/
def nodeReturns (pos : Nat) (s : State) : State :=
  if s.wafer.nodesOut.contains pos then
    let s := note .nodeState pos 0 { s with wafer := { s.wafer with
      nodesOut := s.wafer.nodesOut.filter (· ≠ pos), routersOut := s.wafer.routersOut.filter (· ≠ pos), stopped := true } }
    let back := (linksAt pos).filter (linkMayReturn s)
    { s with wafer := { s.wafer with linksOut := s.wafer.linksOut.filter (fun l => !back.contains l) } }
  else s

/-- POWER_LIMIT of a site (R27). -/
def powerLimit (s : State) (i : Nat) : Nat :=
  match s.build.record with
  | some r => (r.limits.getD i ⟨0, 24⟩).power.toNat
  | none => 0

/-- The power a site may be allotted with its phases off (R29, R351). -/
def allotment (s : State) (i : Nat) : Nat := powerLimit s i * (24 - (s.site i).phasesOff.length) / 24

/-- A unit returns to service after an outcome that is not lasting (R392): a link by the procedure of R285, a port or its failed lanes by training
once more. -/
def backToService (cls : Byte) (u : UnitRef) (s : State) : State :=
  match cls.toNat with
  | 0x0A => channelReturns (12 * u.a.toNat + u.b.toNat) s
  | 0x0B =>
    if s.wafer.linksOut.contains (unitPos u, u.a == 1) then
      { s with wafer := { s.wafer with linksOut := s.wafer.linksOut.filter (· ≠ (unitPos u, u.a == 1)), stopped := true } }
    else s
  | 0x0C => { s with wafer := { s.wafer with wires := (s.wafer.wires.modify (groupKey u) (·.filter (· ≠ groupWire u))).filter (fun e => !e.2.isEmpty) } }
  | 0x0D =>
    let i := (unitDie u).getD 0
    let s := updSite i (fun r => { r with phasesOff := r.phasesOff.filter (· ≠ u.a.toNat) }) s
    updSite i (fun r => { r with powerW := r.powerW.map (fun _ => allotment s i) }) s
  | 0x10 => nodeReturns (unitPos u) s
  | 0x11 =>
    let s := setDrift (unitPos u) 0 s
    { s with reck := { s.reck with faulty := s.reck.faulty.filter (· ≠ unitPos u) } }
  | 0x12 => updPort u.a.toNat (fun r => if r.mapped || 8 ≤ r.lanes then r else { r with training := true }) s
  | 0x14 => dieReturns ((unitDie u).getD 122) s
  | _ => s

/-! ### Outcomes (R391 to R395) -/

def lifeWindow : Nat := 86400

/-- An earlier inconclusive outcome of the unit for the class, within a day of module lifetime. -/
def inconclusiveBefore (s : State) (cls : Byte) (u : UnitRef) : Bool :=
  s.log.occurrences.any (fun o => !o.transient && o.cls == cls && o.unit == u && decide (s.reck.lifeSec ≤ o.lifeSec + lifeWindow))

/-- Eight earlier transient outcomes of the unit within a day: this one is the ninth. -/
def ninthTransient (s : State) (u : UnitRef) : Bool :=
  decide (8 ≤ count s.log.occurrences (fun o => o.transient && o.unit == u && decide (s.reck.lifeSec ≤ o.lifeSec + lifeWindow)))

def occurrence (cls : Byte) (u : UnitRef) (transient : Bool) (s : State) : State :=
  { s with log := { s.log with occurrences := s.log.occurrences ++ [⟨u, cls, transient, s.reck.lifeSec⟩] } }

/-- The counters of R399 for the die that holds a unit. -/
def countUnit (u : UnitRef) (f : DieCounters → DieCounters) (s : State) : State :=
  match unitHome u with
  | some d => updCounters d f s
  | none => s

/-- The entries of a test's unit: a capture entry that the test has read is zeroed (R159). -/
def clearCapture (cls : Byte) (u : UnitRef) (s : State) : State :=
  if cls = 0x01 then
    match unitDie u with
    | some d => updCore (s.logicalAt d) u.a.toNat (fun c => { c with capture := none }) s
    | none => s
  else s

/-- A test leaves the queue and its partition waits no longer for it. -/
def testOver (t : TestRec) (s : State) : State :=
  let s := { s with errs := { s.errs with tests := s.errs.tests.filter (fun x => x.detectNo ≠ t.detectNo) } }
  s.parts.keys.foldl (fun s p => releasePart p t.detectNo.toNat s) s

/-- A row or column of an array that a test has located: its substitution, which waits until no operation is in flight on the cluster (R92). -/
def locatedSub (source : Byte) (u : UnitRef) (test : Option (TestRec × Byte)) (s : State) : State :=
  fieldSubstitute (s.logicalAt ((unitDie u).getD 0))
    { core := u.a.toNat, array := u.b.toNat, column := u.unit == 0x07, index := u.c.toNat, source := source, test := test } s

/-- A unit is a row or column of an array. -/
def isLine (cls : Byte) (u : UnitRef) : Bool := cls == 0x01 && (u.unit == 0x06 || u.unit == 0x07)

/-- A lasting outcome: the repair, its entry, and the record, which follow once a channel has gone and a substitution is made. -/
def lasting (source : Byte) (t : TestRec) (code : Byte) (u : UnitRef) (s : State) : State :=
  let ch := 12 * u.a.toNat + u.b.toNat
  let s := countUnit t.unit (fun c => { c with testLasting := satAdd c.testLasting 1 }) s
  if t.cls = 0x0A && leaving s ch then takeOutFor { chan := ch, source := source, test := some ({ t with unit := u }, code) } s
  else if isLine t.cls u then locatedSub source u (some ({ t with unit := u }, code)) s
  else
    let (no, s) := repair source t.cls u s
    outcomeRecord { t with unit := u } code no s

/-- A lasting outcome that has not located the fault within the test's unit. An uncorrectable burst names no device: the enclosing channel goes out
of service (R391). -/
def lastingWhole (source : Byte) (t : TestRec) (code : Byte) (s : State) : State :=
  if t.cls = 0x09 then
    let s := countUnit t.unit (fun c => { c with testLasting := satAdd c.testLasting 1 }) s
    outcomeRecord t code 0 (requestTakeOut (12 * t.unit.a.toNat + t.unit.b.toNat) s)
  else lasting source t code t.unit s

/-- The repair of a further unit that a test has located. -/
def repairAlso (source cls : Byte) (u : UnitRef) (s : State) : State :=
  if isLine cls u then locatedSub source u none s else (repair source cls u s).2

/-- An inconclusive outcome. -/
def inconclusive (t : TestRec) (s : State) : State :=
  let s := countUnit t.unit (fun c => { c with testInconclusive := satAdd c.testInconclusive 1 }) (occurrence t.cls t.unit false s)
  outcomeRecord t 0x03 0 (backToService t.cls t.unit s)

/-- A cluster whose digests differed, and whose test found nothing lasting, is no ground for a hand-over (R453). -/
def noDiffer (t : TestRec) (s : State) : State :=
  match unitDie t.unit with
  | some i => { s with pair := { s.pair with differ := s.pair.differ.filter (· ≠ s.logicalAt i) } }
  | none => s

/-- The capture entry of a test's M-core. -/
def captureOf (t : TestRec) (s : State) : Option Capture := (unitDie t.unit).bind (fun d => (s.core (s.logicalAt d) t.unit.a.toNat).capture)

/-- What a targeted self-test of the field finds, read by its class. Class 0x01 is its replays alone, read by R112: with no entry left there is
nothing to replay, and the test has not run to its end. No other class replays, and none but 0x01 ends with no fault (R391). -/
def fieldFinding (t : TestRec) (f : TestFinding) (s : State) : TestFinding :=
  match f with
  | .replayed own sibling isolated =>
    match captureOf t s with
    | some e => if t.cls = 0x01 then replayFinding t.unit e own sibling isolated else .notReproduced false
    | none => .notReproduced false
  | .sameOnBoth => .notReproduced false
  | .located _ _ => if t.cls = 0x01 then .notReproduced false else f
  | .unlocated => if t.cls = 0x01 then .notReproduced false else f
  | .notReproduced ranToEnd => .notReproduced (ranToEnd && t.cls != 0x01)

/-- A test ends with what it found: lasting when it reproduced the error, when the repair was made at detection, or by R393. -/
def conclude (source : Byte) (t : TestRec) (f : TestFinding) (s : State) : State :=
  let s0 := s
  let s := clearCapture t.cls t.unit (testOver t s)
  let byHistory := inconclusiveBefore s0 t.cls t.unit
  match f with
  | .replayed _ _ _ => noDiffer t (inconclusive t s)
  | .located u others => others.foldl (fun s v => repairAlso source t.cls v s) (lasting source t 0x02 u s)
  | .unlocated => lastingWhole source t 0x02 s
  | .notReproduced ranToEnd =>
    if t.applied then lastingWhole source t 0x02 s
    else if byHistory then lastingWhole source t 0x05 s
    else if ranToEnd && !t.doubt then
      if ninthTransient s0 t.unit then lastingWhole source t 0x05 s
      else
        let s := countUnit t.unit (fun c => { c with testTransient := satAdd c.testTransient 1 }) (occurrence t.cls t.unit true s)
        noDiffer t (outcomeRecord t 0x01 0 (backToService t.cls t.unit s))
    else noDiffer t (inconclusive t s)
  | .sameOnBoth =>
    if byHistory then lastingWhole source t 0x05 s
    else noDiffer t <| outcomeRecord t 0x04 0 (countUnit t.unit (fun c => { c with csNoFault := satAdd c.csNoFault 1 }) s)

/-- A reset that covers a unit cuts its test short, with an inconclusive outcome (R394, R424). -/
def cutShort (covers : TestRec → Bool) (s : State) : State :=
  (s.errs.tests.filter covers).foldl (fun s t => inconclusive t (clearCapture t.cls t.unit (testOver t s))) s

/-- A test covers a unit that the cluster of a compute site holds: a store's row, an array's row or column, or the cluster itself; a segment, link,
node or phase at its position is none of the cluster's (R394). -/
def TestRec.atSite (i : Nat) (t : TestRec) : Bool :=
  unitDie t.unit == some i && decide (0x04 ≤ t.unit.unit.toNat) && decide (t.unit.unit.toNat ≤ 0x08)

/-! ### The test itself (R389, R390) -/

/-- A unit has no operation in flight. -/
def unitIdle (s : State) (t : TestRec) : Bool :=
  match partOfUnit s t.unit with
  | some p => match s.stepOf p with
    | some st => st.current.isNone || st.done
    | none => true
  | none => true

/-- TARGETED_SELFTEST_START: the unit has no operation in flight; its partition begins no other step until the test ends. -/
def selftestStart (no : W32) (s : State) : State :=
  match s.errs.tests.find? (fun t => t.detectNo == no) with
  | none => s
  | some t =>
    if t.started || !unitIdle s t then s
    else
      let s := { s with errs := { s.errs with tests := s.errs.tests.map (fun x => if x.detectNo = no then { x with started := true } else x) } }
      let s := countUnit t.unit (fun c => { c with testRun := satAdd c.testRun 1 }) s
      let s := if t.cls = 0x01 then (match unitDie t.unit with
        | some d => updCore (s.logicalAt d) t.unit.a.toNat (fun c => { c with capture := c.capture.map (fun k => { k with readBy := true }) }) s
        | none => s) else s
      match partOfUnit s t.unit with
      | some p => holdPart p no.toNat s
      | none => s

def execTargetedSelftestStart (detectNo : W32) (s : State) : Out := done s (selftestStart detectNo)

/-- SELFTEST_OUTCOME: a started test ends. -/
def selftestOutcome (no : W32) (f : TestFinding) (s : State) : State :=
  match s.errs.tests.find? (fun t => t.detectNo == no) with
  | none => s
  | some t => if t.started then plannedTakeover s (conclude 0x03 t (fieldFinding t f s) s) else s

def execSelftestOutcome (detectNo : W32) (f : TestFinding) (s : State) : Out := done s (selftestOutcome detectNo f)

/-! ### Start-up findings (R409, R410) -/

/-- A unit is out of service for this power cycle, as an entry for it would have it at a start, with none written. -/
def outThisCycle (cls : Byte) (u : UnitRef) (s : State) : State :=
  let e : ChartEntry := ⟨0, 0, 0x02, u, 0x01, cls, true⟩
  applyEntry e { s with build := { s.build with volatile := s.build.volatile ++ [e] } }

/-- The cluster of a unit's site is out for this power cycle. -/
def siteAbandoned (u : UnitRef) (s : State) : State :=
  match unitDie u with
  | some d =>
    let s := { s with life := { s.life with abandoned := s.life.abandoned ++ [d] } }
    if d < 100 then siteDark d (updSite d (fun r => { r with lost := true }) s) else s
  | none => s

/-- A unit out of service for this power cycle (R410): a wire group by two of its wires (a compute die's bond group and what cannot be done without
takes the cluster), a memory's row and an array's line by a spare, a node by its position, a DIMM device by its channel; the others by themselves. -/
def unitAbandoned (cls : Byte) (u : UnitRef) (s : State) : State :=
  let computeDie := (unitDie u).any (fun d => decide (d < 100))
  match u.unit.toNat with
  | 0x00 =>
    if cls = 0x10 then
      let pos := unitPos u
      let s := { s with wafer := { s.wafer with nodesOut := union s.wafer.nodesOut [pos], routersOut := union s.wafer.routersOut [pos] } }
      let s := (linksAt pos).foldl (fun s l => linkOut l.1 l.2 s) s
      if computeDie then siteAbandoned u (outThisCycle cls { u with unit := 0x0C, a := 0, b := 0, c := 0 } s) else s
    else siteAbandoned u s
  | 0x01 => outThisCycle cls { u with c := 1 } (outThisCycle cls { u with c := 0 } s)
  | 0x02 =>
    let s := outThisCycle cls { u with b := 1 } (outThisCycle cls { u with b := 0 } s)
    if computeDie then siteAbandoned u s else s
  | 0x03 => rowAbandoned s
  | 0x04 => rowAbandoned s
  | 0x05 => rowAbandoned s
  | 0x06 => lineAbandoned s
  | 0x07 => lineAbandoned s
  | 0x08 => siteAbandoned u s
  | 0x0A =>
    let ch := 12 * u.a.toNat + u.b.toNat
    channelOut ch { s with life := { s.life with abandoned := s.life.abandoned ++ [200 + ch] } }
  | _ => outThisCycle cls u s
where
  rowAbandoned (s : State) : State :=
    match storeOfUnit s u with
    | none => s
    | some (m, row) =>
      if (nextSpare s m row).isSome then outThisCycle cls u s
      else if u.unit = 0x03 then outThisCycle cls { u with unit := 0x0C, a := 0, b := 0, c := 0 } s
      else siteAbandoned u s
  lineAbandoned (s : State) : State :=
    let r := s.array (s.logicalAt ((unitDie u).getD 0)) u.a.toNat u.b.toNat
    if (if u.unit = 0x07 then r.spareCol else r.spareRow).isSome then siteAbandoned u s else outThisCycle cls u s

/-- What a start-up test found of one unit; a detection record without an outcome that the unit holds is the one concluded (R394). -/
def startupFinding (source : Byte) (f : StartupFinding) (s : State) : State :=
  let old := s.errs.tests.find? (fun t => t.unit == f.unit && t.cls == f.cls)
  let t : TestRec := old.getD { detectNo := s.errs.nextNo, cls := f.cls, unit := f.unit }
  let s := match old with
    | some t => testOver t s
    | none => recordEvent { no := 0, kind := 1, cls := f.cls, outcome := 0, unit := f.unit, time := 0, lifeSec := 0 } s
  match f.result with
  | .failedTwice =>
    let (seq, s) := repair source f.cls f.unit s
    outcomeRecord t 0x02 seq (countUnit f.unit (fun c => { c with testLasting := satAdd c.testLasting 1 }) s)
  | .failedOnce =>
    if inconclusiveBefore s f.cls f.unit then
      let (seq, s) := repair source f.cls f.unit s
      outcomeRecord t 0x05 seq (countUnit f.unit (fun c => { c with testLasting := satAdd c.testLasting 1 }) s)
    else
      outcomeRecord t 0x03 0 (countUnit f.unit (fun c => { c with testInconclusive := satAdd c.testInconclusive 1 }) (occurrence f.cls f.unit false s))
  | .untested =>
    outcomeRecord t 0x03 0 (countUnit f.unit (fun c => { c with testInconclusive := satAdd c.testInconclusive 1 })
      (unitAbandoned f.cls f.unit (occurrence f.cls f.unit false s)))

/-! ### Exchange (R33, R34, R398, R519) -/

/-- The places of two logical numbers in a table exchanged. -/
def Tab.swap {α : Type} (t : Tab α) (i j : Nat) : Tab α :=
  let a := t.find i
  let b := t.find j
  let t := (t.drop i).drop j
  let t := match b with
    | some x => t.put i x
    | none => t
  match a with
  | some x => t.put j x
  | none => t

/-- The two numbers' sites are exchanged in the map; what belongs to the hardware at the sites goes with them, and the contents of
the segments stay at their logical addresses. A site whose segment is mapped out may be the replacement: the mapped-out segment goes to the other
number with it, and no context is halted for that (R33; DESIGN CHOICE: notes/assumptions/58.md). -/
def exchangeMap (n m : Nat) (s : State) : State :=
  let swapIn (l : List Nat) : List Nat := l.map (fun x => if x = n then m else if x = m then n else x)
  let keys := (List.range 7).map (fun k => (n * 7 + k, m * 7 + k)) ++ (List.range 16).map (fun k => (1000 + n * 16 + k, 1000 + m * 16 + k))
    ++ [(3000 + n, 3000 + m)]
  { s with
    build := { s.build with
      map := (s.build.map.set n (s.siteOf m)).set m (s.siteOf n)
      segmentsOut := swapIn s.build.segmentsOut
      exchanges := s.build.exchanges.filter (fun e => e.n ≠ n) }
    clusters := s.clusters.swap n m
    stores := keys.foldl (fun t e => t.swap e.1 e.2) s.stores }

/-- A partition has no operation in flight. -/
def partIdle (s : State) (p : Nat) : Bool :=
  match s.stepOf p with
  | some t => t.current.isNone
  | none => true

/-- The exchange of a retired cluster and its replacement, once no operation of its partition is in flight. -/
def segmentExchange (n : Nat) (s : State) : State :=
  match s.build.exchanges.find? (fun e => e.n == n) with
  | none => s
  | some e =>
    let p := partOf s n
    if !(match p with
      | some p => partIdle s p
      | none => true) then s
    else
      let s := exchangeMap e.n e.m s
      match p with
      | none => s
      | some p =>
        let s := releasePart p (exchangeHold n) s
        let s := if !darkState s && sitePlaced s (s.siteOf n) then requestSite (s.siteOf n) s else s
        s.ctxs.keys.foldl (fun s c => resumeDueCtx c s) s

/-! ### A cluster lost during a run (R396, R397) -/

/-- The cluster of a site that has gone dark is lost: the step fails with CHECKSUM_MISMATCH, the error is recorded, and the cluster
is retired and replaced; the test of a class whose repair is made at detection can only find it lasting (R391). -/
def clusterGone (n : Nat) (cls : Byte) (s : State) : State :=
  let i := s.siteOf n
  let u := clusterUnit s 0x08 n 0xFF 0 0
  let p := partOf s n
  let met := match p with
    | some p => stepMet s p stChecksum
    | none => {}
  let had := s.errs.nextNo
  let s := detect cls u met (updSite i (fun r => { r with lost := true }) s)
  let s := { s with errs := { s.errs with tests := s.errs.tests.map (fun t =>
      if t.detectNo = had && (cls = 0x0E || cls = 0x15) then { t with applied := true } else t) } }
  let s := match p with
    | some p => abortStep stChecksum p (match s.stepOf p with
        | some _ => updCounters i (fun c => { c with hwStepFails := satAdd c.hwStepFails 1 }) s
        | none => s)
    | none => s
  (retireCluster 0x03 cls n s).2

/-- CLUSTER_LOST: a site has gone dark, or its port reads down, while a step of its partition runs; a switch-off for heat or a trip
(class 0x0F) is no such loss. -/
def clusterLost (c : Cluster) (cls : Byte) (s : State) : State :=
  match (partOf s c.val).bind s.stepOf with
  | none => s
  | some _ => if cls = 0x0F || (s.site (s.siteOf c.val)).retired then s else plannedTakeover s (clusterGone c.val cls s)

def execClusterLost (c : Cluster) (cls : Byte) (s : State) : Out := done s (clusterLost c cls)

end Sys2Proof.Machine
end

