-- ==== Sys2Proof/Machine/PairOps.lean ====
section
/-! DEFINITION. What Bus Master Enable releases (R256).
Rests on the log entries (notes/assumptions/<n>.md) 31 (DEDUCED). -/
namespace Sys2Proof.Machine

/-! ### What Bus Master Enable releases (R256) -/

/-- A set-up command whose block has been read: its evaluation. -/
def setupEval (i : Instr) : Option (SetupHdr × (State → SetupEnd)) :=
  match i with
  | .partCreate h p g => some (h, partCreate p g h.fn)
  | .partDestroy h p => some (h, partDestroy p h.fn)
  | .ctxCreate h c p f q => some (h, ctxCreate c p f q h.fn)
  | .ctxDestroy h c => some (h, ctxDestroy c h.fn)
  | .ctxConfig h b => some (h, ctxConfig b h.fn)
  | .granuleGrant h c g => some (h, granuleGrant c g h.fn)
  | .granuleReturn h c g => some (h, granuleReturn c g h.fn)
  | .ringCreate h b => some (h, ringCreate b h.fn)
  | .ringDestroy h k r => some (h, ringDestroy k r h.fn)
  | .setupReserved h _ => some (h, fun _ => .fail stConfig)
  | .markCreate h c v k t x p => some (h, markCreate c v k t x p h.fn)
  | .markShare h c v o w => some (h, markShare c v o w h.fn)
  | .markUnmap h c v => some (h, markUnmap c v h.fn)
  | .markHostSignal h c v m x e => some (h, markHostSignal c v m x e h.fn)
  | .markInspect h c v e => some (h, markInspect c v e h.fn)
  | .lookoutSet h c v ms => some (h, lookoutSet c v ms h.fn)
  | .lookoutRead h c v => some (h, lookoutRead c v h.fn)
  | .gangJoin h c v => some (h, gangJoin c v h.fn)
  | .gangLeave h c v => some (h, gangLeave c v h.fn)
  | .markMapReservedOp h _ => some (h, fun _ => .fail stConfig)
  | _ => none

/-- PART_CREATE waits while firmware is activated (R507). -/
def partCreateWaits (i : Instr) (s : State) : Bool :=
  match i with
  | .partCreate _ _ _ => decide (s.update.phase ≠ .idle)
  | _ => false

/-- The set-up command that a function holds unread is carried out once it may be. -/
def runUnread (f : Nat) (s : State) : State :=
  match (s.fnr f).unread with
  | none => s
  | some i =>
    if !(s.fnr f).bme || partCreateWaits i s then s
    else
      let s := updFn f (fun r => { r with unread := none }) s
      match setupEval i with
      | some (h, eval) => setupRun h eval s
      | none => s

/-- BUS_MASTER_ENABLE_SET: records and status-block writes held for the function go out, its set-up command is read, and steps whose
records waited end. -/
def busMasterEnableSet (f : Fn) (s : State) : State :=
  if !s.link.up || (s.fnr f.val).bme then s
  else
    let held := (s.fnr f.val).held
    let s := updFn f.val (fun r => { r with bme := true, held := [] }) s
    closeEnded (runUnread f.val { s with hostOut := s.hostOut ++ held })

def execBusMasterEnableSet (fn : Fn) (s : State) : Out := done s (busMasterEnableSet fn)

end Sys2Proof.Machine
end

