-- ==== Sys2Proof/Machine/Resets.lean ====
section
/-! DEFINITION. Resets below the module: contexts, clusters, memory and Consort dies, partitions; the resume of a halted context; and the
exchange of R33 that resets wait for (R206, R254, R258, R259, R273, R300, R316, R398, R415 to R424).
Rests on the log entries (notes/assumptions/<n>.md) 38 (DEDUCED), 42 (DEDUCED). -/
namespace Sys2Proof.Machine

/-! ### Steps that a reset stops (R417, R418) -/

/-- OP_INDEX of an aborted step: the operation that runs, none where none was issued. -/
def abortOp (t : Step) : W32 := if t.current.isSome then BitVec.ofNat 32 t.op else 0xFFFFFFFF

/-- A running step is stopped by a reset: it issues nothing more and will end with ABORTED. -/
def stopStep (p : Nat) (s : State) : State :=
  updStep p (fun t =>
    if t.phase = .compared || t.phase = .ended then t
    else { t with failed := some (stAborted, abortOp t), fetched := none, held := none }) s

/-- A stopped step ends with ABORTED: its record goes out, its sequence changes are undone. -/
def endAborted (p : Nat) (s : State) : State :=
  match s.stepOf p with
  | none => s
  | some t =>
    if t.phase = .ended then s
    else
      let (st, op) := (t.failed).getD (stAborted, abortOp t)
      endStep st op p s

/-- Every unread descriptor of a context is discarded without a record, the consumer index set to the producer index (R273). -/
def discardUnread (c : CtxId) (s : State) : State :=
  (s.sq.select (fun _ q => q.ctx == c)).foldl (fun s (n, q) =>
    let t := { s with sq := s.sq.put n { q with cons := q.prod, begun := none, step := none, waitsFor := [] } }
    if q.cons = q.prod then t else emit q.fn.val (.index q.fn q.wb q.prod) t) s

/-- The transfers of a context that run are stopped at the boundary they have reached: ABORTED, with the bytes moved (R417). -/
def abortTransfers (c : CtxId) (s : State) : State :=
  (s.sq.select (fun _ q => q.ctx == c)).foldl (fun s (n, q) =>
    match q.moving, q.begun with
    | some m, some index => endTransfer n m index stAborted m.moved s
    | _, _ => s) s

/-- An exchange is pending for a partition. -/
def partExchanging (s : State) (q : Partition) : Bool := s.build.exchanges.any (fun e => q.groups.contains (e.n / 12))

/-- The end of a context reset (R418): ABORTED records, sequences undone, core stores zeroed, unread descriptors discarded, waits that were still on
their way removed (R300), the halt cleared. While the records of its step cannot be written, the reset is not complete. -/
def finishReset (c : CtxId) (s : State) : State :=
  let s := match runningStep s c.val with
    | some (p, _) => endAborted p s
    | none => s
  if (runningStep s c.val).isSome then s
  else
    match s.ctx c.val with
    | none => s
    | some k =>
      let s := match s.part k.part.val with
        | some q => if q.step.isNone then q.clusters.foldl (fun s n => zeroCluster n s) s else s
        | none => s
      let s := dropWaits c (discardUnread c (abortTransfers c s))
      let dead := match s.part k.part.val with
        | some q => partUnmapped s q
        | none => false
      episodeEnds c.val (updCtx c.val (fun k => { k with
        halted := dead, resumeDue := false, reset := .none, pairHold := false, stuck := [] }) s)

/-! ### Context reset and resume (R259, R273, R418, R419) -/

/-- A context of a partition that a function reaches through the partition's registers. -/
def partCtx (s : State) (f : Fn) (p : PartId) (c : Nat) : Option Context :=
  if f.val ≠ 0 && f.val ≠ p.val + 1 then none
  else (s.ctx c).bind (fun k => if k.part = p then some k else none)

/-- A context reset begins: nothing more is fetched or issued for the context, and its registered waits are removed. -/
def startCtxReset (c : CtxId) (s : State) : State :=
  let s := dropWaits c (updCtx c.val (fun k => { k with reset := .draining }) s)
  match runningStep s c.val with
  | some (p, _) => stopStep p s
  | none => s

/-- PART_CTX_RESET: a write with the right key. -/
def partCtxReset (f : Fn) (p : PartId) (v : W32) (s : State) : State :=
  if !s.link.up || v.toNat / 256 ≠ 0x435458 then s
  else
    let c := v.toNat % 64
    match partCtx s f p c with
    | none => s
    | some k => if k.reset ≠ .none then s else startCtxReset (asCtx c) s

def execPartCtxReset (fn : Fn) (p : PartId) (value : W32) (s : State) : Out := done s (partCtxReset fn p value)

/-- CTX_RESET_COMPLETE: the drain has finished, and no exchange of the partition is pending. -/
def ctxResetComplete (c : CtxId) (s : State) : State :=
  match s.ctx c.val with
  | none => s
  | some k =>
    if k.reset ≠ .draining || (match s.part k.part.val with
      | some q => partExchanging s q
      | none => false) then s
    else finishReset c s

def execCtxResetComplete (c : CtxId) (s : State) : Out := done s (ctxResetComplete c)

/-- CTX_RESET_DRAIN_TIMEOUT: the context stays halted with its step, and the clusters that have not arrived are reported. -/
def ctxResetDrainTimeout (c : CtxId) (s : State) : State :=
  match s.ctx c.val, runningStep s c.val with
  | some k, some (p, t) =>
    if k.reset ≠ .draining then s
    else
      let stuck := match s.part p with
        | some q => if t.current.isSome then q.clusters.filter (fun n => !t.arrived.contains n) else []
        | none => []
      let s := updCtx c.val (fun k => { k with reset := .undrained, stuck := stuck }) s
      let s := if k.halted then s else haltCtx c.val s
      stuck.foldl (fun s n => note .undrained c.val n s) s
  | _, _ => s

def execCtxResetDrainTimeout (c : CtxId) (s : State) : Out := done s (ctxResetDrainTimeout c)

/-- PART_CTX_RESUME: a halt is cleared, or the resume waits for an exchange or a restore; it is ignored while the context is being
reset, and a context of a partition with an unmapped cluster stays halted (R397). -/
def partCtxResume (f : Fn) (p : PartId) (v : W32) (s : State) : State :=
  if !s.link.up then s
  else
    let c := v.toNat % 64
    match partCtx s f p c, s.part p.val with
    | some k, some q =>
      if k.reset ≠ .none || !k.halted || partUnmapped s q then s
      else if k.waitsFor || partExchanging s q then updCtx c (fun k => { k with resumeDue := true }) s
      else resumeCtx c s
    | _, _ => s

def execPartCtxResume (fn : Fn) (p : PartId) (value : W32) (s : State) : Out := done s (partCtxResume fn p value)

/-! ### Cluster engine reset (R258, R417, R420, R424) -/

/-- What a reset's fixed-pattern test found of the cluster: a second failure retires it, with the class of the failing unit. -/
def engineFinding (n : Nat) (f : StartupFinding) (s : State) : State :=
  let no := s.errs.nextNo
  let t : TestRec := { detectNo := no, cls := f.cls, unit := f.unit }
  let s := recordEvent { no := 0, kind := 1, cls := f.cls, outcome := 0, unit := f.unit, time := 0, lifeSec := 0 } s
  let retire (code : Byte) (s : State) : State :=
    let (seq, s) := retireCluster 0x03 f.cls n s
    outcomeRecord t code seq (countUnit f.unit (fun c => { c with testLasting := satAdd c.testLasting 1 }) s)
  match f.result with
  | .failedTwice => retire 0x02 s
  | _ =>
    if inconclusiveBefore s f.cls f.unit then retire 0x05 s
    else outcomeRecord t 0x03 0 (countUnit f.unit (fun c => { c with testInconclusive := satAdd c.testInconclusive 1 }) (occurrence f.cls f.unit false s))

/-- The state of a partition after its clusters have been tested: failed with an unmapped cluster, its contexts halted until they are
destroyed; resetting while an exchange is pending; otherwise ready. -/
def partAfterReset (p : Nat) (s : State) : State :=
  match s.part p with
  | none => s
  | some q =>
    if partUnmapped s q then failPart p s
    else if partExchanging s q then updPart p (fun q => { q with state := .resetting }) s
    else if q.state = .resetting then updPart p (fun q => { q with state := .ready }) s
    else s

/-- A cluster's clock is stopped, its stores and buffers zeroed, its S-core firmware reloaded from logical segment 96 (R420). -/
def zeroForReset (n : Nat) (s : State) : State :=
  let s := zeroCluster n (cutShort (TestRec.atSite (s.siteOf n)) s)
  updDie (s.siteOf n) (fun d => { d with active := s.update.seg96.find 2 }) s

/-- The running step of a reset cluster's partition ends with ABORTED and its context halts. A reset of the context that has not drained ends once
every cluster that held it up has been reset (R419); one that drains yet ends at once. -/
def clusterStops (n p : Nat) (t : Step) (s : State) : State :=
  match s.ctx t.ctx.val with
  | none => endAborted p (stopStep p (dropWaits t.ctx s))
  | some k =>
    match k.reset with
    | .none => episodeEnds t.ctx.val (haltCtx t.ctx.val (endAborted p (stopStep p (dropWaits t.ctx s))))
    | .draining => finishReset t.ctx (stopStep p s)
    | .undrained =>
      let left := k.stuck.filter (· ≠ n)
      if left.isEmpty then finishReset t.ctx (stopStep p s) else updCtx t.ctx.val (fun k => { k with stuck := left }) s

/-- A cluster engine reset: PART_STATE reads resetting until it ends (R420). -/
def clusterReset (n : Nat) (fs : List StartupFinding) (s : State) : State :=
  if (s.site (s.siteOf n)).power ≠ .on then s
  else
    let p := partOf s n
    let s := match p with
      | some p => updPart p (fun q => if q.state = .ready then { q with state := .resetting } else q) s
      | none => s
    let s := zeroForReset n s
    let s := match p.bind (fun p => (s.stepOf p).map (fun t => (p, t))) with
      | none => s
      | some (p, t) => clusterStops n p t s
    let s := fs.foldl (fun s f => engineFinding n f s) s
    match p with
    | some p => partAfterReset p s
    | none => s

/-- A reset of a cluster or a partition waits for an exchange of its partition (R424). -/
def waitsForExchange (p : Option Nat) (s : State) : Bool :=
  match p.bind s.part with
  | some q => partExchanging s q
  | none => false

/-- A reset covers another of the same rung and scope, or one of a cluster of its partition (R424). -/
def resetCovers (s : State) (i j : Instr) : Bool :=
  match i, j with
  | .clusterEngineReset _ n _, .clusterEngineReset _ m _ => n == m
  | .memoryDieEngineReset _ n _ _, .memoryDieEngineReset _ m _ _ => n == m
  | .consortDieEngineReset _ n, .consortDieEngineReset _ m => n == m
  | .partReset _ p _ _, .partReset _ q _ _ => p == q
  | .partReset _ p _ _, .clusterEngineReset _ n _ => partOf s n.toNat == some p.val
  | _, _ => false

/-- A reset waits for an exchange: one that a waiting reset covers is absorbed or ignored, and it takes the place of those that it covers. -/
def waitReset (i : Instr) (s : State) : State :=
  let w := s.life.resetsWait
  if w.any (fun j => resetCovers s j i) then s
  else { s with life := { s.life with resetsWait := w.filter (fun j => !resetCovers s i j) ++ [i] } }

/-- A write of HIF_ENGINE_RESET through the PF, with an index in range. -/
def engineWrite (f : Fn) (index limit : Nat) (s : State) : Bool := s.link.up && f.val == 0 && decide (index < limit)

def clusterEngineReset (f : Fn) (index : Byte) (fs : List StartupFinding) (s : State) : State :=
  if !engineWrite f index.toNat 100 s then s
  else if waitsForExchange (partOf s index.toNat) s then waitReset (.clusterEngineReset f index fs) s
  else plannedTakeover s (clusterReset index.toNat fs s)

def execClusterEngineReset (fn : Fn) (index : Byte) (findings : List StartupFinding) (s : State) : Out :=
  done s (clusterEngineReset fn index findings)

/-! ### Memory-die engine reset (R258, R316, R417, R421) -/

/-- The running operation of a partition has a DIMM access outstanding on a die's channels: KV_APPEND, ATTN_DECODE or ATTN_PREFILL, on a page
there. -/
def dimmOutstanding (s : State) (k p : Nat) : Bool :=
  match readyOp s p (fun d => isOp 0x0C d || isOp 0x0D d || isOp 0x0E d) with
  | none => false
  | some e => (pagesTouched e).any (fun g => (dieChans k).any (fun c => (pagesOn s c).contains (e.t.ctx.val, g)))

/-- Steps with a DIMM access outstanding on a die's channels fail with ABORTED, and their contexts halt. -/
def abortDimmSteps (k : Nat) (s : State) : State :=
  s.parts.keys.foldl (fun s p =>
    match s.stepOf p with
    | none => s
    | some t => if dimmOutstanding s k p then haltCtx t.ctx.val (endAborted p (stopStep p (outliveWaits t s))) else s) s

/-- A channel that failed to train or verify stays out of service for the power cycle; a loopback that fails too is lasting, and one that passes names
the DIMM (R316). -/
def channelFails (source : Byte) (ch : Nat) (loopback : Bool) (s : State) : State :=
  let s := loseChannel ch s
  let s := forgetChannel ch (updChan ch (fun r => { r with state := .fault, trained := false })
    { s with life := { s.life with abandoned := s.life.abandoned ++ [200 + ch] } })
  let s := updBay ch (fun b => if b.present then { bayOut b with state := if b.state = .queued || b.state = .migrating then .faulted else .mappedOut } else b) s
  if loopback then
    let no := s.errs.nextNo
    let t : TestRec := { detectNo := no, cls := 0x0A, unit := chanUnit ch }
    let s := recordEvent { no := 0, kind := 1, cls := 0x0A, outcome := 0, unit := chanUnit ch, time := 0, lifeSec := 0 } s
    let (seq, s) := chartWrite source (chanUnit ch) 0x02 0x0A s
    outcomeRecord t 0x02 seq s
  else note .dimmBlamed ch 0 s

/-- The pages of a die's channels are lost, with what was on the DIMMs (R196, R421). -/
def loseDie (k : Nat) (s : State) : State :=
  (dieChans k).foldl (fun s c =>
    let s := (pagesOn s c).foldl (fun s (x, p) => losePage x p s) s
    dimmClear (c * 2 ^ 38) (2 ^ 38) s) s

/-- MEMORY_DIE_ENGINE_RESET: the die is asked for self-refresh; when it acknowledges, the contents are kept and its channels verify
their training. It waits while an exchange is pending (R424). -/
def memoryDieReset (f : Fn) (index : Byte) (ack : Bool) (fails : List (Chan × Bool)) (s : State) : State :=
  if !engineWrite f index.toNat 12 s then s
  else if !s.build.exchanges.isEmpty then waitReset (.memoryDieEngineReset f index ack fails) s
  else
    let k := index.toNat
    let s := abortDimmSteps k s
    if !ack then { s with dimmWork := { s.dimmWork with asked := union s.dimmWork.asked [k] } }
    else
      let s := (fails.filter (fun x => (dieChans k).contains x.1.val)).foldl (fun s x => channelFails 0x03 x.1.val x.2 s) s
      raise 0 evStatus s

def execMemoryDieEngineReset (fn : Fn) (index : Byte) (acknowledged : Bool) (verifyFails : List (Chan × Bool)) (s : State) : Out :=
  done s (memoryDieReset fn index acknowledged verifyFails)

/-- SELF_REFRESH_ACK_TIMEOUT: a die that was asked has not acknowledged within 1 ms. -/
def selfRefreshAckTimeout (die : Fin 12) (s : State) : State :=
  if !s.dimmWork.asked.contains die.val then s
  else raise 0 evStatus (loseDie die.val { s with dimmWork := { s.dimmWork with asked := s.dimmWork.asked.filter (· ≠ die.val) } })

def execSelfRefreshAckTimeout (die : Fin 12) (s : State) : Out := done s (selfRefreshAckTimeout die)

/-! ### Consort-die engine reset (R422) -/

/-- CONSORT_DIE_ENGINE_RESET: the port goes down, to train again; it waits while an exchange is pending (R424). -/
def consortDieReset (f : Fn) (index : Byte) (s : State) : State :=
  if !engineWrite f index.toNat 4 s then s
  else if !s.build.exchanges.isEmpty then waitReset (.consortDieEngineReset f index) s
  else portFalls index.toNat s

def execConsortDieEngineReset (fn : Fn) (index : Byte) (s : State) : Out := done s (consortDieReset fn index)

/-! ### Partition reset (R259, R423, R424) -/

/-- Every cluster and context of a partition reset. -/
def partitionReset (p : Nat) (fs : List StartupFinding) (s : State) : State :=
  match s.part p with
  | none => s
  | some q =>
    let s := updPart p (fun q => { q with state := .resetting }) s
    let s := match s.stepOf p with
      | some t => endAborted p (stopStep p (dropWaits t.ctx s))
      | none => s
    let s := q.clusters.foldl (fun s n => if (s.site (s.siteOf n)).power = .on then zeroForReset n s else s) s
    let s := { s with marks := s.marks.drop (barrierMark s p) }
    let s := (s.ctxs.select (fun _ k => k.part.val == p)).keys.foldl (fun s c =>
      finishReset (asCtx c) (dropWaits (asCtx c) (updCtx c (fun k => { k with reset := .draining }) s))) s
    let s := fs.foldl (fun s f => match unitDie f.unit with
      | some d => if q.clusters.contains (s.logicalAt d) then engineFinding (s.logicalAt d) f s else s
      | none => s) s
    partAfterReset p s

def partReset (f : Fn) (p : PartId) (v : W32) (fs : List StartupFinding) (s : State) : State :=
  if !s.link.up || v ≠ 0x50525354 || (f.val ≠ 0 && f.val ≠ p.val + 1) || !partExists s p.val then s
  else if waitsForExchange (some p.val) s then waitReset (.partReset f p v fs) s
  else plannedTakeover s (partitionReset p.val fs s)

def execPartReset (fn : Fn) (p : PartId) (value : W32) (findings : List StartupFinding) (s : State) : Out :=
  done s (partReset fn p value findings)

/-! ### The exchange of a retired cluster (R33, R34, R398, R424) -/

/-- A reset that has waited for an exchange runs. -/
def runReset (i : Instr) (s : State) : State :=
  match i with
  | .clusterEngineReset f n fs => clusterEngineReset f n fs s
  | .partReset f p v fs => partReset f p v fs s
  | .memoryDieEngineReset f n ack fails => memoryDieReset f n ack fails s
  | .consortDieEngineReset f n => consortDieReset f n s
  | _ => s

/-- SEGMENT_EXCHANGE: the exchange, and then what waited for it: the partition's state, resumes and resets. -/
def exchangeEnds (n : Nat) (s : State) : State :=
  if !s.build.exchanges.any (fun e => e.n == n) then s
  else
    let p := partOf s n
    let s := segmentExchange n s
    if s.build.exchanges.any (fun e => e.n == n) then s
    else
      let s := match p with
        | some p => partAfterReset p s
        | none => s
      let w := s.life.resetsWait
      w.foldl (fun s i => runReset i s) { s with life := { s.life with resetsWait := [] } }

def execSegmentExchange (n : Cluster) (s : State) : Out := done s (exchangeEnds n.val)

end Sys2Proof.Machine
end

