-- ==== Sys2Proof/Machine/Link.lean ====
section
/-! DEFINITION. The PCIe link, resets of functions, register writes and the PTM registers (R252, R255 to R258, R280, R281, R344, R345,
R405).
Rests on the log entries (notes/assumptions/<n>.md) 25 (DESIGN CHOICE), 38 (DEDUCED), 61 (PRESUMED). -/
namespace Sys2Proof.Machine

/-! ### The link (R280, R405) -/

/-- The link is below × 16 or below 128 GT/s. -/
def HostLink.narrow (l : HostLink) : Bool := l.up && (decide (l.width < 16) || decide (l.speed < 7))

/-- The link has trained at a width and speed of R251, no wider than the host die's lanes leave (R16): what HIF_LINK shows changes, and a link that retrains narrower is an error of class
0x13. -/
def linkTrain (width speed : Nat) (flit : Bool) (s : State) : State :=
  let l := s.link
  let width := min width (hostWidth l.lanesOut)
  if !([1, 2, 4, 8, 16].contains width && decide (1 ≤ speed) && decide (speed ≤ 7)) then s else
  let n : HostLink := { l with up := true, width := width, speed := speed, flit := flit || decide (6 ≤ speed), training := false }
  if n = l then s
  else
    let s := note .linkState width speed (raise 0 evLink { s with link := n })
    if l.up && (decide (width < l.width) || decide (speed < l.speed)) then detect 0x13 (dieUnit 0x00 hostDie 0 0 0) {} s else s

/-- LINK_TRAINED: once PERST_N is deasserted and the wire-group stage has ended. -/
def linkTrained (width speed : Nat) (flit : Bool) (s : State) : State :=
  if !s.life.stageDone10 || s.life.perstOn || (s.die hostDie).failed then s else linkTrain width speed flit s

def execLinkTrained (width speed : Nat) (flit : Bool) (s : State) : Out := done s (linkTrained width speed flit)

/-- PERST_DEASSERT: the host die may train its link. -/
def execPerstDeassert (s : State) : Out :=
  .next { s with life := { s.life with perstOn := false }, link := { s.link with training := s.life.stageDone10 } }

/-! ### Functions reset (R256, R281) -/

/-- Steps of a function's rings that have not sent their record: undone, and their record discarded with the rings. -/
def failUnreported (f : Nat) (s : State) : State :=
  s.parts.keys.foldl (fun s p =>
    match s.stepOf p with
    | none => s
    | some t =>
      match s.sq.find t.ring.val with
      | some q =>
        if q.fn.val = f then
          let x := s.sq
          let s := closeStep stAborted (abortOp t) p (keepEngine p (outliveWaits t { s with sq := s.sq.drop t.ring.val }))
          { s with sq := x }
        else s
      | none => s) s

/-- The rings of a function that records go to, destroyed. -/
def destroyRecordRings (f : Nat) (s : State) : State :=
  { s with cq := s.cq.filter (fun e => e.2.fn.val ≠ f), tq := s.tq.filter (fun e => e.2.fn.val ≠ f) }

/-- The submission rings of a function destroyed. -/
def destroySubmission (f : Nat) (s : State) : State := { s with sq := s.sq.filter (fun e => e.2.fn.val ≠ f) }

/-- The contexts of a function: the PF's are all, a VF's those of its partition (R254). -/
def ctxsOf (s : State) (f : Nat) : List Nat := (s.ctxs.select (fun _ k => f == 0 || k.part.val + 1 == f)).keys

/-- The function's status-block setting goes, its MSI-X table returns to its reset state, and what waits for Bus Master Enable is discarded,
an unread set-up command with it (R256, R281; DEDUCED: notes/assumptions/38.md). -/
def resetFn (f : Nat) (s : State) : State :=
  updFn f (fun r => { r with sbLo := 0, sbHi := 0, held := [], unread := none, msixOn := false, msixMask := false, vectors := [], pba := [] }) s

/-- The effects of R281 on some functions: with nothing left to write to, the steps fail, the submission rings go, and the contexts halt. -/
def resetFns (fs : List Nat) (s : State) : State :=
  let s := fs.foldl (fun s f => resetFn f (destroyRecordRings f s)) s
  let s := fs.foldl (fun s f => failUnreported f s) s
  let s := fs.foldl (fun s f => destroySubmission f s) s
  let cs := (fs.flatMap (ctxsOf s)).eraseDups
  cs.foldl (fun s c => haltCtx c s) s

/-- Every function reset, with the result of the last PTM dialogue cleared (R345). -/
def resetAllFns (s : State) : State :=
  resetFns (List.range 9) { s with link := { s.link with ptmValid := false, ptmOpen := none } }

/-- The link goes down, as a surprise link-down: what HIF_LINK shows changes, and Advanced Error Reporting has it
(R257, R281; PRESUMED: notes/assumptions/61.md). -/
def linkDown (s : State) : State :=
  let s := resetAllFns { s with link := { s.link with up := false, width := 0, speed := 0, flit := false } }
  raise 0 evLink (updFn 0 (fun r => { r with reports := { r.reports with uncorrectable := r.reports.uncorrectable ||| 0x20 } }) s)

/-- A ring die has failed (R16): what it serves goes out of service, the operations that read pages of a memory die's channels fail, and the link of
the host die goes down. -/
def ringDieGone (d : Nat) (s : State) : State :=
  let u := ringDieLost d s
  match dieKind d with
  | 1 =>
    let k := (memoryDies.findIdx? (· == d)).getD 0
    channelsGone s (ringDieLost d ((dieChans k).foldl (fun s c => failReaders (pagesOn s c) s) s))
  | 2 => if u.link.up then linkDown u else u
  | _ => u

def execSurpriseLinkDown (s : State) : Out := done s (onlyIf s.link.up linkDown)

/-- PERST_ASSERT: as a surprise link-down on every function. -/
def perstAssert (s : State) : State :=
  let s := { s with life := { s.life with perstOn := true } }
  if s.link.up then linkDown s else s

def execPerstAssert (s : State) : Out := done s perstAssert

/-- FUNCTION_LEVEL_RESET: of the PF, which affects every function, or of one VF. -/
def functionLevelReset (f : Fn) (s : State) : State :=
  if !s.link.up then s else if f.val = 0 then resetAllFns s else resetFns [f.val] s

def execFunctionLevelReset (fn : Fn) (s : State) : Out := done s (functionLevelReset fn)

/-! ### Register writes (R252, R255, R257, R258, R344) -/

/-- The numbers by which REGISTER_WRITE names what is written: BAR0, BAR2, the DVSEC of R344 in PF 0's configuration space, PF 0's PTM Control
register, whose bit 0 is PTM Enable, and of each function its MSI-X table, MSI-X Message Control, Device Control 2, Link Control, Advanced
Error Reporting, the header of its configuration space with its BARs, and PF 0's SR-IOV capability (DESIGN CHOICE: notes/assumptions/25.md). -/
def barRegisters : Nat := 0
def barDoorbells : Nat := 2
def barDvsec : Nat := 15
def barPtm : Nat := 16
def barMsix : Nat := 17
def barMsixControl : Nat := 18
def barDevControl2 : Nat := 19
def barLinkControl : Nat := 20
def barReports : Nat := 21
def barHeader : Nat := 22
def barSriov : Nat := 23

/-- The size of a BAR of a function (R252): 0 for one that it does not have. -/
def barSize (f bar : Nat) : Nat :=
  if bar = barRegisters then (if f = 0 then 0x10000 else 0x4000) else if bar = barDoorbells then 0x100000 else 0

/-- An aligned 32-bit access. -/
def accessOk (offset size : Nat) : Bool := size == 4 && offset % 4 == 0

/-- A write to a register of BAR0 that has no behaviour beyond its fields. -/
def writeBar0 (f : Nat) (offset : Nat) (v : W32) (s : State) : State :=
  match offset with
  | 0x020 => updFn f (fun r => { r with event := r.event &&& ~~~(v.setWidth 6) }) s
  | 0x024 => updFn f (fun r => { r with mask := v.setWidth 6 }) s
  | 0x104 => updFn f (fun r => { r with err := r.err &&& ~~~(v.setWidth 6) }) s
  | 0x108 => updFn f (fun r => { r with sbLo := v &&& 0xFFFFF001 }) s
  | 0x10C => updFn f (fun r => { r with sbHi := v }) s
  | 0x110 => updFn f (fun r => { r with setupLo := v &&& 0xFFFFFFC0 }) s
  | 0x114 => updFn f (fun r => { r with setupHi := v }) s
  | 0x124 => updFn f (fun r => { r with eventVec := v.setWidth 11 }) s
  | _ => s

/-- The low or the high half of a 64-bit register written. -/
def setLo (a : W64) (v : W32) : W64 := (a >>> 32 <<< 32) ||| v.setWidth 64
def setHi (a : W64) (v : W32) : W64 := v.setWidth 64 <<< 32 ||| (a.setWidth 32).setWidth 64

/-- A write to a function's MSI-X table: entry offset / 16, its address, its data or its mask bit (PRESUMED: notes/assumptions/61.md). -/
def writeMsix (f : Fn) (offset : Nat) (v : W32) (s : State) : State :=
  let n := offset / 16
  if vectorsOf f ≤ n then s
  else
    sendPending f.val (updFn f.val (fun r => { r with vectors := r.vectors.update n {} (fun e =>
      if offset % 16 = 0 then { e with addr := setLo e.addr (v &&& 0xFFFFFFFC) }
      else if offset % 16 = 4 then { e with addr := setHi e.addr v }
      else if offset % 16 = 8 then { e with data := v }
      else { e with masked := bit v 0 }) }) s)

/-- The registers of BAR0 and BAR2 from an offset on, low half and high half each: the address bits below the size read 0, the BARs being 64-bit
memory, non-prefetchable (R252; PRESUMED: notes/assumptions/61.md). -/
def writeBars (f first offset : Nat) (v : W32) (bars : Vector W64 2) : Vector W64 2 :=
  let set (k : Fin 2) (bar : Nat) : Vector W64 2 :=
    if (offset - first) % 8 = 0 then bars.set k (setLo bars[k] (v &&& ~~~(BitVec.ofNat 32 (barSize f bar - 1)))) else bars.set k (setHi bars[k] v)
  if offset < first || decide (first + 16 ≤ offset) then bars
  else if offset < first + 8 then set 0 barRegisters else set 1 barDoorbells

/-- Where the BARs stand in a function's header and in the SR-IOV capability (PRESUMED: notes/assumptions/61.md). -/
def headerBars : Nat := 0x10
def sriovBars : Nat := 0x24

/-- A write to the capabilities of a function's configuration space that PCI Express gives (R251; PRESUMED: notes/assumptions/61.md). -/
def writeCapability (f : Nat) (bar offset : Nat) (v : W32) (s : State) : State :=
  let report (g : ErrorReports → ErrorReports) : State := updFn f (fun r => { r with reports := g r.reports }) s
  if bar = barMsixControl && offset = 0 then
    sendPending f (updFn f (fun r => { r with msixOn := bit v 31, msixMask := bit v 30 }) s)
  else if bar = barDevControl2 && offset = 0 then updFn f (fun r => { r with timeout := v.setWidth 4 }) s
  else if bar = barLinkControl && offset = 0 && f = 0 then { s with link := { s.link with aspm := v.setWidth 2 } }
  else if bar = barReports && offset = 0x04 then report (fun r => { r with uncorrectable := r.uncorrectable &&& ~~~v })
  else if bar = barReports && offset = 0x08 then report (fun r => { r with uncorrectableMask := v })
  else if bar = barReports && offset = 0x10 then report (fun r => { r with correctable := r.correctable &&& ~~~v })
  else if bar = barReports && offset = 0x14 then report (fun r => { r with correctableMask := v })
  else if bar = barHeader && f = 0 then updFn 0 (fun r => { r with bars := writeBars 0 headerBars offset v r.bars }) s
  else if bar = barSriov && f = 0 then { s with link := { s.link with vfBars := writeBars 1 sriovBars offset v s.link.vfBars } }
  else s

/-- REGISTER_WRITE: an RW or RW1C register, a refused access, or an offset that ignores writes. -/
def registerWrite (f : Fn) (bar offset size : Nat) (v : W32) (s : State) : State :=
  if !s.link.up then s
  else if bar = barRegisters || bar = barDoorbells then
    if !accessOk offset size then setErr f.val errBadAccess s
    else if bar = barRegisters && decide (offset < barSize f.val bar) then writeBar0 f.val offset v s else s
  else if !accessOk offset size then s
  else if bar = barMsix then writeMsix f offset v s
  else if barMsixControl ≤ bar && decide (bar ≤ barSriov) then writeCapability f.val bar offset v s
  else if f.val ≠ 0 then s
  else if bar = barDvsec && offset = 0x10 then
    (if bit v 1 then { s with link := { s.link with ptmFailed := false } } else s)
  else if bar = barPtm && offset = 0 then { s with link := { s.link with ptmEnable := bit v 0 } }
  else s

def execRegisterWrite (fn : Fn) (bar offset size : Nat) (value : W32) (s : State) : Out := done s (registerWrite fn bar offset size value)

/-! ### PTM (R344, R345) -/

/-- CLK_PTM_CTRL_REQUEST: a write of REQUEST starts one dialogue while PTM Enable is set. -/
def ptmRequest (v : W32) (s : State) : State :=
  if s.link.up && s.link.ptmEnable && bit v 0 && s.link.ptmOpen.isNone then
    { s with link := { s.link with ptmOpen := some (instanceNow s hostPos) } }
  else s

def execClkPtmCtrlRequest (value : W32) (s : State) : Out := .next (ptmRequest value s)

/-- PTM_DIALOGUE: a dialogue, started by the 10 ms timer or by a request, has had its response: the five result registers, then
SEQ. -/
def ptmDialogue (master : W64) (delay : W32) (s : State) : State :=
  if s.link.up && s.link.ptmEnable then
    let sent := s.link.ptmOpen.getD (instanceNow s hostPos)
    { s with link := { s.link with
        ptmHost := master, ptmReck := sent + BitVec.ofNat 64 (4 * delay.toNat), ptmDelay := delay, ptmValid := true
        ptmSeq := s.link.ptmSeq + 1, ptmOpen := none } }
  else s

def execPtmDialogue (masterTime : W64) (delay : W32) (s : State) : Out := .next (ptmDialogue masterTime delay s)

/-- PTM_TIMEOUT: a dialogue had no valid response within 10 ms. -/
def execPtmTimeout (s : State) : Out :=
  .next (if s.link.up && s.link.ptmEnable then { s with link := { s.link with ptmFailed := true, ptmOpen := none } } else s)

/-- CLK_RECK_NOW_LO_READ: the low bits are returned, and the high bits latched. -/
def execClkReckNowLoRead (s : State) : Out :=
  .next (if s.link.up then
      let t := instanceNow s hostPos
      { s with link := { s.link with nowLo := t.setWidth 32, nowHi := (t >>> 32).setWidth 32 } }
    else s)

end Sys2Proof.Machine
end

