-- ==== Sys2Proof/Machine/Clocks.lean ====
section
/-! DEFINITION. References, the Meridian mesh, clock regions, droop alarms and the Reckoner's epochs (R29, R328 to R341, R352, R374).
Rests on the log entries (notes/assumptions/<n>.md) 3 (DESIGN CHOICE), 7 (DESIGN CHOICE), 39 (DEDUCED), 40 (DEDUCED). -/
namespace Sys2Proof.Machine

/-! ### The reference (R328) -/

/-- REFERENCE_LOST: the module's own reference, or the partner's, is lost. -/
def execReferenceLost (partner : Bool) (s : State) : Out :=
  done s (fun s => settleRef { s with power :=
    if partner then { s.power with partnerBad := true } else { s.power with ownBad := true } })

/-- REFERENCE_REGAINED: it is present and good again. -/
def execReferenceRegained (own : Bool) (s : State) : Out :=
  done s (fun s => settleRef { s with power :=
    if own then { s.power with ownBad := (s.die resonatorDie).failed } else { s.power with partnerBad := false } })

/-! ### Nodes (R329) -/

/-- A unit of an error that names a position alone. -/
def posUnit (pos : Nat) : UnitRef := ⟨0x00, xyByte (posSite pos).1, xyByte (posSite pos).2, 0, 0, 0⟩

/-- Detection of an error whose repair is made at once: its test can only find it lasting (R391). -/
def detectApplied (cls : Byte) (u : UnitRef) (m : Met) (s : State) : State :=
  let no := s.errs.nextNo
  let s := detect cls u m s
  { s with errs := { s.errs with tests := s.errs.tests.map (fun t => if t.detectNo = no then { t with applied := true } else t) } }

/-- MERIDIAN_OUT_OF_LOCK: the position's node is out of lock; a step that runs on its cluster fails. -/
def meridianOutOfLock (pos : Nat) (s : State) : State :=
  if s.wafer.nodesOut.contains pos then s
  else
    let p := (posCompute pos).bind (fun i => partOf s (s.logicalAt i))
    let met := match p with
      | some p => stepMet s p stChecksum
      | none => {}
    let t := detect 0x10 (posUnit pos) met s
    let t := match p with
      | some p => abortStep stChecksum p t
      | none => t
    plannedTakeover s (nodeLost 0x03 pos t).2

def execMeridianOutOfLock (at_ : Pos) (s : State) : Out := done s (meridianOutOfLock at_.val)

/-! ### Regions (R29, R331 to R337) -/

/-- CLOCK_LIMIT of a site (R27). -/
def clockLimit (s : State) (i : Nat) : Nat :=
  match s.build.record with
  | some r => (r.limits.getD i ⟨0, 24⟩).clock.toNat
  | none => 24
/-- The highest frequency a region may take: the lowest CLOCK_LIMIT among its powered sites, the targets of the partitions that have one, and what
heat, the cap, slack and a droop hold leave (R29, R331, R359, R370, R372 to R374). -/
def regionCeiling (s : State) (r : Nat) : Nat :=
  let g := s.region r
  let top := match s.build.record with
    | some c => c.maxClock.toNat
    | none => 24
  let lim := ((regionSites r).filter (fun i => decide ((s.site i).power ≠ .dark))).foldl (fun m i => min m (clockLimit s i)) top
  let lim := (s.parts.filter (fun e => (regionSites r).any (fun i => decide ((s.site i).power ≠ .dark) && (e.2.clusters.map s.siteOf).contains i))).foldl
    (fun m e => min m e.2.target) lim
  [g.heatCap, g.capStep, g.slackCap, g.holdAt].foldl (fun m x => match x with
    | some v => min m v
    | none => m) lim

/-- A frequency within the range of R330 and a region's ceiling. -/
def regionFreq (s : State) (r f : Nat) : Nat := max 24 (min f (regionCeiling s r))

/-- A site of a region waits for its power-up or is being powered up. -/
def powersUp (s : State) (r : Nat) : Bool := (regionSites r).any (fun i => (s.site i).requested || decide ((s.site i).power = .admitted))

/-- A region is asked for a frequency: its idle PLL begins to lock, or the request waits for the next change. A pending change keeps its place
before or after the power-ups of the region's sites (R335). The PLLs of a region without a powered site stand still (R338). -/
def askFreq (r f : Nat) (s : State) : State :=
  let f := regionFreq s r f
  if !regionRuns s r then s else
  updRegion r (fun g =>
    if g.stopped then { g with next := some f }
    else { g with want := some f, behind := if g.want.isSome then g.behind else powersUp s r }) s

/-- A region is asked to make room for a site, which is powered up after the change (R29, R356). -/
def makeRoom (r f : Nat) (s : State) : State := updRegion r (fun g => { g with behind := false }) (askFreq r f s)

def execFrequencyChangeRequest (r : Region) (freq : Nat) (s : State) : Out := .next (askFreq r.val freq s)

/-- The VDD_CORE at which a region's monitors show their slack at a new frequency: live readings, so a free value (R373; DESIGN CHOICE:
notes/assumptions/3.md). -/
def liveVdd (s : State) : Nat × State :=
  let (v, s) := takeFree s
  (600 + 5 * (v.toNat % 61), s)

/-- A region has changed its frequency less than 20 µs ago (R335). -/
def changedLately (s : State) (r : Nat) : Bool := (s.region r).changedAt.any (fun t => decide (s.since t < 80000))

/-- REGION_STOP: the idle PLL has locked, no site of the region is being powered up, nor one that asked before, and 20 µs have passed since the last
change. Ahead of a rise in frequency the voltage has been raised. A site that is being powered up stops it to be realigned (R355). -/
def regionStop (r : Nat) (s : State) : State :=
  let g := s.region r
  if g.realign then updRegion r (fun g => { g with stopped := true }) s else
  match g.want with
  | none => s
  | some f =>
    if g.stopped || !regionRuns s r || (regionSites r).any (fun i => decide ((s.site i).power = .admitted) || (g.behind && (s.site i).requested))
        || (decide (f ≠ g.freq) && changedLately s r) then s
    else if g.freq < f then
      let (v, s) := liveVdd s
      updRegion r (fun g => { g with stopped := true, vdd := max g.vdd v }) s
    else updRegion r (fun g => { g with stopped := true }) s

def execRegionStop (r : Region) (s : State) : Out := .next (regionStop r.val s)

/-- A region that has been stopped and realigned at its present frequency: the other PLL drives it, and a change that waits is the next. -/
def realigned (now : W64) (g : RegionRec) : RegionRec :=
  { g with stopped := false, realign := false, pllA := !g.pllA, alignedAt := some now, want := g.next.orElse (fun _ => g.want), next := none }

/-- REGION_RESUME: the clock runs from the other PLL at the frequency asked for, within the limits of the sites that are powered by now
(R29), its cycle count as it was and its crossings realigned (R333, R334); after a fall in frequency the voltage is lowered (R335). -/
def regionResume (r : Nat) (s : State) : State :=
  if (s.region r).realign then (if (s.region r).stopped then updRegion r (realigned s.now) s else s) else
  match (s.region r).want with
  | none => s
  | some f =>
    if (s.region r).stopped then
      let f := regionFreq s r f
      let old := (s.region r).freq
      let s := updRegion r (fun g => { g with
        freq := f, want := g.next, next := none, behind := g.next.isSome && powersUp s r, stopped := false, pllA := !g.pllA, alignedAt := some s.now
        changedAt := if f = old then g.changedAt else some s.now }) s
      if f < old then
        let (v, s) := liveVdd s
        updRegion r (fun g => { g with vdd := min g.vdd v }) s
      else s
    else s

def execRegionResume (r : Region) (s : State) : Out := .next (regionResume r.val s)

/-- GUARD_BAND_BREACH: reported, and the region is realigned by a stop at its present frequency; a router link is realigned, its flits held in the
replay buffers of both directions meanwhile, to be sent again (R283, R333). -/
def guardBandBreach (x : Crossing) (s : State) : State :=
  match x with
  | .region r => note .guardBand r.val 0 (updRegion r.val (fun g => if g.want.isSome || g.stopped then g else { g with want := some g.freq, behind := powersUp s r.val }) s)
  | .link at_ south =>
    let k := 2 * at_.val + (if south then 1 else 0)
    note .guardBand (25 + k) 0 { s with wafer := { s.wafer with realigned := s.wafer.realigned.put k s.now } }

def execGuardBandBreach (x : Crossing) (s : State) : Out := .next (guardBandBreach x s)

/-! ### Droop (R337, R352, R374) -/

/-- The lowest sample of a site's day (R352). -/
def lowestOfDay (i vmin : Nat) (s : State) : State :=
  { s with log := { s.log with vMinDay := s.log.vMinDay.put i (min vmin (s.log.vMinDay.getD i vmin)) } }

/-- The lowest sample of a site's second, with what ran there (R352). -/
def voltageSample (i vmin : Nat) (s : State) : State :=
  let d := s.die i
  let s := lowestOfDay i vmin s
  if d.vMin ≠ 0 && d.vMin ≤ vmin then s
  else
    let t := (partOf s (s.logicalAt i)).bind s.stepOf
    updDie i (fun d => { d with
      vMin := vmin, tMin := dieNow s i, vSet := (s.region (siteRegion i)).vdd
      vCtx := t.elim 0xFF (fun t => BitVec.ofNat 8 t.ctx.val)
      vOp := t.elim 0xFFFFFFFF (fun t => if t.current.isSome then BitVec.ofNat 32 t.op else 0xFFFFFFFF)
      vPhase := t.elim 0 (fun t => t.current.elim 0 (·.phase)) }) s

/-! ### The fields of the die health record (R477) -/

def intNat (i : Int) : Nat := (BitVec.ofInt 64 i).toNat

/-- STATE of a die (R477): in service, dark, retired, disabled, spare or standby and dark. -/
def dieState (s : State) (d : Nat) : Nat :=
  if d < 100 then
    let r := s.site d
    if siteDisabled s d then 3
    else if r.retired || r.lost then 2
    else if r.power = .on then 0
    else if siteSpare s d || decide (placeableLimit s.orderCode ≤ s.logicalAt d) then 4
    else 1
  else if (s.die d).failed then 2
  else if dieKind d = 1 && s.life.power = .sleep then 1
  else if dieKind d = 3 && !portEnabled s ((consortDies.findIdx? (· == d)).getD 0) then 3
  else if s.life.phase = .unpowered && !(dieKind d == 4 || dieKind d == 5 || dieKind d == 6) then 1
  else 0

/-- The die health record's fields after TIME (R477); what only a compute die has reads 0 on another. -/
def dieFields (busy : Byte) (mj : Nat) (d : Nat) (s : State) : List Nat :=
  let r := s.die d
  let own (n : Nat) : Nat := if d < 100 then n else 0
  [(xyByte (dieSite d).1).toNat, (xyByte (dieSite d).2).toNat, dieKind d, dieState s d, intNat r.tempMax, intNat r.tempMin, own r.vSet, own r.vMin
  , own r.tMin.toNat, own r.vCtx.toNat, own r.vPhase.toNat, own r.droops, own r.vOp.toNat, own (24 - (s.site d).phasesOff.length)
  , own (s.region (siteRegion d)).freq, own busy.toNat, r.sensorsOut.length, mj]
    ++ (r.slackSec ++ List.replicate (16 - r.slackSec.length) 0xFF) ++ [r.age0.toNat, own r.age1.toNat, r.ceSecond, r.ueSecond, r.detections]

/-- DROOP_ALARM: the region passes every second edge; a ninth alarm within 1 ms lowers it by one step for 100 ms; a sample more than
60 mV below V_SET is sent with the die's health fields of that moment, at most once each millisecond: the cycles and energy counted of the second so far are free
values (DESIGN CHOICE: notes/assumptions/3.md). Errors of the site within the last microsecond fall near the alarm (R391). -/
def droopAlarm (i vmin : Nat) (s : State) : State :=
  if (s.site i).power ≠ .on then s
  else
    let r := siteRegion i
    let g := s.region r
    let recent := g.alarms.filter (fun t => decide (s.since t < 4000000)) ++ [s.now]
    let s := updRegion r (fun g => { g with halved := true, alarming := union g.alarming [i], alarms := if recent.length ≤ 8 then recent else [] }) s
    let s := if recent.length ≤ 8 then s
      else askFreq r (g.freq - 1) (updRegion r (fun g => { g with holdAt := some (max 24 (g.freq - 1)) }) s)
    let s := updDie i (fun d => { d with droops := d.droops + 1, droopAt := some s.now }) (voltageSample i vmin s)
    let s := { s with errs := { s.errs with tests := s.errs.tests.map (fun t =>
      if unitDie t.unit == some i && decide (s.since t.time ≤ 4000) then { t with doubt := true } else t) } }
    let quiet := match (s.die i).alarmAt with
      | some t => decide (4000000 ≤ s.since t)
      | none => true
    if quiet && decide (vmin + 60 < g.vdd) then
      match h : decide (i < 100) with
      | true =>
        let (b, s) := takeFree s
        let (e, s) := takeFree s
        sendRecord (.voltage ⟨i, of_decide_eq_true h⟩ (dieNow s i) (dieFields (b.setWidth 8) e.toNat i s)) (updDie i (fun d => { d with alarmAt := some s.now }) s)
      | false => s
    else s

def execDroopAlarm (x : SiteId) (vmin : Nat) (s : State) : Out := .next (droopAlarm x.val vmin s)

/-- DROOP_CLEAR: a site's alarm clears; full-rate clocking returns once no site of the region has one. -/
def droopClear (i : Nat) (s : State) : State :=
  updRegion (siteRegion i) (fun g =>
    if g.alarming.contains i then
      let l := g.alarming.filter (· ≠ i)
      { g with alarming := l, halved := !l.isEmpty }
    else g) s

def execDroopClear (x : SiteId) (s : State) : Out := .next (droopClear x.val s)

/-- DROOP_HOLD_END: the region is released. -/
def execDroopHoldEnd (r : Region) (s : State) : Out := .next (updRegion r.val (fun g => { g with holdAt := none }) s)

/-! ### Epochs of the Reckoner (R340) -/

/-- An instance's difference at an epoch: it slews from now on, or, beyond 64 ticks, is faulty. -/
def instanceEpoch (s : State) (pos : Nat) (d : Int) : State :=
  if s.reck.faulty.contains pos then s
  else if d < -64 || d > 64 then
    detect 0x11 (posUnit pos) {} { s with reck := { s.reck with faulty := s.reck.faulty ++ [pos], offset := s.reck.offset.drop pos } }
  else setDrift pos d s

/-- RECKONER_EPOCH: the differences of the instances from the anchor, by position; the follower of a pair measures its offset (R342). -/
def execReckonerEpoch (differences : List Int) (s : State) : Out :=
  done s (fun s => 
    if !s.life.meshLocked then s
    else
      let s := ((differences.take 144).zipIdx).foldl (fun s (d, pos) => instanceEpoch s pos d) s
      if s.pair.formed && !timeLeader s then sendFrame (.timeReq (portNow s)) s else s)

end Sys2Proof.Machine
end

