-- ==== Sys2Proof/Machine/StartOps.lean ====
section
/-! DEFINITION. What takes the whole module down: an input fault, the acceptance of a module reset and the request of a power cycle
(R39, R54, R59, R367, R394, R412 to R414, R424, R425, R454, R485, R486, R503, R507).
Rests on the log entries (notes/assumptions/<n>.md) 19 (DEDUCED), 40 (DEDUCED), 42 (DEDUCED), 43 (DEDUCED). -/
namespace Sys2Proof.Machine

/-- A relay that runs fails (R503). -/
def relayFails (s : State) : State :=
  if s.update.relaying then
    note .relayFailed 0x08 0 { s with update := { s.update with relaying := false, orderWaits := false, dies := [], forwarded := [], requests := [] } }
  else s

/-- A bay's removal or bring-up is abandoned, and a queued or migrating bay is in service (R48, R54). -/
def bayAbandon (r : BayRec) : BayRec := { r with state := if r.state = .queued || r.state = .migrating then .inService else r.state }

/-- The ports go down with the module, and no pair is formed; the epochs, the fence and the settings stay. -/
def losePair (s : State) : State :=
  { s with
    reck := { s.reck with slew := 0, slewTick := 0 }
    pair := { s.pair with
      ports := s.pair.ports.mapVal (fun _ p => { p with lanes := 0, down := true, training := false, sendSeq := 0, recvSeq := 0, replay := [] })
      formed := false, role := .independent, mode := 0, entering := false, partner := none, silent := false, departed := false, alone := false
      held := false, probing := false, partnerRuns := false, partnerMode := 0, partnerRole := 2, log := [], streamOut := [], streamIn := [], early := [], digests := [], theirs := []
      differ := [], starts := [], timeOffset := 0, reserved := [], fwdSteps := [] } }

/-- A module reset is accepted: what happens at its time 0. -/
def acceptReset (s : State) : State :=
  let s := relayFails (cutShort (fun _ => true) (depart 1 s))
  let s := losePair (loseHost (loseWork s))
  { s with
    mgmt := { s.mgmt with console := { s.mgmt.console with unlocked := none } }
    bin := { s.bin with bays := s.bin.bays.mapVal (fun _ r => bayAbandon r), removals := [] }
    build := { s.build with exchanges := [] }
    life := { s.life with
      phase := .warm .sitesDown, ready := false, resetting := true, power := .on, orders := [], resetWaits := false, resetsWait := []
      resetAt := some s.now } }

/-- A module reset is ordered: refused in OFF and without input power, logged and ignored during a start, and waiting during the entry of
a power state and the activation of firmware. -/
def moduleReset (s : State) : State :=
  if starting s || s.life.phase = .unpowered || s.life.power = .off then note .resetRefused 0 0 s
  else if s.life.entering.isSome || s.update.phase ≠ .idle then { s with life := { s.life with resetWaits := true } }
  else acceptReset s

/-- A module reset that has waited for an entry or an activation. -/
def resetThatWaits (s : State) : State :=
  if s.life.resetWaits then moduleReset { s with life := { s.life with resetWaits := false } } else s

/-- A power cycle is requested: the event is sent, then PWR_CYCLE_REQ_N is driven low. -/
def requestCycle (reason : Byte) (s : State) : State :=
  let s := note .cycleRequest reason.toNat 0 (platformEvent .powerCycle reason.toNat (depart 2 s))
  { s with life := { s.life with cycleReason := some reason, cyclePulses := s.life.cyclePulses + 1 } }

/-- A bay without supply: one that shows blue or amber goes on showing it, and another with a DIMM seated is safe to open (R45). -/
def bayUnpowered (r : BayRec) : BayRec :=
  { r with blinks := false, state := match r.state with
      | .safe => .safe
      | .emptied => .safe
      | .faulted => .faulted
      | .rejected => .rejected
      | _ => if r.present then .unpowered else .empty }

/-- A bay as a cold start finds it: unpowered, to be judged afresh (R52). -/
def bayAfresh (r : BayRec) : BayRec := { r with state := if r.present then .unpowered else .empty, blinks := false }

/-- An update whose activation loses power before its commit: the staged bank is kept (R507). -/
def activationLost (u : Update) : Update :=
  { u with phase := .idle, waiting := [], orderWaits := false, relaying := false, dies := [], forwarded := [], requests := [] }

/-- An input fault: the event is reported, every step fails with the power of what it ran on, and all but the always-on domain is
powered down. Tests keep their detection records, and wait for the next start (R394). -/
def inputFails (s : State) : State :=
  let s := platformEvent .inputFault 0 (note .inputFault 0 0 (depart 3 s))
  let s := losePair (powerLost (relayFails s))
  { s with
    life := { s.life with
      inputOk := false, phase := .unpowered, power := .on, entering := none, orders := [], resetWaits := false, resetsWait := [], resetAt := none
      firmware := .none, stageDone10 := false }
    bin := { s.bin with bays := s.bin.bays.mapVal (fun _ r => bayUnpowered r), removals := [], lamp := none }
    errs := { s.errs with tests := s.errs.tests.map (fun t => { t with started := false }) }
    mgmt := { s.mgmt with
      active := none, sv0 := { s.mgmt.sv0 with works := false }, sv1 := { s.mgmt.sv1 with works := false }, sessions := [], console := {}, graceNo := none }
    update := activationLost s.update }

/-! ### Trips (R362) -/

/-- A cover for a cluster of a partition: an enabled, powered cluster that covers no other, nearest first, ties to the lower logical
number (R360). -/
def coverFor (s : State) (q : Partition) (n : Nat) : Option Nat :=
  let home := dieSite (s.siteOf n)
  let busy := q.clusters.filterMap (fun m => (s.site (s.siteOf m)).cover)
  let free := q.clusters.filter (fun m => decide (m ≠ n) && decide ((s.site (s.siteOf m)).power = .on) && !busy.contains m)
  free.foldl (fun b m =>
    match b with
    | none => some m
    | some k => if hops home (dieSite (s.siteOf m)) < hops home (dieSite (s.siteOf k)) then some m else some k) none

/-- A partition's Navigator runs on its lowest-numbered cluster (R117). -/
def hostsNavigator (q : Partition) (n : Nat) : Bool := q.clusters.head? == some n

/-- Clusters whose cover has gone dark are given another. -/
def recover (p : Nat) (n : Nat) (s : State) : State :=
  match s.part p with
  | none => s
  | some q =>
    (q.clusters.filter (fun m => (s.site (s.siteOf m)).cover == some n)).foldl (fun s m =>
      let s := updSite (s.siteOf m) (fun r => { r with cover := none }) s
      updSite (s.siteOf m) (fun r => { r with cover := coverFor s q m }) s) s

/-- A site goes dark for heat; later steps run with a cover, unless it hosts its partition's Navigator. -/
def darkForHeat (i : Nat) (h : Heat) (s : State) : State :=
  let s := updSite i (fun r => { r with heat := h, cover := none }) (siteDark i s)
  let n := s.logicalAt i
  match partOf s n with
  | none => s
  | some p =>
    match s.part p with
    | none => s
    | some q =>
      let s := if hostsNavigator q n then s else updSite i (fun r => { r with cover := coverFor s q n }) s
      recover p n s

/-- The hard thermal trip of a compute site: its step fails, the error is recorded, and the event is sent. -/
def tripSite (i : Nat) (s : State) : State :=
  if (s.site i).power = .dark then s
  else
    let n := s.logicalAt i
    let p := partOf s n
    let met := match p with
      | some p => stepMet s p stChecksum
      | none => {}
    let t := platformEvent .trip i (detect 0x0F (clusterUnit s 0x08 n 0xFF 0 0) met s)
    let t := match p with
      | some p => abortStep stChecksum p (match t.stepOf p with
          | some _ => updCounters i (fun c => { c with hwStepFails := satAdd c.hwStepFails 1 }) t
          | none => t)
      | none => t
    darkForHeat i .tripped t

end Sys2Proof.Machine
end

