-- ==== Sys2Proof/Machine/Power.lean ====
section
/-! DEFINITION. Power delivery, admission, heat, power states, the cap, supply voltage and energy (R29, R346 to R377, R481, R507).
Rests on the log entries (notes/assumptions/<n>.md) 40 (DEDUCED), 42 (DEDUCED). -/
namespace Sys2Proof.Machine

/-! ### Sense pairs, phases, converters (R16, R349 to R351) -/

/-- SENSE_PAIR_SWITCH: the last stage regulates at the duplicate pair; with both pairs lost the site goes dark and its cluster is
retired. -/
def sensePairSwitch (i : Nat) (bothLost : Bool) (s : State) : State :=
  if bothLost || (s.site i).duplicateOpen then
    if (s.site i).bothOpen then s
    else plannedTakeover s (clusterGone (s.logicalAt i) 0x0E (updSite i (fun r => { r with primaryOpen := true, duplicateOpen := true, bothOpen := true }) s))
  else if (s.site i).primaryOpen then s
  else note .sensePair i 0 (updSite i (fun r => { r with primaryOpen := true }) s)

def execSensePairSwitch (x : SiteId) (bothLost : Bool) (s : State) : Out := done s (sensePairSwitch x.val bothLost)

/-- PHASE_FAULT: the phase is off until its test decides, and the site's limits fall; a seventh phase off loses the cluster. -/
def phaseFault (i phase : Nat) (s : State) : State :=
  if (s.site i).phasesOff.contains phase then s
  else
    let met := match partOf s (s.logicalAt i) with
      | some p => { stepMet s p 0xFF with status := 0xFF }
      | none => {}
    let t := updSite i (fun r => { r with phasesOff := r.phasesOff ++ [phase] }) s
    let t := detect 0x0D (dieUnit 0x09 i phase 0 0) met t
    let t := note .phaseOff i phase (updSite i (fun r => { r with powerW := some (allotment t i) }) t)
    if (t.site i).phasesOff.length < 7 then t else plannedTakeover s (clusterGone (t.logicalAt i) 0x0E (siteDark i t))

def execPhaseFault (x : SiteId) (phase : Fin 24) (_kind : PhaseFaultKind) (s : State) : Out := done s (phaseFault x.val phase.val)

/-- FIRST_STAGE_FAIL: a region converter takes its four sites dark; a base converter is reported, and the other three carry the load. -/
def firstStageFail (k : Converter) (s : State) : State :=
  match k with
  | .region r =>
    if s.wafer.firstStageOut.contains r.val then s
    else
      let t := note .converterOff r.val 0 { s with wafer := { s.wafer with firstStageOut := s.wafer.firstStageOut ++ [r.val] } }
      plannedTakeover s ((regionSites r.val).foldl (fun s i =>
        if siteDisabled s i || (s.site i).retired then siteDark i s else clusterGone (s.logicalAt i) 0x0E (siteDark i s)) t)
  | .base k =>
    if s.wafer.firstStageOut.contains (25 + k.val) then s
    else note .converterOff (25 + k.val) 0 { s with wafer := { s.wafer with firstStageOut := s.wafer.firstStageOut ++ [25 + k.val] } }

def execFirstStageFail (k : Converter) (s : State) : Out := done s (firstStageFail k)

/-! ### Crack loops (R353) -/

/-- A loop's number: fields 0 to 63, dies from 64, packages from 200. -/
def crackIndex : CrackLoop → Nat
  | .field k => k.val
  | .die d => 64 + d.val
  | .package i => 200 + i.val

/-- A loop reads open. -/
def crackOpen (l : CrackLoop) (s : State) : State :=
  match l with
  | .field k => detect 0x15 (bareUnit 0x00 k.val 0) {} s
  | .die d =>
    if d.val < 100 then clusterGone (s.logicalAt d.val) 0x15 s
    else ringDieGone d.val (detectApplied 0x15 (dieUnit 0x00 d.val 0 0 0) {} s)
  | .package i => clusterGone (s.logicalAt i.val) 0x0E s

/-- CRACK_LOOP_MEASURE: the loop's resistance against its factory value, both in micro-ohms. -/
def crackLoopMeasure (l : CrackLoop) (ohms : Nat) (s : State) : State :=
  let k := crackIndex l
  let f := Config.crackFactory k
  if 10 * f < ohms then
    if s.wafer.crackOpen.contains k then s
    else
      let t := { s with wafer := { s.wafer with crackOpen := s.wafer.crackOpen ++ [k] } }
      plannedTakeover s (crackOpen l (match l with
        | .die d => if d.val < 100 then siteDark d.val t else t
        | .package i => siteDark i.val t
        | .field _ => t))
  else if 11 * f < 10 * ohms && !s.wafer.crackWarn.contains k then
    note .crackWarning k ohms { s with wafer := { s.wafer with crackWarn := s.wafer.crackWarn ++ [k] } }
  else s

def execCrackLoopMeasure (l : CrackLoop) (ohms : Nat) (s : State) : Out := done s (crackLoopMeasure l ohms)

/-! ### Admission and power-up (R29, R354 to R357, R507) -/

/-- A site's region is faster than the site's own limit, or about to be: the region is lowered before the site is powered (R29). -/
def tooFast (s : State) (i : Nat) : Bool :=
  let g := s.region (siteRegion i)
  (decide (clockLimit s i < g.freq) || g.want.any (fun f => decide (clockLimit s i < f)) || g.next.any (fun f => decide (clockLimit s i < f))) && (regionSites (siteRegion i)).any (fun j => decide ((s.site j).power ≠ .dark))

/-- A site is admitted: it ramps and starts. A region with no other powered site starts with it, its PLL locked, at 1.2 GHz; one that runs is to be
stopped and realigned at its present frequency (R355). -/
def admitSite (i : Nat) (s : State) : State :=
  let r := siteRegion i
  let s := if regionRuns s r then updRegion r (fun g => { g with realign := decide (s.life.power = .on) }) s
    else updRegion r (fun g => { pllsStop g with freq := 24, stopped := decide (s.life.power = .idle), vdd := 700, pllOn := true }) s
  let s := { s with power := { s.power with admission := s.power.admission.filter (· ≠ i), waves := s.power.waves.filter (· ≠ i) } }
  updSite i (fun r => { r with power := .admitted, requested := false, powerW := some (allotment s i) }) s

/-- A change of a region was requested before what would now be powered up or down in it, or is being made (R335). A region of the IDLE state stands
still, with no change being made. -/
def changeFirst (s : State) (r : Nat) : Bool :=
  let g := s.region r
  (g.want.isSome && !g.behind) || (g.stopped && decide (s.life.power = .on))

/-- The next site of a regulator group to be admitted: the first that asked, while no other of the group is being powered up. -/
def groupHead (s : State) (i : Nat) : Bool :=
  let sites := regionSites (siteRegion i)
  (s.power.admission.filter (fun j => sites.contains j)).head? == some i && !sites.any (fun j => decide ((s.site j).power = .admitted))
    && !changeFirst s (siteRegion i)

/-- SITE_POWER_UP_REQUEST: admission by the group's current, in A, and the module's peak power, once the region is no faster than the
site's limit; a request waits while firmware is activated, and in a state that leaves compute sites dark. -/
def sitePowerUpRequest (i current : Nat) (peakOk : Bool) (s : State) : State :=
  if groupHead s i && !darkState s && coolEnough s i && decide (current + 30 ≤ 150) && peakOk && decide (s.update.phase = .idle) then
    if tooFast s i then makeRoom (siteRegion i) (clockLimit s i) s else admitSite i s
  else s

def execSitePowerUpRequest (x : SiteId) (groupCurrent : Nat) (peakOk : Bool) (s : State) : Out :=
  done s (sitePowerUpRequest x.val groupCurrent peakOk)

/-- SITE_ADMISSION_TIMEOUT: the group's powered sites are lowered to the highest step that makes room; the site is admitted once they
run there, and the frequency is restored when it is in service. -/
def siteAdmissionTimeout (i step : Nat) (s : State) : State :=
  if groupHead s i && !darkState s && decide (s.update.phase = .idle) && decide (step < (s.region (siteRegion i)).freq) then makeRoom (siteRegion i) step s
  else s

def execSiteAdmissionTimeout (x : SiteId) (step : Nat) (s : State) : Out := done s (siteAdmissionTimeout x.val step)

/-- SITE_IN_SERVICE: the region has been aligned, or stopped and realigned, core stores and operand buffers are zero, the die has loaded its firmware, the
site resumes its own share at the operation boundary, and its region goes to the frequency chosen for its partition (R333, R355). -/
def siteInService (i : Nat) (s : State) : State :=
  if (s.site i).power ≠ .admitted then s
  else
    let mid := ((partOf s (s.logicalAt i)).bind s.stepOf).any (·.current.isSome)
    let s := updSite i (fun r => { r with
      power := .on, cover := if mid then r.cover else none, hotSince := none, slip := 0, clockGated := false, clamped := false }) s
    let s := updRegion (siteRegion i) (fun g => if g.realign then realigned s.now g else { g with alignedAt := g.alignedAt.orElse (fun _ => some s.now) }) s
    let s := loadImages i (zeroCluster (s.logicalAt i) s)
    match (partOf s (s.logicalAt i)).bind s.part with
    | some q => askFreq (siteRegion i) q.target s
    | none => s

def execSiteInService (x : SiteId) (s : State) : Out := done s (siteInService x.val)

/-- POWER_UP_WAVE: the sites of the next wave are admitted together; one whose region has a change to make first asks for its admission (R335). -/
def powerUpWave (w : Nat) (s : State) : State :=
  if w ≠ s.power.nextWave || darkState s then s
  else
  let s := { s with power := { s.power with nextWave := w + 1 } }
  (s.power.waves.filter (fun i => (siteX i + 2 * siteY i) % 10 == w)).foldl (fun s i =>
    if (s.site i).power = .dark then
      if changeFirst s (siteRegion i) then requestSite i { s with power := { s.power with waves := s.power.waves.filter (· ≠ i) } }
      else if tooFast s i then makeRoom (siteRegion i) (clockLimit s i) (requestSite i { s with power := { s.power with waves := s.power.waves.filter (· ≠ i) } })
      else admitSite i s
    else { s with power := { s.power with waves := s.power.waves.filter (· ≠ i) } }) s

def execPowerUpWave (w : Fin 10) (s : State) : Out := done s (powerUpWave w.val)

/-- A change of a region is pending or being made, and a power-down follows it (R335). -/
def changeBefore (s : State) (r : Nat) : Bool :=
  let g := s.region r
  decide (s.life.power = .on) && (g.want.isSome || g.stopped || g.realign)

/-- SITE_POWER_DOWN: a site that no partition places, or that the power state leaves dark, is switched off, after a change of its region that was requested before
(R335, R354). -/
def sitePowerDown (i : Nat) (s : State) : State :=
  if (s.site i).power = .dark || (sitePlaced s i && !darkState s) || starting s || changeBefore s (siteRegion i) then s
  else siteDark i (updSite i (fun r => { r with cover := none, heat := .normal }) s)

def execSitePowerDown (x : SiteId) (s : State) : Out := done s (sitePowerDown x.val)

/-! ### Heat (R359 to R362, R481) -/

/-- The sum of the two middle values of a sorted list, twice its median. -/
def twiceMedian (l : List Int) : Int :=
  let a := l.mergeSort (fun x y => decide (x ≤ y))
  a.getD ((a.length - 1) / 2) 0 + a.getD (a.length / 2) 0

/-- The readings of a die's sensors that are in use. -/
def sensorsIn (d : DieRec) : List Int := (d.temps.zipIdx.filter (fun x => !d.sensorsOut.contains x.2)).map (·.1)

/-- Fewer than half of a compute die's 16 sensors remain. -/
def fewSensors (s : State) (d : Nat) : Bool := d < 100 && decide (2 * (16 - (s.die d).sensorsOut.length) < 16)

/-- The hottest sensor of a die, in 0.1 °C, plus 5 °C where fewer than half remain. -/
def hottest (s : State) (d : Nat) : Int :=
  let l := sensorsIn (s.die d)
  l.foldl max (l.headD 0) + (if fewSensors s d then 50 else 0)

/-- One sensor's reading against the median: far from it for 1 s, the sensor is excluded and an event of class 0x14 reported. -/
def sensorCheck (d k : Nat) (s : State) : State :=
  let r := s.die d
  let far := decide (200 < (2 * r.temps.getD k 0 - twiceMedian (sensorsIn r)).natAbs)
  if r.sensorsOut.contains k then s
  else if !far then updDie d (fun r => { r with oddSince := r.oddSince.drop k }) s
  else
    match r.oddSince.find k with
    | none => updDie d (fun r => { r with oddSince := r.oddSince.put k s.now }) s
    | some t =>
      if s.since t < ticksPerSecond then s
      else
        let u := dieUnit 0x00 d k 0 0
        note .sensorOut d k (recordEvent { no := 0, kind := 1, cls := 0x14, outcome := 0, unit := u, time := 0, lifeSec := 0 }
          (updDie d (fun r => { r with sensorsOut := r.sensorsOut ++ [k], oddSince := r.oddSince.drop k }) s))

/-- The temperature that the Pilot keeps dies below, in 0.1 °C: 95 °C, and in the heater stage 80 °C, which they may reach (R359, R406). -/
def heatLimit (s : State) : Int := if s.life.phase = .cold .heater then 801 else 950

/-- The ceiling that heat puts on a region: 1.2 GHz while a die of it lacks sensors; one step lower at each sample at or above the limit;
none once every powered die of it is below. -/
def heatCeiling (r : Nat) (s : State) : State :=
  let on := (regionSites r).filter (fun i => decide ((s.site i).power ≠ .dark))
  let g := s.region r
  if on.any (fun i => fewSensors s i) then
    if g.heatCap = some 24 then s else askFreq r 24 (updRegion r (fun g => { g with heatCap := some 24 }) s)
  else if on.any (fun i => decide (heatLimit s ≤ hottest s i)) then
    let f := max 24 (g.freq - 1)
    let s := updRegion r (fun g => { g with heatCap := some f }) s
    if g.freq ≤ 24 && g.want.isNone then s else askFreq r f s
  else updRegion r (fun g => { g with heatCap := none }) s

/-- THERMAL_SAMPLE: a die's sensors, in 0.1 °C. A site that has been at or above 105 °C for 10 ms with its region at 1.2 GHz is marked to be switched
off for heat. -/
def thermalSample (d : Nat) (sensors : List Int) (s : State) : State :=
  let s := updDie d (fun r => { r with temps := sensors }) s
  let s := (List.range sensors.length).foldl (fun s k => sensorCheck d k s) s
  let h := hottest s d
  let s := updDie d (fun r => { r with tempMax := max r.tempMax h, tempMin := min r.tempMin (sensors.foldl min (sensors.headD 0)) }) s
  if d < 100 then
    let s := heatCeiling (siteRegion d) s
    if 1050 ≤ h && decide ((s.region (siteRegion d)).freq = 24) && decide ((s.site d).power = .on) then
      let t := (s.site d).hotSince.getD s.now
      updSite d (fun r => { r with hotSince := some t, heat := if r.heat = .normal && decide (msTicks 10 ≤ s.since t) then .marked else r.heat }) s
    else updSite d (fun r => { r with hotSince := none }) s
  else s

def execThermalSample (d : DieId) (sensors : List Int) (s : State) : Out := done s (thermalSample d.val sensors)

/-- The operation boundary of R360 and R361: no operation runs, and no accumulators are held. -/
def atBoundary (s : State) (p : Nat) : Bool :=
  match s.stepOf p with
  | some t => t.current.isNone && t.held.isNone
  | none => true

/-- SITE_HEAT_OFF: at the boundary the marked site is switched off with a cover, or takes the hard-trip path. -/
def siteHeatOff (i : Nat) (s : State) : State :=
  if (s.site i).heat ≠ .marked || (s.site i).power ≠ .on || changeBefore s (siteRegion i) then s
  else
    let n := s.logicalAt i
    match partOf s n with
    | none => note .heatOff i 0 (darkForHeat i .off s)
    | some p =>
      if !atBoundary s p then s
      else
        match s.part p with
        | none => s
        | some q =>
          if hostsNavigator q n || (coverFor s q n).isNone then tripSite i s
          else note .heatOff i 0 (darkForHeat i .off s)

def execSiteHeatOff (x : SiteId) (s : State) : Out := done s (siteHeatOff x.val)

/-- SITE_HEAT_RETURN: below 85 °C for 1 s after a switch-off, the site asks to be powered up. -/
def siteHeatReturn (i : Nat) (s : State) : State :=
  if (s.site i).heat = .off && decide (hottest s i < 850) then
    let s := updSite i (fun r => { r with heat := .normal }) s
    if sitePlaced s i && !darkState s then requestSite i s else s
  else s

def execSiteHeatReturn (x : SiteId) (s : State) : Out := done s (siteHeatReturn x.val)

/-- HARD_THERMAL_TRIP: a sensor, in 0.1 °C, of a die or of the base wafer, at or above 115 °C; on a ring die or the base wafer it is an input fault. -/
def hardThermalTrip (d : Option DieId) (sensor : Int) (s : State) : State :=
  match d with
  | none => if sensor < 1150 then s else inputFails (platformEvent .trip 122 s)
  | some d =>
    if sensor + (if fewSensors s d.val then 50 else 0) < 1150 then s
    else if d.val < 100 then tripSite d.val s
    else inputFails (platformEvent .trip d.val s)

def execHardThermalTrip (d : Option DieId) (sensor : Int) (s : State) : Out := done s (hardThermalTrip d sensor)

/-- The queued test of a tripped site. -/
def tripTest (s : State) (i : Nat) : Option TestRec := s.errs.tests.find? (fun t => t.cls == 0x0F && unitDie t.unit == some i)

/-- HARD_TRIP_RETURN: below 85 °C for 10 s, the site is tested; it returns, or its cluster is retired. -/
def hardTripReturn (i : Nat) (f : TestFinding) (s : State) : State :=
  if (s.site i).heat ≠ .tripped || decide (850 ≤ hottest s i) then s
  else
    let t := match tripTest s i with
      | some t => conclude 0x03 t (fieldFinding t f s) s
      | none => s
    let t := updSite i (fun r => { r with heat := .normal }) t
    if (t.site i).retired then plannedTakeover s t
    else if sitePlaced t i && !darkState t then requestSite i t
    else t

def execHardTripReturn (x : SiteId) (finding : TestFinding) (s : State) : Out := done s (hardTripReturn x.val finding)

/-- NAVIGATOR_TRIP_RETIRE: 60 s after its trip, the cluster of a site that hosts a Navigator is retired. -/
def navigatorTripRetire (i : Nat) (s : State) : State :=
  let n := s.logicalAt i
  match (partOf s n).bind s.part with
  | none => s
  | some q =>
    if (s.site i).heat = .tripped && hostsNavigator q n then
      plannedTakeover s (retireCluster 0x03 0x0F n (updSite i (fun r => { r with heat := .normal }) s)).2
    else s

def execNavigatorTripRetire (x : SiteId) (s : State) : Out := done s (navigatorTripRetire x.val)

/-! ### Rails (R347) -/

/-- The rails of the module: VDD_CORE of a compute site, those of the base wafer and the always-on domain, and a ring die's. -/
inductive Rail where
  | core (i : SiteId)
  | base | seg | aon
  | ring (d : DieId)
  deriving DecidableEq, Repr

/-- A rail's voltage in mV: VDD_CORE is one value per region; those of the ring dies differ by die and the manual does not give them. -/
def railMv (s : State) : Rail → Option Nat
  | .core i => some (s.region (siteRegion i.val)).vdd
  | .base => some 750
  | .seg => some 800
  | .aon => some 750
  | .ring _ => none

/-- A rail's static tolerance in mV. -/
def railTolerance : Rail → Nat
  | .core _ => 10
  | _ => 15

/-- A rail is supplied in the state that the module is in; the dies of R348 are supplied in every state (R347, R348, R363). -/
def railOn (s : State) : Rail → Bool
  | .core i => decide ((s.site i.val).power ≠ .dark) && !darkState s
  | .base => s.life.inputOk
  | .aon => s.life.aonOn
  | .seg => s.life.inputOk && decide (s.life.power ≠ .off)
  | .ring d => s.life.inputOk && (decide (s.life.power ≠ .off) || d.val == resonatorDie || serviceDies.contains d.val || dieKind d.val == 5)
    && (decide (s.life.power ≠ .sleep) || !memoryDies.contains d.val)

/-! ### Power states (R363 to R367, R412) -/

/-- The numbers of the states (R363). -/
def stateCode : PowerState → Nat
  | .on => 0 | .idle => 1 | .doze => 2 | .sleep => 3 | .off => 4

/-- Every step has ended and, in mirrored mode, every mirror point made has been secured (R366). -/
def readyToEnter (s : State) : Bool :=
  s.parts.all (fun e => e.2.step.isNone)
    && (!(isPrimary s && decide (s.pair.mode = 2)) || s.ctxs.all (fun e => decide (e.2.securing = .notSecured) || e.2.secured == some e.2.point))

/-- Regions at 1.2 GHz with their clocks gated. -/
def gateRegions (s : State) : State :=
  (List.range 25).foldl (fun s r => updRegion r (fun g => { g with freq := 24, want := none, next := none, behind := false, stopped := true }) s) s

/-- Entry to OFF: what contexts and partitions remain are destroyed, DEPARTING is sent, the link goes down, and only the always-on domain
and the service, flash and resonator dies stay powered. -/
def enterOff (s : State) : State :=
  let s := s.ctxs.keys.foldl (fun s c => destroyCtx (asCtx c) s) s
  let s := s.parts.keys.foldl (fun s p => dropPartition p s) s
  let s := losePair (powerLost (depart 4 s))
  { s with
    life := { s.life with phase := .unpowered, stageDone10 := false }
    bin := { s.bin with bays := s.bin.bays.mapVal (fun _ r => bayUnpowered r), removals := [] } }

/-- Compute dies dark and DIMMs in self-refresh. -/
def goDark (s : State) : State := gateRegions (allDark { s with chans := s.chans.mapVal (fun _ r => { r with selfRefresh := true }) })

/-- One lane of each trained port is kept for the partner (R363). -/
def portsSleep (s : State) : State :=
  { s with pair := { s.pair with ports := s.pair.ports.mapVal (fun _ p => if p.lanes ≤ 1 then p else { p with awake := p.lanes, lanes := 1 }) } }

/-- A state is taken up. IDLE after a dark state powers the compute dies again; DOZE after SLEEP gives the ports their lanes. -/
def takeState (x : PowerState) (s : State) : State :=
  let s := match x with
    | .on => s
    | .idle => gateRegions (leaveDark { s with chans := s.chans.mapVal (fun _ r => { r with powerDown := true }) })
    | .doze => goDark (leaveDark s)
    | .sleep => portsSleep (goDark s)
    | .off => enterOff s
  note .powerState (stateCode x) 0 { s with life := { s.life with power := x, entering := none } }

/-- POWER_STATE_ENTER: the ordered state is entered, and what waited is served in order of arrival; a STEP that is ready to begin wakes it. -/
def powerStateEnter (s : State) : State :=
  match s.life.entering with
  | none => s
  | some o =>
    if !readyToEnter s then s
    else
      let s := takeState o.state s
      let s := if s.life.resetWaits then resetThatWaits s else s
      wakeForStep (serveOrders s s.life.orders.length)

def execPowerStateEnter (s : State) : Out := done s powerStateEnter

/-! ### The cap (R369, R370) -/

/-- The input power is outside a limit: the average of 10 ms, or within the last millisecond the highest of 10 µs, both in W, or the highest current
of 10 µs, in A. -/
def overCap (average peak amps : Nat) (s : State) : Bool :=
  decide (100 * s.setting .pwrCap < average) || decide (min (125 * s.setting .pwrCap) (100 * s.maxCap) < peak) || decide (460 < amps)

/-- CAP_CHECK: outside a limit every region is lowered by one step each millisecond; within them, the ceilings go. What the Pilot does where a limit
of 10 µs is exceeded is read from the rule on the average (DEDUCED: notes/assumptions/40.md). -/
def capCheck (average peak amps : Nat) (s : State) : State :=
  if overCap average peak amps s then
    (List.range 25).foldl (fun s r =>
      let f := max 24 ((s.region r).freq - 1)
      if (s.region r).freq ≤ 24 then s else askFreq r f (updRegion r (fun g => { g with capStep := some f }) s)) s
  else (List.range 25).foldl (fun s r => updRegion r (fun g => { g with capStep := none }) s) s

def execCapCheck (average peak amps : Nat) (s : State) : Out := .next (capCheck average peak amps s)

/-! ### Supply voltage (R373) -/

/-- The lower of two lists of slacks, monitor by monitor; 0xFF stands for no reading. -/
def lowerSlacks (a b : List Nat) : List Nat := (List.range 16).map (fun i => min (a.getD i 0xFF) (b.getD i 0xFF))

/-- The slacks of a die's monitors, with the lowest of its second and of its day (R477, R482). -/
def takeSlacks (l : List Nat) (d : DieRec) : DieRec := { d with slacks := l, slackSec := lowerSlacks d.slackSec l, slackDay := lowerSlacks d.slackDay l }

/-- MARGIN_SAMPLE: the slack in ps of every monitor of the region's powered sites, 16 to a site in site order. -/
def marginSample (r : Nat) (slacks : List Nat) (s : State) : State :=
  let on := (regionSites r).filter (fun i => decide ((s.site i).power = .on))
  let s := on.zipIdx.foldl (fun s (i, k) => updDie i (takeSlacks ((slacks.drop (16 * k)).take 16)) s) s
  let g := s.region r
  match slacks with
  | [] => s
  | x :: rest =>
    let low := rest.foldl min x
    if g.stopped then s
    else if low < 20 then
      if g.vdd < 900 then updRegion r (fun g => { g with vdd := min 900 (g.vdd + (if low < 10 then 10 else 5)) }) s
      else if g.slackCap.isSome && g.want.isSome then s
      else
        let f := max 24 (g.freq - 1)
        note .slackLow r low (askFreq r f (updRegion r (fun g => { g with slackCap := some f }) s))
    else
      let s := updRegion r (fun g => { g with slackCap := none }) s
      if 20 < low then updRegion r (fun g => { g with vdd := max 600 (g.vdd - 5) }) s else s

def execMarginSample (r : Region) (slacks : List Nat) (s : State) : Out := .next (marginSample r.val slacks s)

/-! ### Energy (R377) -/

/-- A context's charge for the second: the energy of its clusters, in mJ, and a share of the shared energy by its cluster-milliseconds. -/
def charge (shared total : Nat) (s : State) (c : CtxId) (own ms : Nat) : State :=
  updCtx c.val (fun k => { k with
    energyMj := k.energyMj + own + (if total = 0 then 0 else shared * ms / total)
    clusterMj := k.clusterMj + own, clusterMs := k.clusterMs + ms }) s

/-- The coefficient of a die's energy model, in millionths. -/
def energyCoeff (s : State) (d : Nat) : Nat := s.power.coeffs.getD d 1000000

/-- The energy attributed to some dies from what their models give, in mJ, by their coefficients. -/
def attributed (s : State) (l : List (DieId × Nat)) : Nat := (l.map (fun x => x.2 * energyCoeff s x.1.val / 1000000)).foldl (· + ·) 0

/-- Every coefficient trimmed, so that the attributed total agrees with the measured one. -/
def trimCoeffs (measured total : Nat) (s : State) : State :=
  if total = 0 then s
  else { s with power := { s.power with coeffs := (List.range 122).map (fun d => (d, energyCoeff s d * measured / total)) } }

/-- ENERGY_TRIM: the measured energy of a second, what the model of each die gives from its activity, and the energy of base wafer and DIMMs, in mJ; the
coefficients are trimmed so that the total agrees, and each context is charged what they make of the activity of its clusters, with its share of the
base wafer, the ring dies and the DIMMs. -/
def energyTrim (measured shared : Nat) (model : List (DieId × Nat)) (perContext : List (CtxId × List (DieId × Nat) × Nat)) (s : State) : State :=
  let ms := perContext.foldl (fun n x => n + x.2.2) 0
  let s := trimCoeffs measured (attributed s model + shared) { s with power := { s.power with inputMj := s.power.inputMj + measured } }
  let common := shared + attributed s (model.filter (fun x => decide (100 ≤ x.1.val)))
  perContext.foldl (fun s x => charge common ms s x.1 (attributed s x.2.1) x.2.2) s

def execEnergyTrim (measured shared : Nat) (model : List (DieId × Nat)) (perContext : List (CtxId × List (DieId × Nat) × Nat)) (s : State) : Out :=
  .next (energyTrim measured shared model perContext s)

end Sys2Proof.Machine
end

