-- ==== Sys2Proof/Machine/Ports.lean ====
section
/-! DEFINITION. The training of Consort ports, and what is shared by flash, firmware and the starts: the anti-rollback log, the
acceptance of configuration records and chart revisions, and the settings store (R24, R27, R28, R427 to R429, R435, R466, R491 to R495,
R510, R511).
Rests on the log entries (notes/assumptions/<n>.md) 41 (DESIGN CHOICE), 45 (DEDUCED), 55 (DEDUCED). -/
namespace Sys2Proof.Machine

/-! ### Consort ports (R427 to R430, R435) -/

/-- A port may train: it is enabled, not mapped out, its die works, its cable is present, and CNS_MODE is not 0. -/
def portMayTrain (s : State) (p : Nat) : Bool :=
  portEnabled s p && !(s.port p).mapped && !(s.die (consortDies.getD p 0)).failed && s.bin.consortCables.has p && s.setting .cnsMode != 0
    && decide (s.life.phase ≠ .unpowered) && decide (s.life.power ≠ .off)

/-- The lanes of a mask that failed, without those mapped out. -/
def lanesFailed (s : State) (p : Nat) (ok : BitVec 8) : List Nat :=
  (List.range 8).filter (fun n => !bit ok n && !(s.port p).lanesOut.contains n)

/-- A port reaches another module than the ports that are trained. -/
def otherPartner (s : State) (p : Nat) (serial : BitVec 128) : Bool :=
  (portsTrained s).any (fun q => decide (q ≠ p) && (s.port q).serial != serial)

/-- What an IDENTITY frame says of this module (R429, R432); how many groups it can place, the free frames of its channels, and whether it uses a partition of its own, go
with it
(DEDUCED: notes/assumptions/45.md). -/
def ownIdentity (s : State) : IdentityBody :=
  { serial := s.serial, orderCode := BitVec.ofNat 8 s.orderCode, stepping := Config.stepping, mode := BitVec.ofNat 8 (s.setting .cnsMode)
    role := BitVec.ofNat 8 (s.setting .cnsRole), version := s.update.active, pairId := BitVec.ofNat 64 (s.setting .cnsPairId), epoch := s.pair.epoch
    placeable := count (List.range 8) (groupPlaceable s)
    frames := (chansInService s).map (fun c => count (List.range (channelFrames s)) (fun f => frameFree s ⟨c, f⟩)), ownPartition := decide (s.pair.mode < 2) && !s.parts.isEmpty }

/-- A port's training ends: at 8 or 4 lanes, with the identity sent, or dropped out, to be tried again in the background. A port that was trained already
keeps its link sequence and the frames that it has not had acknowledged; any other begins afresh. Failing lanes and a failing port are errors of class
0x12. -/
def portTrains (p : Nat) (ok : BitVec 8) (serial : BitVec 128) (s : State) : State :=
  if !portMayTrain s p then s
  else
    let w := trainWidth (fun n => bit ok n && !(s.port p).lanesOut.contains n)
    let bad := lanesFailed s p ok
    let s := if bad.isEmpty then s else detect 0x12 (bareUnit 0x0F p (if w = 0 then 0xFF else bad.headD 0)) {} s
    if w = 0 then portLost p true s
    else if otherPartner s p serial then note .cableMismatch p 0 (portLost p false s)
    else
      let s := updPort p (fun r =>
        if r.lanes = 0 then { r with lanes := w, serial := serial, down := false, training := false, sendSeq := 0, recvSeq := 0, replay := [] }
        else { r with lanes := w, serial := serial, down := false, training := false }) s
      sendOn p (.identity (ownIdentity s)) (note .portState p w s)

/-- The larger of two words. -/
def larger (a b : W32) : W32 := if a < b then b else a

/-! ### The anti-rollback log (R494, R495) -/

/-- Entries of a half. -/
def rollbackHalf : Nat := 4096

/-- The valid entries of both copies. -/
def rollbackEntries (s : State) : List RollbackEntry :=
  ((if s.flash0.works then s.flash0.log else []) ++ (if s.flash1.works then s.flash1.log else [])).filter (·.crcOk)

/-- The values in force: the largest of each counter, the OR of the revoked slots, the bank of the newest entry. -/
def rollbackNow (s : State) : RollbackEntry :=
  (rollbackEntries s).foldl (fun a e =>
    { seq := larger a.seq e.seq, fwSv := larger a.fwSv e.fwSv, recoverySv := larger a.recoverySv e.recoverySv, keyRevoked := a.keyRevoked ||| e.keyRevoked
      activeBank := if a.seq ≤ e.seq then e.activeBank else a.activeBank
      chartFloor := larger a.chartFloor e.chartFloor, configFloor := larger a.configFloor e.configFloor }) {}

/-- An entry written to one copy: with its half full, the current values open the other half first. -/
def rollbackPut (now e : RollbackEntry) (f : Flash) : Flash :=
  if !f.works then f
  else if f.log.length < rollbackHalf then { f with log := f.log ++ [e] }
  else { f with log := [now, e], logHalf := !f.logHalf }

/-- A new entry, written first to copy 0 and then to copy 1. -/
def rollbackWrite (g : RollbackEntry → RollbackEntry) (s : State) : State :=
  let now := rollbackNow s
  let full := (s.flash0.works && decide (rollbackHalf ≤ s.flash0.log.length)) || (s.flash1.works && decide (rollbackHalf ≤ s.flash1.log.length))
  let now := if full then { now with seq := now.seq + 1 } else now
  let e := { g now with seq := now.seq + 1, crcOk := true }
  { s with flash0 := rollbackPut now e s.flash0, flash1 := rollbackPut now e s.flash1 }

/-- Entries found in one copy only are copied into the other. -/
def rollbackUnion (s : State) : State :=
  let both (a b : List RollbackEntry) : List RollbackEntry := a ++ b.filter (fun e => e.crcOk && !a.contains e)
  if s.flash0.works && s.flash1.works then
    { s with flash0 := { s.flash0 with log := both s.flash0.log s.flash1.log }, flash1 := { s.flash1 with log := both s.flash1.log s.flash0.log } }
  else s

/-! ### Records and revisions (R24, R27, R511) -/

/-- The number of bits set among the first n of a mask. -/
def bitsSet {w : Nat} (m : BitVec w) (n : Nat) : Nat := count (List.range n) (bit m)

/-- ORDER_CODE, MAX_CLOCK and MAX_CAP match one row of R1, and the disables leave what that row has. -/
def recordRow (r : ConfigRecord) : Bool :=
  match gradeRow r.orderCode.toNat with
  | none => false
  | some (clock, cap, off, chans, ports) =>
    decide (r.maxClock.toNat = clock) && decide (r.maxCap.toNat = cap) && decide (bitsSet r.clusterDis 100 = off)
      && decide (48 - bitsSet r.channelDis 48 = chans) && decide (4 - bitsSet r.consortDis 4 = ports)

/-- SPARE_SITES names four distinct sites that are not disabled. -/
def recordSpares (r : ConfigRecord) : Bool :=
  decide (r.spareSites.length = 4) && decide (r.spareSites.Nodup)
    && r.spareSites.all (fun b => decide (b.toNat < 100) && !bit r.clusterDis b.toNat)

/-- Reserved fields are 0. -/
def recordReserved (r : ConfigRecord) : Bool :=
  r.reservedZero && decide (r.clusterDis.toNat < 2 ^ 100) && decide (r.channelDis.toNat < 2 ^ 48) && decide (r.consortDis.toNat < 16)

/-- Every CLOCK_LIMIT lies within 24 to MAX_CLOCK. -/
def recordLimits (r : ConfigRecord) : Bool :=
  decide (r.limits.length = 100) && r.limits.all (fun l => decide (24 ≤ l.clock.toNat) && decide (l.clock ≤ r.maxClock))

/-- A configuration record whose signatures verify is accepted (R27). -/
def recordFits (s : State) (r : ConfigRecord) : Bool :=
  decide (r.format = 1) && decide (r.serial = s.serial) && recordReserved r && recordRow r && recordSpares r && recordLimits r

/-- UNIT and ACTION of an entry are codes of R25 and R26, and its site and indexes lie in range. -/
def entryFits (e : ChartEntry) : Bool :=
  let u := e.unit
  let a := u.a.toNat
  let b := u.b.toNat
  let c := u.c.toNat
  let site := (unitDie u).elim false (fun d => decide (d < 100))
  let die := (unitDie u).isSome
  let bare := u.x == 0x7F && u.y == 0x7F
  let idx := match u.unit.toNat with
    | 0x01 => bare && ((decide (1 ≤ a) && decide (a ≤ 7)) || (decide (0x11 ≤ a) && decide (a ≤ 0x17))) && decide (c ≤ 32)
    | 0x02 => die && decide (b ≤ 32) && decide (c = 0)
    | 0x03 => site && decide (a = 0) && decide (b = 0)
    | 0x04 => site && decide (a ≤ 6) && decide (b ≤ 63)
    | 0x05 => site && decide (a ≤ 3) && decide (b ≤ 3) && decide (c ≤ 2047)
    | 0x06 => site && decide (a ≤ 3) && decide (b ≤ 3) && decide (c ≤ 127)
    | 0x07 => site && decide (a ≤ 3) && decide (b ≤ 3) && decide (c ≤ 64)
    | 0x08 => site && decide (a = 0) && decide (b = 0) && decide (c = 0)
    | 0x09 => site && decide (a ≤ 23) && decide (b = 0) && decide (c = 0)
    | 0x0A => bare && decide (a ≤ 3) && decide (b ≤ 11) && decide (c = 0)
    | 0x0B => decide (a ≤ 1) && decide (b = 0) && decide (c = 0)
    | 0x0C => site && decide (a = 0) && decide (b = 0) && decide (c = 0)
    | 0x0D => decide (a ≤ 1) && decide (b = 0) && decide (c = 0)
    | 0x0E => decide (a ≤ 1) && decide (b = 0) && decide (c = 0)
    | 0x0F => bare && decide (a ≤ 3) && (decide (b ≤ 7) || decide (b = 0xFF)) && decide (c = 0)
    | _ => false
  idx && decide (1 ≤ e.action.toNat) && decide (e.action.toNat ≤ 8)

/-- The highest SEQ_NO of a field entry: one that the self-tests wrote. -/
def highestField (l : List ChartEntry) : W32 :=
  (l.filter (fun e => e.source == 0x02 || e.source == 0x03)).foldl (fun m e => larger m e.seqNo) 0

/-- A chart revision replaces the base chart and every field entry up to its UP_TO_SEQ (R24). -/
def revise (r : ChartRevision) (l : List ChartEntry) : List ChartEntry :=
  r.entries ++ l.filter (fun e => (e.source == 0x02 || e.source == 0x03) && decide (r.upToSeq < e.seqNo))

/-! ### The settings store (R466, R467, R510) -/

/-- The group of a setting in the store. -/
def settingGroup : Setting → Nat
  | .pwrCap => 0 | .pwrAutoWake => 0 | .pwrMode => 0
  | .cnsMode => 1 | .cnsPairId => 1 | .cnsRole => 1 | .cnsStepLoss => 1 | .cnsHoldMax => 1 | .cnsTakeover => 1 | .cnsPartnerAddr => 1
  | .errAuditInterval => 2 | .trainMode => 2
  | .svcIpMode => 3 | .svcIpv4 => 3 | .svcIpv6 => 3 | .svcHttpsPort => 3 | .svcCollectorAddr => 3 | .svcCollectorPort => 3 | .svcStreamLevel => 3
  | .svcSessionTimeout => 4 | .svcConsoleBaud => 4 | .svcConsoleIdle => 4

/-- Every setting. -/
def allSettings : List Setting :=
  [.trainMode, .pwrCap, .pwrAutoWake, .pwrMode, .errAuditInterval, .cnsMode, .cnsPairId, .cnsRole, .cnsStepLoss, .cnsHoldMax, .cnsTakeover,
   .cnsPartnerAddr, .svcIpMode, .svcIpv4, .svcIpv6, .svcHttpsPort, .svcCollectorAddr, .svcCollectorPort, .svcStreamLevel, .svcSessionTimeout,
   .svcConsoleBaud, .svcConsoleIdle]

/-- The store is written to copy 0 and then to copy 1. -/
def storeSettings (x : SettingsCopy) (s : State) : State :=
  let x := { x with crcOk := true }
  { s with
    settings := x
    flash0 := if s.flash0.works then { s.flash0 with settings := x } else s.flash0
    flash1 := if s.flash1.works then { s.flash1 with settings := x } else s.flash1 }

/-- At a start the valid copy with the higher SETTINGS_REV is used, and the other rewritten with it. -/
def loadSettings (s : State) : State :=
  let a := if s.flash0.works && s.flash0.settings.crcOk then some s.flash0.settings else none
  let b := if s.flash1.works && s.flash1.settings.crcOk then some s.flash1.settings else none
  match a, b with
  | some x, some y => storeSettings (if x.rev < y.rev then y else x) s
  | some x, none => storeSettings x s
  | none, some y => storeSettings y s
  | none, none => storeSettings {} s

/-- A group whose format number differs from the running firmware's goes back to its defaults. -/
def resetGroup (g : Nat) (fmt : Byte) (s : State) : State :=
  if s.settings.formats.getD g 0 = fmt then s
  else
    let gone := (allSettings.filter (fun k => settingGroup k == g)).map settingNum
    let x := { s.settings with
      values := s.settings.values.filter (fun e => !gone.contains e.1), rev := s.settings.rev + 1, formats := s.settings.formats.set g fmt }
    let s := storeSettings x s
    let s := if g = 3 then { s with mgmt := { s.mgmt with netDue := true } } else s
    let s := if g = 5 then { s with mgmt := { s.mgmt with accounts := [⟨0, 0, .administrator, true⟩], certificate := 0 } } else s
    note .settingsReset g fmt.toNat s

/-- The check of R510 at a start and at a commit. -/
def checkFormats (fmts : List Byte) (s : State) : State :=
  (List.range 8).foldl (fun s g => resetGroup g (fmts.getD g 0) s) s

end Sys2Proof.Machine
end

