-- ==== Sys2Proof/Machine/Starts.lean ====
section
/-! DEFINITION. The cold start and the warm start, the input, WAKE_N, the coolant and power-cycle requests (R18, R21 to R31, R38 to R40,
R58 to R60, R307 to R309, R315, R316, R339, R402 to R414, R425, R495, R508 to R511).
Rests on the log entries (notes/assumptions/<n>.md) 38 (DEDUCED), 42 (DEDUCED), 55 (DEDUCED), 58 (DESIGN CHOICE). -/
namespace Sys2Proof.Machine

/-! ### Input, coolant, power-cycle requests (R39, R59, R60) -/

/-- INPUT_FAULT: an input below 46 V for more than 10 ms, or above 59 V for more than 1 ms. -/
def inputFault (mv us : Nat) (s : State) : State :=
  if s.life.inputOk && ((decide (mv < 46000) && decide (10000 < us)) || (decide (59000 < mv) && decide (1000 < us))) then inputFails s else s

def execInputFault (mv lastedUs : Nat) (s : State) : Out := done s (inputFault mv lastedUs)

/-- AON_STOP: below 40 V the always-on domain stops as well, and the Reckoner with it. -/
def aonStop (mv : Nat) (s : State) : State :=
  if 40000 ≤ mv || !s.life.aonOn then s
  else
    let s := if s.life.inputOk then inputFails s else s
    { s with
      life := { s.life with aonOn := false, inputOk := false, meshLocked := false, power := .on, cycleReason := none }
      bin := { s.bin with press := none, held := false, locate := false, lamp := none, pads := [] }
      reck := { s.reck with now := 0, slew := 0, slewTick := 0, offset := [], faulty := [] } }

def execAonStop (mv : Nat) (s : State) : Out := done s (aonStop mv)

/-- A value outside R57: inlet temperature, its distance from the dew point, or flow. -/
def coolantBad (cap : Nat) (r : Coolant) : Bool :=
  decide (r.inlet < 1500) || decide (4000 < r.inlet) || decide (r.inlet < r.dewPoint + 200)
    || decide (r.flow < 16 * cap) || decide (r.flow < 1500) || decide (6000 < r.flow)

/-- COOLANT_SAMPLE: the sensors once a second; any value outside its range is reported. -/
def coolantSample (r : Coolant) (s : State) : State :=
  let bad := coolantBad (s.setting .pwrCap) r
  let t := { s with power := { s.power with coolant := r, coolantBad := bad } }
  if bad then note .coolantOutside r.inlet.toNat r.flow t else t

def execCoolantSample (r : Coolant) (s : State) : Out := .next (coolantSample r s)

/-- PWR_CYCLE_REQ_REPEAT: input power has not been removed within 60 s; the request is repeated and logged. -/
def pwrCycleReqRepeat (s : State) : State :=
  match s.life.cycleReason with
  | none => s
  | some r => note .cycleRepeat r.toNat s.life.cyclePulses { s with life := { s.life with cyclePulses := s.life.cyclePulses + 1 } }

def execPwrCycleReqRepeat (s : State) : Out := .next (pwrCycleReqRepeat s)

/-- WAKE_N_LOW: at least 1 ms low wakes the module from OFF, or waits as a trigger while OFF is being entered (R40, R367). -/
def wakeNLow (us : Nat) (s : State) : State :=
  let off := s.life.power = .off || s.life.entering.any (fun o => decide (o.state = .off))
  if 1000 ≤ us && off then { s with life := { s.life with orders := s.life.orders ++ [{ state := .on }] } } else s

def execWakeNLow (lowUs : Nat) (s : State) : Out := .next (wakeNLow lowUs s)

/-! ### Firmware (R508, R509) -/

/-- What a copy of a bank shows: 0 A, 1 B, 2 recovery; copy 1's at 3 to 5. -/
def bankCheck (s : State) (r : StageReport) (bank copy : Nat) : Option BankCheck :=
  if (if copy = 0 then s.flash0.works else s.flash1.works) then (r.banks.find? (fun e => e.1 == bank + 3 * copy)).map (·.2) else none

/-- The bank of a flash copy, by number. -/
def bankOf (f : Flash) (bank : Nat) : Bank := if bank = 0 then f.bankA else if bank = 1 then f.bankB else f.recovery

/-- What the boot ROM reads of a bank of a copy: whether it verifies and its image matches is what the flash shows; of a bank that a package wrote,
the manifest says the rest, and its root key slot must not be revoked. -/
def bankRead (s : State) (r : StageReport) (bank copy : Nat) : Option BankCheck :=
  let b := bankOf (if copy = 0 then s.flash0 else s.flash1) bank
  (bankCheck s r bank copy).map (fun c => match b.manifest with
    | none => c
    | some m => { c with
        verifies := c.verifies && !(decide (b.slot.toNat < 4) && (rollbackNow s).keyRevoked.getLsbD b.slot.toNat)
        securityVersion := m.securityVersion, version := m.version, formats := m.formats })

/-- A bank that verifies and whose SECURITY_VERSION meets its floor, in copy 0 or then in copy 1. -/
def bankRuns (s : State) (r : StageReport) (bank : Nat) : Option BankCheck :=
  let floor := if bank = 2 then (rollbackNow s).recoverySv else (rollbackNow s).fwSv
  let ok (copy : Nat) : Option BankCheck := (bankRead s r bank copy).bind (fun c => if c.verifies && decide (floor ≤ c.securityVersion) then some c else none)
  (ok 0).orElse (fun _ => ok 1)

/-- The bank that the boot ROMs choose: the active bank, the other, the recovery bank, none. -/
def chooseBank (s : State) (r : StageReport) : FirmwareMode × Option BankCheck :=
  let act : Nat := if (rollbackNow s).activeBank = 1 then 1 else 0
  match bankRuns s r act, bankRuns s r (1 - act), bankRuns s r 2 with
  | some c, _, _ => (.bank (if act = 1 then 1 else 0) false, some c)
  | none, some c, _ => (.bank (if act = 1 then 0 else 1) true, some c)
  | none, none, some c => (.recovery, some c)
  | none, none, none => (.none, none)

/-- The images that logical segment 96 holds of a manifest, by target (R497). -/
def bankImages (m : Manifest) : Tab (BitVec 384) :=
  [2, 6, 7].filterMap (fun t => (m.images.find? (fun e => e.target.toNat == t)).map (fun e => (t, e.hash)))

/-- The target of a die's firmware (R497). -/
def dieTarget (d : Nat) : Nat :=
  match dieKind d with
  | 0 => 2 | 1 => 3 | 2 => 4 | 3 => 5 | _ => 1

/-- The ring dies that are powered load the image of the bank in use, from the bank (R497, R505). -/
def loadRingDies (s : State) : State :=
  ((List.range 22).map (· + 100)).foldl (fun s d =>
    if dieKind d = 5 || dieKind d = 6 || (s.die d).failed then s
    else updDie d (fun r => { r with active := s.update.running.bind (fun m => (m.images.find? (fun e => e.target.toNat == dieTarget d)).map (·.hash)) }) s) s

/-- The firmware chosen at a start: what runs, its version and formats, and what is reported. -/
def bootFirmware (r : StageReport) (s : State) : State :=
  let (mode, c) := chooseBank s r
  let v := c.elim 0 (·.version)
  let m := match mode with
    | .bank b _ => if b = 0 then s.flash0.bankA.manifest else s.flash0.bankB.manifest
    | .recovery => s.flash0.recovery.manifest
    | .none => none
  let s := { s with
    life := { s.life with firmware := mode }
    update := { s.update with active := v, running := m, relayed := false, seg96 := (m.elim [] bankImages), seg96Next := (s.update.staged.elim [] bankImages) }
    mgmt := { s.mgmt with sv0 := { s.mgmt.sv0 with version := v }, sv1 := { s.mgmt.sv1 with version := v } } }
  let s := match mode with
    | .bank _ true => note .bankFallback 1 v.toNat s
    | .bank _ false => s
    | .recovery => note .bankFallback 2 v.toNat s
    | .none => note .bankFallback 3 0 s
  match c with
  | some c => checkFormats c.formats s
  | none => s

/-- An entry of the chart, in either copy, takes a service or a flash die out (R25, R26). -/
def chartedOut (s : State) (unit : Byte) (d : W16) : Bool :=
  (s.flash0.chart ++ s.flash1.chart).any (fun e => e.crcOk && e.unit.unit == unit && e.unit.a == d)

/-- The service dies boot: SV0 becomes active unless it fails its own check; the stream's epoch moves on (R404, R462, R472). -/
def bootService (r : StageReport) (s : State) : State :=
  let ok0 := r.sv0Works && !chartedOut s 0x0D 0
  let ok1 := r.sv1Works && !chartedOut s 0x0D 1
  { s with mgmt := { s.mgmt with
      sv0 := { s.mgmt.sv0 with works := ok0 }, sv1 := { s.mgmt.sv1 with works := ok1 }
      active := if ok0 then some 0 else if ok1 then some 1 else none
      epoch := s.mgmt.epoch + 1, seq := 0, sessions := [], console := {}
      graceNo := if ok0 || ok1 then none else some s.now } }

/-! ### The record and the chart (R21 to R31, R511) -/

/-- The record written by a package takes effect, with CONFIG_FLOOR raised. -/
def takeNextRecord (s : State) : State :=
  let next := if s.flash0.works && s.flash0.nextRecord.isSome then s.flash0.nextRecord else if s.flash1.works then s.flash1.nextRecord else none
  match next with
  | none => s
  | some r =>
    let s := rollbackWrite (fun e => { e with configFloor := larger e.configFloor r.revision }) s
    let put (f : Flash) : Flash := if f.works then { f with record := some r, recordOk := true, nextRecord := none } else f
    { s with flash0 := put s.flash0, flash1 := put s.flash1 }

/-- The accepted copy with the higher REVISION is used, and the other copy rewritten with it; with none, nothing is enabled (R28). -/
def chooseRecord (s : State) : State :=
  let good (f : Flash) : Option ConfigRecord := match f.record with
    | some r => if f.works && f.recordOk && recordFits s r then some r else none
    | none => none
  let pick := match good s.flash0, good s.flash1 with
    | some a, some b => some (if a.revision < b.revision then b else a)
    | some a, none => some a
    | none, some b => some b
    | none, none => none
  match pick with
  | none => note .configRecordInvalid 0 0 { s with build := { s.build with record := none, recordBad := true } }
  | some r =>
    let put (f : Flash) : Flash := if f.works then { f with record := some r, recordOk := true } else f
    note .recordSelected r.revision.toNat 0
      { s with build := { s.build with record := some r, recordBad := false }, flash0 := put s.flash0, flash1 := put s.flash1 }

/-- A chart revision written by a package takes effect, with CHART_FLOOR raised and the counters of R399 reset (R483, R511). -/
def takeNextRevision (s : State) : State :=
  let next := if s.flash0.works && s.flash0.nextRevision.isSome then s.flash0.nextRevision else if s.flash1.works then s.flash1.nextRevision else none
  match next with
  | none => s
  | some r =>
    let s := rollbackWrite (fun e => { e with chartFloor := larger e.chartFloor r.upToSeq }) s
    let put (f : Flash) : Flash := if f.works then { f with chart := revise r f.chart, nextRevision := none } else f
    { s with
      flash0 := put s.flash0, flash1 := put s.flash1
      dies := s.dies.mapVal (fun _ d => { d with counters := {} })
      stores := s.stores.mapVal (fun _ r => { r with counters := { r.counters with mapped := 0 } })
      log := { s.log with revisions := s.log.revisions ++ [(r.upToSeq, s.reck.lifeSec)] } }

/-- The union of both copies' entries whose CRC checks, in order of SEQ_NO; an entry in one copy only goes into the other (R21). -/
def readChart (s : State) : State :=
  let a := if s.flash0.works then s.flash0.chart else []
  let b := if s.flash1.works then s.flash1.chart else []
  let ok := fun (e : ChartEntry) => e.crcOk && e.seqNo != 0
  let all := (a.filter ok ++ b.filter (fun e => ok e && !a.any (fun x => ok x && x.seqNo == e.seqNo))).mergeSort (fun x y => decide (x.seqNo ≤ y.seqNo))
  let put (f : Flash) : Flash := if f.works then { f with chart := f.chart ++ all.filter (fun e => !f.chart.any (fun x => ok x && x.seqNo == e.seqNo)) } else f
  { s with flash0 := put s.flash0, flash1 := put s.flash1, build := { s.build with chart := all, chartFull := decide (chartCapacity ≤ all.length) } }

/-- A retired cluster of the chart, as R33, R34 and R519 retire it: a standby or spare cluster without a replacement, another with one or
left unmapped. A spare site that holds a placeable number when its own entry comes is replaced as any other site that does, although it was
retired as the pending replacement of that number (DESIGN CHOICE: notes/assumptions/58.md). -/
def replayRetire (i : Nat) (s : State) : State :=
  let n := s.logicalAt i
  if (s.site i).retired then s
  else
    let s := updSite i (fun r => { r with retired := true }) s
    if placeableLimit s.orderCode ≤ n then s
    else
      match replacementFor s n with
      | none => { s with build := { s.build with unmapped := s.build.unmapped ++ [n] } }
      | some m => { s with build := { s.build with map := (s.build.map.set n (s.siteOf m)).set m (s.siteOf n) } }

/-- The map built from the record, and the retirements of the chart applied to it in order of SEQ_NO (R22, R30, R31). A site lost in
an earlier life is out by its entry alone, so that each entry takes the replacement it took when it was made. -/
def rebuildMap (s : State) : State :=
  let s := { s with
    sites := s.sites.mapVal (fun i r => { r with retired := false, lost := s.life.abandoned.contains i })
    build := { s.build with map := buildMap s, unmapped := [], exchanges := [] } }
  (s.build.chart ++ s.build.volatile).foldl (fun s e => if e.unit.unit = 0x08 then replayRetire ((unitDie e.unit).getD 100) s else s) s

/-- Every other entry applied, with the spares of each memory and array taken afresh in order of SEQ_NO (R21, R22). -/
def applyChart (s : State) : State :=
  let s := { s with
    stores := s.stores.mapVal (fun _ r => { r with remap := [], badSpares := [] })
    clusters := s.clusters.mapVal (fun _ c => { c with cores := c.cores.mapVal (fun _ m => { m with arrays := m.arrays.mapVal (fun _ a => { a with spareRow := none, spareCol := none }) }) })
    build := { s.build with segmentsOut := [] } }
  (s.build.chart ++ s.build.volatile).foldl (fun s e => if e.unit.unit = 0x08 then s else applyEntry e s) s

/-- The lasting outcomes without a chart code, applied again (R390): a copy of the sequence engine, and Reckoner instances. -/
def applyNoChart (s : State) : State :=
  s.log.noChartLasting.foldl (fun s (cls, u) =>
    if cls = 0x03 then { s with errs := { s.errs with seqCopyOff := true } }
    else if cls = 0x11 then { s with reck := { s.reck with faulty := union s.reck.faulty [unitPos u] } }
    else s) s

/-- The chart and the record read and applied, the map derived from them. -/
def readBuild (s : State) : State :=
  applyNoChart (applyChart (rebuildMap (chooseRecord (takeNextRecord (readChart (takeNextRevision s))))))

/-! ### Stages (R404, R409, R413) -/

/-- The findings of a stage, as the start-up self-test reports and repairs them. -/
def stageFindings (r : StageReport) (s : State) : State := r.findings.foldl (fun s f => startupFinding 0x02 f s) s

/-- Every region within the limits of the sites that are powered (R29). -/
def regionsWithin (s : State) : State :=
  (List.range 25).foldl (fun s r => updRegion r (fun g => { g with
    freq := regionFreq s r g.freq, want := g.want.map (regionFreq s r), next := g.next.map (regionFreq s r) }) s) s

/-- The enabled and spare sites that are in service. -/
def sitesForTests (s : State) : List Nat :=
  (List.range 100).filter (fun i => !siteDisabled s i && !(s.site i).retired && !(s.site i).lost && coolEnough s i)

/-- The power-up of a start, in the waves of R357, begins. -/
def wavesForTests (s : State) : State := requestWaves (sitesForTests s) s

/-- Every wave of a start has come up by the time its tests end: the sites are in service, no region faster than the sites of it permit. -/
def powerForTests (s : State) : State :=
  let s := { s with power := { s.power with waves := [], admission := [] } }
  regionsWithin ((sitesForTests s).foldl (fun s i =>
    let s := updRegion (siteRegion i) (fun g => { g with pllOn := true, realign := false, alignedAt := some s.now }) s
    loadImages i (zeroCluster (s.logicalAt i) (updSite i (fun r => { r with power := .on, requested := false, clockGated := false, clamped := false }) s))) s)

/-- An accepted DIMM (R307). -/
def dimmFits (d : Spd) : Bool := d.readsWell && d.mrdimm && decide (8800 ≤ d.speed) && [64, 96, 128, 256].contains d.capGb

/-- A bay whose SPD a start reads: the record enables it, and its memory die works. -/
def bayRead (s : State) (c : Nat) : Bool := chanEnabled s c && !(s.die (chanDie c)).failed

/-- The SPD of every populated enabled bay read and judged; the module's channel speed and per-channel capacity follow (R308). A bay that shows
blue stays so (R54). -/
def judgeSpds (r : StageReport) (s : State) : State :=
  let s := r.spds.foldl (fun s (c, d) =>
    if bayRead s c.val then
      updBay c.val (fun b => { b with present := true, dimm := some d, state := if dimmFits d || b.state = .safe then b.state else .rejected }) s
    else s) s
  let s := r.spds.foldl (fun s (c, d) => if bayRead s c.val && !dimmFits d then note .dimmRejected c.val 0 s else s) s
  let good := r.spds.filter (fun x => bayRead s x.1.val && dimmFits x.2)
  { s with build := { s.build with
      channelSpeed := if good.isEmpty then 0 else if good.all (fun x => decide (12800 ≤ x.2.speed)) then 12800 else 8800
      channelGb := match good with
        | [] => 0
        | x :: l => l.foldl (fun m y => min m y.2.capGb) x.2.capGb } }

/-- A DIMM at its channel: a new one clears the counters and the marks of the channel (R312, R326). -/
def seatDimm (c : Nat) (d : Spd) (s : State) : State :=
  let same := (s.bay c).dimm.any (fun o => o.identity == d.identity)
  let s := if same then s else { s with log := { s.log with deviceMarks := s.log.deviceMarks.drop c } }
  updChan c (fun r => if same then r else { r with ce := 0, ue := 0, marks := [], repeats := [], retrains := 0 }) s

/-- A bay at the start of training: unpowered where the record disables it or no DIMM is seated; with its DIMM mapped out where the channel is
out of service (R30, R49, R309); else as it was. -/
def bayAtStart (s : State) (r : StageReport) (c : Nat) (b : BayRec) : BayRec :=
  let seated := r.spds.any (fun x => x.1.val == c && dimmFits x.2)
  { b with state :=
      if !chanEnabled s c then .empty
      else if b.state.powered && !r.spds.any (fun x => x.1.val == c) then .empty
      else if seated && !chanUsable s c && b.state ≠ .safe then .mappedOut
      else b.state }

/-- Every channel trained: those with an accepted DIMM come into service; a failed one acts by R316. -/
def trainChannels (r : StageReport) (s : State) : State :=
  let s := (List.range 48).foldl (fun s c =>
    updBay c (bayAtStart s r c) <| updChan c (fun x => { x with
      state := if !chanEnabled s c then .disabled else if chanUsable s c then .out else if x.state = .fault then .fault else .out
      trained := false, selfRefresh := false, retrain := none, sliceAt := none, hotSince := (none, none), heatOut := false }) s) s
  r.spds.foldl (fun s (c, d) =>
    if !(chanUsable s c.val && dimmFits d) then s
    else
      match r.trainFails.find? (fun x => x.1 == c) with
      | some x => channelFails 0x02 c.val x.2 s
      | none =>
        updBay c.val (fun b => { b with state := .inService }) (updChan c.val (fun x => { x with state := .inService, trained := true, tempTrained := x.tempMax, trainedAt := s.now }) s)) s

/-- SPDs, channels, ports and TRAIN_MODE (R307 to R309, R315, R407, R427). The DIMM in a bay before the start is known by its identity. -/
def trainStage (r : StageReport) (s : State) : State :=
  let s := r.spds.foldl (fun s (c, d) => if bayRead s c.val then seatDimm c.val d s else s) s
  let s := trainChannels r (judgeSpds r s)
  let s := { s with build := { s.build with trainMode := s.setting .trainMode } }
  r.ports.foldl (fun s (p, ok, n) => portTrains p.val ok n s) s

/-- The bursts of a report that a channel in service reads, with what their codes find: corrections count, and an uncorrectable burst is an error of
class 0x09 (R312, R313). -/
def readBursts (l : List (Chan × Nat × BurstFinding)) (s : State) : State :=
  l.foldl (fun s (c, a, f) =>
    if (s.chan c.val).state ≠ .inService then s
    else
      let bad := burstRead (s.chan c.val).marks f = .uncorrectable
      let s := readBurst (c.val * 2 ^ 38 + a % 2 ^ 38) f s
      if bad then detect 0x09 (chanUnit c.val) {} (updChan c.val (fun r => { r with ue := satAdd r.ue 1 }) s) else s) s

/-- A warm start reads every channel back once, as zeros (R413). -/
def readBack (r : StageReport) (s : State) : State := readBursts r.memBursts s

/-- The memory test: a channel with a repeated uncorrectable burst goes out for this power cycle, its DIMM
reported; correctable errors count towards device marks from the start of the test, and the channels are then zero-filled (R312, R408). -/
def memoryTest (r : StageReport) (s : State) : State :=
  let s := { s with chans := s.chans.mapVal (fun _ c => { c with repeats := [] }) }
  let s := r.memBursts.foldl (fun s (c, a, f) => if (s.chan c.val).state = .inService then readBurst (c.val * 2 ^ 38 + a % 2 ^ 38) f s else s) s
  let s := { s with dimm := [], dimmBad := [] }
  r.memFails.foldl (fun s c =>
    if (s.chan c.val).state ≠ .inService then s
    else
      let s := updBay c.val (fun b => { b with state := .mappedOut }) (updChan c.val (fun x => { x with state := .fault, trained := false }) s)
      note .dimmBlamed c.val 0 { s with life := { s.life with abandoned := s.life.abandoned ++ [200 + c.val] } }) s

/-- A unit that held a detection record without an outcome, and has passed the start-up self-test (R394, R409). -/
def oldTests (s : State) : State := s.errs.tests.foldl (fun s t => conclude 0x02 t (.notReproduced true) s) s

/-- The last stage: the map built, sites down, RESETTING cleared and READY set; orders that have waited for the end of the start are served (R367). -/
def startReady (s : State) : State :=
  let s := oldTests s
  let s := allDark (applyChart (rebuildMap s))
  let s := { s with
    build := { s.build with gradeDue := true }
    power := { s.power with learned := [], admission := [], waves := [] }
    life := { s.life with phase := .running, ready := true, resetting := false, resetAt := none } }
  let s := settleRef (raise 0 evStatus s)
  serveOrders s s.life.orders.length

/-! ### The cold start (R402 to R411) -/

/-- What begins a cold start in a state. -/
def coldMayBegin (c : ColdCause) (s : State) : Bool :=
  match c with
  | .inputQualified => !s.life.inputOk && !s.life.aonOn
  | .faultCleared => !s.life.inputOk && s.life.aonOn
  | .onOrder => decide (s.life.power = .off) && s.life.orders.any (fun o => decide (o.state = .on))
  | .wake => decide (s.life.power = .off) && s.life.orders.any (fun o => decide (o.state = .on))

/-- The orders after the first ON among them. -/
def afterOn : List PowerOrder → List PowerOrder
  | [] => []
  | o :: r => if o.state = .on then r else afterOn r

/-- COLD_START: base and always-on rails come up, POS[3:0] is read where the always-on domain starts, and the mesh locks, every instance
starting at 0 where input power has just arrived. -/
def coldStart (c : ColdCause) (pos : BitVec 4) (s : State) : State :=
  if !coldMayBegin c s then s
  else
    let fresh := !s.life.aonOn
    let s := relayFails s
    { s with
      life := { s.life with
        aonOn := true, inputOk := true, meshLocked := true, pos := if fresh then pos else s.life.pos, phase := .cold .serviceBoot, ready := false
        resetting := true, stageDone10 := false, power := .on, entering := none, orders := afterOn s.life.orders, resetAt := none, cycleReason := if fresh then none else s.life.cycleReason
        heaterTimeout := false, abandoned := [] }
      reck := if fresh then { s.reck with now := 0, slew := 0, slewTick := 0, offset := [], faulty := [] } else s.reck
      sites := s.sites.mapVal (fun _ r => { retired := r.retired, phasesOff := [] })
      dies := s.dies.mapVal (fun _ d => { d with failed := false, sensorsOut := [], oddSince := [], temps := [], active := none, other := none })
      bin := { s.bin with bays := s.bin.bays.mapVal (fun _ r => bayAfresh r) }
      stores := s.stores.mapVal (fun _ r => { r with badFree := [] })
      flash0 := { s.flash0 with works := !chartedOut s 0x0E 0 }, flash1 := { s.flash1 with works := !chartedOut s 0x0E 1 }
      pair := { s.pair with ports := s.pair.ports.mapVal (fun _ p => { p with mapped := false, lanesOut := [] }) }
      wafer := { alignedAt := if fresh then some 0 else s.wafer.alignedAt, realigned := if fresh then [] else s.wafer.realigned }
      link := { s.link with lanesOut := 0 }
      power := { s.power with regions := [], partnerBad := true, ownBad := false }
      build := { s.build with volatile := [], exchanges := [] }
      errs := { s.errs with seqCopyOff := false, tests := s.errs.tests.map (fun t => { t with started := false }) } }

def execColdStart (cause : ColdCause) (pos : BitVec 4) (s : State) : Out := done s (coldStart cause pos)

/-- A start goes no further from the recovery bank; with no firmware that verifies, no service die is active either (R509). -/
def noBank (s : State) : State :=
  { s with
    life := { s.life with phase := .running, resetting := false }
    mgmt := { s.mgmt with active := if s.life.firmware = .none then none else s.mgmt.active } }

/-- The first stage: firmware, service dies, settings, record and chart; from the recovery bank, or with none, the start goes no further
(R509). -/
def bootStage (r : StageReport) (s : State) : State :=
  let s := bootFirmware r (loadSettings (bootService r (rollbackUnion s)))
  match s.life.firmware with
  | .bank _ _ => { readBuild s with life := { s.life with phase := .cold .wires } }
  | .recovery => noBank s
  | .none => noBank s

/-- COLD_START_STAGE: a stage ends with what it found, and the next begins. -/
def coldStartStage (r : StageReport) (s : State) : State :=
  let go (p : ColdStage) (s : State) : State := { s with life := { s.life with phase := .cold p } }
  match s.life.phase with
  | .cold .serviceBoot => bootStage r s
  | .cold .wires =>
    let s := loadRingDies (installRoutes (stageFindings r s))
    go .segments { s with life := { s.life with stageDone10 := true }, link := { s.link with training := !s.life.perstOn } }
  | .cold .segments => go .sites (wavesForTests (stageFindings r s))
  | .cold .sites => go .heater (stageFindings r (powerForTests s))
  | .cold .heater => s
  | .cold .training =>
    let s := if s.link.up then linkTrain r.linkWidth r.linkSpeed s.link.flit s else s
    go .memoryTest (stageFindings r (trainStage r s))
  | .cold .memoryTest => go .mapReady (stageFindings r (memoryTest r s))
  | .cold .mapReady => startReady s
  | .warm _ => s
  | .unpowered => s
  | .running => s

def execColdStartStage (r : StageReport) (s : State) : Out := done s (coldStartStage r)

/-- Every powered die's hottest sensor lies within 55 to 80 °C (R406). -/
def diesInBand (s : State) : Bool :=
  (List.range 122).all (fun d => (d < 100 && decide ((s.site d).power = .dark)) || (s.die d).failed || (decide (550 ≤ hottest s d) && decide (hottest s d ≤ 800)))

/-- HEATER_END: every die in the band for 10 s, or 150 s passed with HEATER_TIMEOUT reported and logged. -/
def heaterEnd (inBand : Bool) (s : State) : State :=
  if s.life.phase = .cold .heater && !(inBand && !diesInBand s) then
    let s := { s with life := { s.life with phase := .cold .training, heaterTimeout := !inBand } }
    if inBand then s else note .heaterTimeout 0 0 { s with log := { s.log with heaterTimeouts := s.log.heaterTimeouts + 1 } }
  else s

def execHeaterEnd (inBand : Bool) (s : State) : Out := .next (heaterEnd inBand s)

/-! ### The warm start (R412 to R414, R425) -/

/-- GLB_MODULE_RESET: the key, through the PF. -/
def glbModuleReset (f : Fn) (v : W32) (s : State) : State :=
  if s.link.up && f.val == 0 && v == 0x4D525354 then moduleReset s else s

def execGlbModuleReset (fn : Fn) (value : W32) (s : State) : Out := done s (glbModuleReset fn value)

/-- The stage after the sites are down: the chart re-applied, and the records that packages wrote taken up; firmware staged while the
recovery bank ran is booted. -/
def warmScrub (r : StageReport) (s : State) : State :=
  let s := match s.life.firmware with
    | .bank _ _ => s
    | .recovery => bootFirmware r (rollbackUnion s)
    | .none => bootFirmware r (rollbackUnion s)
  installRoutes (readBuild s)

/-- WARM_START_STAGE: a stage ends, and the next begins. -/
def warmStartStage (r : StageReport) (s : State) : State :=
  let go (p : WarmStage) (s : State) : State := { s with life := { s.life with phase := .warm p } }
  match s.life.phase with
  | .warm .sitesDown => go .scrub (allDark s)
  | .warm .scrub =>
    let s := warmScrub r s
    match s.life.firmware with
    | .bank _ _ => go .retest { wavesForTests s with life := { s.life with stageDone10 := true }, link := { s.link with training := !s.life.perstOn } }
    | .recovery => noBank s
    | .none => noBank s
  | .warm .retest => go .mapReady (stageFindings r (readBack r (trainStage r (powerForTests s))))
  | .warm .mapReady => startReady s
  | .cold _ => s
  | .unpowered => s
  | .running => s

def execWarmStartStage (r : StageReport) (s : State) : Out := done s (warmStartStage r)

/-- MODULE_RESET_READY_TIMEOUT: READY has not been set within 60 s of acceptance; the service die requests a power cycle. -/
def moduleResetReadyTimeout (s : State) : State :=
  if s.life.resetAt.isSome && !s.life.ready && s.mgmt.active.isSome then requestCycle 0x01 { s with life := { s.life with resetAt := none } } else s

def execModuleResetReadyTimeout (s : State) : Out := done s moduleResetReadyTimeout

end Sys2Proof.Machine
end

