-- ==== Sys2Proof/Machine/Bays.lean ====
section
/-! DEFINITION. The Binnacle and the bays: attention button, lamp test, pads, latches, cables, the Ethernet link; and the failure of a ring
die (R16, R17, R35, R41 to R55, R310, R322, R323, R378, R465, R475).
Rests on the log entries (notes/assumptions/<n>.md) 43 (DEDUCED), 58 (DESIGN CHOICE), 59 (DESIGN CHOICE). -/
namespace Sys2Proof.Machine

/-- The Binnacle is served: a service die is active and runs a firmware bank; from the recovery bank, or with no firmware, it is not
(R11, R509). -/
def binnacleServed (s : State) : Bool :=
  s.life.aonOn && s.mgmt.active.isSome && (match s.life.firmware with
    | .bank _ _ => true
    | .recovery => false
    | .none => false)

/-! ### LEDs (R41, R44, R45) -/

/-- What an LED shows. -/
inductive LedCode where
  | off
  | steady (c : Colour)
  | blink (c : Colour) (milliHz : Nat)
  | greenAmber                          -- the two in turn at 1 Hz
  | amberThree (after : BayState)       -- three amber blinks, then the code of the state
  deriving DecidableEq, Repr

/-- The code of the status LED, and whether it is off for 0.2 s in each 2 s (R44). Of two codes at once the activation's stands before the
start's, and the start's before the grade's; with the input out of its range the LED is off, as with no input power (DESIGN CHOICE:
notes/assumptions/59.md). -/
def statusLed (s : State) : LedCode × Bool :=
  let code :=
    if !s.life.inputOk then LedCode.off
    else if s.update.activating then .greenAmber
    else if starting s then .blink .green 1000
    else if s.build.recordBad then .blink .amber 2000
    else match s.build.grade with
      | 0 => .steady .green
      | 1 => .steady .amber
      | _ => .blink .amber 2000
  (code, decide (code ≠ .off) && decide (s.life.power ≠ .on))

/-- The locate LED (R44). -/
def locateLed (s : State) : LedCode := if s.bin.locate then .steady .blue else .off

/-- The LED of a bay by its state (R45); one whose supplies are still falling shows what it showed while its pages moved, and a powered DIMM that
is mapped out shows amber (DESIGN CHOICE: notes/assumptions/59.md). -/
def stateLed : BayState → LedCode
  | .empty => .off
  | .unpowered => .steady .blue
  | .inService => .steady .green
  | .queued => .blink .green 500
  | .migrating => .blink .green 1000
  | .emptied => .blink .green 1000
  | .bringUp => .blink .green 1000
  | .safe => .steady .blue
  | .faulted => .steady .amber
  | .rejected => .blink .amber 2000
  | .mappedOut => .steady .amber

/-- What the LED of a bay shows: nothing where the record disables the bay, or with no supply for the LED itself (DESIGN CHOICE:
notes/assumptions/59.md). -/
def bayLed (s : State) (b : Nat) : LedCode :=
  if !chanEnabled s b || !s.life.aonOn then .off
  else if (s.bay b).blinks then .amberThree (s.bay b).state
  else stateLed (s.bay b).state

/-- An LED while a lamp test runs (R41). -/
def lampShown (s : State) (c : LedCode) : LedCode :=
  match s.bin.lamp with
  | some x => .steady x
  | none => c

/-- The number of an LED code in an answer (DESIGN CHOICE: notes/assumptions/59.md). -/
def LedCode.number : LedCode → Nat
  | .off => 0
  | .steady .green => 1
  | .steady .amber => 2
  | .steady .blue => 3
  | .blink .green f => 16 + f / 500
  | .blink .amber f => 32 + f / 500
  | .blink .blue f => 48 + f / 500
  | .greenAmber => 64
  | .amberThree _ => 65

/-! ### The attention button (R41, R42) -/

/-- ATTENTION_BUTTON_CONTACT: a press begins. -/
def buttonContact (s : State) : State :=
  if s.life.aonOn && s.bin.press.isNone then { s with bin := { s.bin with press := some s.now, held := false } } else s

def execAttentionButtonContact (s : State) : Out := .next (buttonContact s)

/-- The action of a press by its length in ticks. -/
def pressAction (n : Nat) (s : State) : State :=
  if n < msTicks 2000 then { s with bin := { s.bin with locate := !s.bin.locate } }
  else if n < msTicks 8000 then { s with bin := { s.bin with lamp := some .green } }
  else s

/-- ATTENTION_BUTTON_RELEASE: under 50 ms ignored; else logged, and acted on by its length unless it has passed the 15 s mark. Nothing
follows while the Binnacle is not served. -/
def buttonRelease (s : State) : State :=
  match s.bin.press with
  | none => s
  | some t =>
    let n := s.since t
    let held := s.bin.held
    let s := { s with bin := { s.bin with press := none, held := false } }
    if held || n < msTicks 50 || !binnacleServed s then s
    else pressAction n (binnacleEvent 0x01 0xFF (BitVec.ofNat 16 (n / msTicks 10)) s)

def execAttentionButtonRelease (s : State) : Out := .next (buttonRelease s)

/-- ATTENTION_BUTTON_HELD_15S: the press is logged, and orders a module reset. -/
def buttonHeld (s : State) : State :=
  match s.bin.press with
  | none => s
  | some t =>
    if s.bin.held || s.since t < msTicks 15000 || !binnacleServed s then s
    else moduleReset (binnacleEvent 0x01 0xFF 1500 { s with bin := { s.bin with held := true } })

def execAttentionButtonHeld15s (s : State) : Out := done s buttonHeld

/-- LAMP_TEST_STEP: the next colour, and after the last the LEDs show their states again. The order green, amber, blue is the model's
(DESIGN CHOICE: notes/assumptions/58.md). -/
def lampStep (s : State) : State :=
  { s with bin := { s.bin with lamp := match s.bin.lamp with
      | some .green => some .amber
      | some .amber => some .blue
      | some .blue => none
      | none => none } }

def execLampTestStep (s : State) : Out := .next (lampStep s)

/-! ### Pads (R43, R45 to R49, R53) -/

def State.pad (s : State) (b : Nat) : Pad := s.bin.pads.getD b {}
def updPad (b : Nat) (f : Pad → Pad) (s : State) : State := { s with bin := { s.bin with pads := s.bin.pads.update b {} f } }

/-- PAD_CONTACT: a contact begins; after a registered touch it counts only if the pad had been released for 0.5 s. -/
def padContact (b : Nat) (s : State) : State :=
  if !s.life.aonOn || (s.pad b).contact.isSome then s
  else updPad b (fun p => { p with
    contact := some s.now, registered := false
    armed := p.armed || (match p.released with
      | some t => decide (msTicks 500 ≤ s.since t)
      | none => true) }) s

def execPadContact (b : Chan) (s : State) : Out := .next (padContact b.val s)

/-- PAD_CONTACT_RELEASE. -/
def padRelease (b : Nat) (s : State) : State :=
  if (s.pad b).contact.isNone then s else updPad b (fun p => { p with contact := none, released := some s.now, registered := false }) s

def execPadContactRelease (b : Chan) (s : State) : Out := .next (padRelease b.val s)

/-- Channels out of service once every removal accepted, every channel that is leaving, and this one have gone. -/
def outAfter (s : State) (b : Nat) : Nat :=
  chansOut s + count (List.range 48) (fun x => decide (x ≠ b) && chanEnabled s x
    && (decide ((s.chan x).state = .takingOut)
      || (decide ((s.chan x).state = .inService) && (s.bin.removals.contains x || s.dimmWork.forced.contains x)))) + 1

/-- The pages of a bay can all be placed on the channels that would remain in service: the procedure of R323 carried out on a copy. -/
def placeable (s : State) (b : Nat) : Bool :=
  let leave := b :: s.bin.removals
  let t := leave.foldl (fun s x => updChan x (fun r => if r.state = .inService then { r with state := .takingOut } else r) s) s
  ((pagesOn t b).foldl (fun (t : Option State) x => t.bind (fun t => if (pagesOn t b).contains x then placePage x.1 x.2 t else some t)) (some t)).isSome

/-- R46: what refuses a removal; a state other than fully on begins with its entry (DESIGN CHOICE: notes/assumptions/58.md). -/
def removalRefused (s : State) (b : Nat) : Bool :=
  starting s || decide (s.life.phase ≠ .running) || decide (s.life.power ≠ .on) || s.life.entering.isSome || !chanEnabled s b
    || decide (4 < outAfter s b) || !placeable s b

/-- A removal is accepted: the bay migrates, or is queued behind another. -/
def acceptRemoval (b : Nat) (s : State) : State :=
  let first := s.bin.removals.isEmpty
  let s := { s with bin := { s.bin with removals := s.bin.removals ++ [b] } }
  requestRemoval b (updBay b (fun r => { r with state := if first then .migrating else .queued, blinks := false }) s)

/-- A removal is cancelled: pages already moved stay where they are, and the bay stays in service (R48); a channel that is to leave for a cause of
its own leaves all the same (R312, R316). -/
def cancelRemoval (b : Nat) (s : State) : State :=
  let s := updBay b (fun r => { r with state := .inService }) { s with bin := { s.bin with removals := s.bin.removals.filter (· ≠ b) } }
  if s.dimmWork.forced.contains b then s
  else updChan b (fun r => if r.state = .takingOut then { r with state := .inService } else r) (forgetChannel b s)

/-- What a registered touch does, by the state of the bay. A removal can be cancelled until its channel has stopped (R48; DESIGN CHOICE:
notes/assumptions/58.md). -/
def touch (b : Nat) (s : State) : State :=
  match (s.bay b).state with
  | .inService =>
    if removalRefused s b then
      note .bayTouchRefused b 0 (binnacleEvent 0x03 (BitVec.ofNat 8 b) 0 (updBay b (fun r => { r with blinks := true }) s))
    else acceptRemoval b s
  | .queued => cancelRemoval b s
  | .migrating => if (s.chan b).state = .out then s else cancelRemoval b s
  | .safe => updBay b (fun r => { r with state := .bringUp }) s
  | .mappedOut => updBay b (fun r => { r with state := .faulted }) s
  | .empty => s
  | .unpowered => s
  | .faulted => s
  | .rejected => s
  | .emptied => s
  | .bringUp => s

/-- PAD_TOUCH: a contact of 0.5 s registers one touch. -/
def padTouch (b : Nat) (s : State) : State :=
  match (s.pad b).contact with
  | none => s
  | some t =>
    if s.since t < msTicks 500 || (s.pad b).registered || !(s.pad b).armed || !chanEnabled s b || !binnacleServed s then s
    else touch b (binnacleEvent 0x02 (BitVec.ofNat 8 b) 0 (updPad b (fun p => { p with registered := true, armed := false }) (updBay b (fun r => { r with blinks := false }) s)))

def execPadTouch (b : Chan) (s : State) : Out := done s (padTouch b.val)

/-! ### Removal (R47) -/

/-- BAY_MIGRATION_START: the first bay in touch order begins, once the one before it has finished. -/
def bayMigrationStart (b : Nat) (s : State) : State :=
  if s.bin.removals.head? = some b && (s.bay b).state = .queued then requestRemoval b (updBay b (fun r => { r with state := .migrating }) s) else s

def execBayMigrationStart (b : Chan) (s : State) : Out := done s (bayMigrationStart b.val)

/-- BAY_POWER_OFF: the channel of the migrating bay has stopped; PMIC and supplies go off. -/
def bayPowerOff (b : Nat) (s : State) : State :=
  if (s.bay b).state = .migrating && (s.chan b).state = .out then
    updBay b (fun r => { r with state := .emptied })
      (updChan b (fun r => { r with trained := false, retrain := none }) { s with bin := { s.bin with removals := s.bin.removals.filter (· ≠ b) } })
  else s

def execBayPowerOff (b : Chan) (s : State) : Out := done s (bayPowerOff b.val)

/-- BAY_SAFE_BLUE: both supplies have fallen below 0.5 V. -/
def baySafeBlue (b : Nat) (s : State) : State :=
  if (s.bay b).state = .emptied then updBay b (fun r => { r with state := .safe }) s else s

def execBaySafeBlue (b : Chan) (s : State) : Out := .next (baySafeBlue b.val s)

/-! ### Latches (R50 to R53) -/

/-- A powered bay is opened: commands stop, the supplies go off, and every page on the channel is lost. -/
def openBay (b : Nat) (s : State) : State :=
  let n := (pagesOn s b).length
  let s := failReaders (pagesOn s b) s
  let s := forgetChannel b s
  let s := { s with dimmWork := { s.dimmWork with
      old := s.dimmWork.old.filter (fun o => o.place.chan ≠ b), fenced := s.dimmWork.fenced.filter (fun e => e.2.chan ≠ b) } }
  let s := loseChannel b (updChan b (fun r => { r with state := .fault, trained := false, retrain := none, sliceAt := none }) s)
  restoreShortfalls (note .latchLoss b n (updBay b (fun r => { r with state := .faulted }) s))

/-- A DIMM is gone from its bay: its marks go with it (R312). -/
def dimmGone (b : Nat) (s : State) : State :=
  let s := { s with log := { s.log with deviceMarks := s.log.deviceMarks.drop b } }
  updBay b (fun r => { r with present := false, dimm := none })
    (updChan b (fun r => { r with marks := [], repeats := [] }) s)

/-- LATCH_OPEN: the latch switch opens, or presence is lost; a bay that was powered shows amber, one that was not is empty once its DIMM is
gone (R45, R50). -/
def latchOpen (b : Nat) (presenceLost : Bool) (s : State) : State :=
  let s := if presenceLost then binnacleEvent 0x06 (BitVec.ofNat 8 b) 0 s
    else binnacleEvent 0x04 (BitVec.ofNat 8 b) 0 (updBay b (fun r => { r with latchClosed := false, closedAt := none }) s)
  let powered := (s.bay b).state.powered && chanEnabled s b
  let s := if powered then openBay b s else s
  if presenceLost then dimmGone b (if powered then s else updBay b (fun r => { r with state := .empty }) s) else s

def execLatchOpen (b : Chan) (presenceLost : Bool) (s : State) : Out := done s (latchOpen b.val presenceLost)

/-- LATCH_SWITCH_CLOSE: the 2 s begin. -/
def latchSwitchClose (b : Nat) (s : State) : State :=
  if !s.life.aonOn || (s.bay b).latchClosed then s
  else binnacleEvent 0x05 (BitVec.ofNat 8 b) 0 (updBay b (fun r => { r with latchClosed := true, closedAt := some s.now }) s)

def execLatchSwitchClose (b : Chan) (s : State) : Out := .next (latchSwitchClose b.val s)

/-- R51 and R307: a DIMM accepted during operation. -/
def dimmAccepted (s : State) (d : Spd) : Bool := dimmFits d && decide (s.build.channelSpeed ≤ d.speed) && decide (s.build.channelGb ≤ d.capGb)

/-- LATCH_CLOSED: the latch of an unpowered bay has stayed closed for 2 s with a DIMM present; in a power state other than ON the DIMM is
judged on the return. -/
def latchClosed (b : Nat) (d : Spd) (s : State) : State :=
  let r := s.bay b
  let ripe := match r.closedAt with
    | some t => r.latchClosed && decide (msTicks 2000 ≤ s.since t)
    | none => false
  let s := if s.life.aonOn && !r.present then binnacleEvent 0x07 (BitVec.ofNat 8 b) 0 (updBay b (fun r => { r with
      present := true, state := if r.state = .empty then .unpowered else r.state }) s) else s
  if !ripe || !binnacleServed s || r.state.powered || decide (s.life.phase ≠ .running) || decide (s.life.power ≠ .on) || s.life.entering.isSome
      || (!chanUsable s b && r.state ≠ .safe) || !chanEnabled s b then s
  else if dimmAccepted s d then updBay b (fun r => { r with state := .bringUp, dimm := some d, closedAt := none }) (seatDimm b d s)
  else note .dimmRejected b 0 (updBay b (fun r => { r with state := .rejected, dimm := some d, closedAt := none }) s)

def execLatchClosed (b : Chan) (spd : Spd) (s : State) : Out := done s (latchClosed b.val spd)

/-- DIMM_ENTER_SERVICE: trained, tested and zero-filled, the DIMM serves; its blocks restore shortfalls first. -/
def dimmEnterService (b : Nat) (s : State) : State :=
  if (s.bay b).state ≠ .bringUp then s
  else
    let s := dimmClear (b * 2 ^ 38) (2 ^ 38) s
    let s := { s with dimmBad := s.dimmBad.filter (fun w => w / 2 ^ 32 ≠ b) }
    let s := updChan b (fun r => { r with
      state := .inService, trained := true, heatOut := false, hotSince := (none, none)
      tempTrained := r.tempMax, trainedAt := s.now, selfRefresh := false, retrain := none, sliceAt := none }) s
    restoreShortfalls (updBay b (fun r => { r with state := .inService }) s)

def execDimmEnterService (b : Chan) (s : State) : Out := done s (dimmEnterService b.val)

/-! ### Cables and Ethernet (R35, R55, R475) -/

/-- Records kept while the collector was unreachable are sent in order of generation, none of them twice. -/
def flushKept (s : State) : State :=
  if s.mgmt.active.isNone || collectorDown s || s.setting .svcCollectorAddr = 0 then s
  else
    (s.mgmt.kept.filter (fun r => decide (r.level ≤ s.setting .svcStreamLevel))).foldl (fun s r => sendNow r s) { s with mgmt := { s.mgmt with kept := [] } }

/-- CABLE_PRESENCE_CHANGE. -/
def cableChange (k : CableConn) (present : Bool) (identity : W64) (s : State) : State :=
  let code := match k with
    | .pcie => 0
    | .consort p => p.val + 1
  let s := note .cableChange code (if present then 1 else 0) (binnacleEvent 0x08 0xFF (BitVec.ofNat 16 (code + if present then 2 ^ 15 else 0)) s)
  match k with
  | .pcie =>
    let s := { s with bin := { s.bin with pcieCable := present } }
    if present then { s with link := { s.link with training := s.life.stageDone10 && !s.life.perstOn } }
    else
      let s := if s.link.up then linkDown s else s
      { s with link := { s.link with training := false } }
  | .consort p =>
    if present then
      let s := note .cableIdentity p.val identity.toNat { s with bin := { s.bin with consortCables := s.bin.consortCables.put p.val identity } }
      if portMayTrain s p.val && decide (s.life.phase = .running) then updPort p.val (fun r => { r with training := true }) s else s
    else
      updPort p.val (fun r => { r with training := false }) (portFalls p.val { s with bin := { s.bin with consortCables := s.bin.consortCables.drop p.val } })

def execCablePresenceChange (k : CableConn) (present : Bool) (identity : W64) (s : State) : Out := done s (cableChange k present identity)

/-- ETHERNET_LINK_CHANGE: management traffic stops or resumes. -/
def ethernetChange (up : Bool) (s : State) : State :=
  if s.bin.ethernet = up then s
  else
    let s := { s with bin := { s.bin with ethernet := up } }
    flushKept (note .cableChange 5 (if up then 1 else 0) (binnacleEvent 0x08 0xFF (BitVec.ofNat 16 (5 + if up then 2 ^ 15 else 0)) s))

def execEthernetLinkChange (up : Bool) (s : State) : Out := done s (ethernetChange up)

/-! ### A ring die fails (R16, R17, R378) -/

/-- RING_DIE_FAILURE: a memory, host, Consort, service or flash die; its duplicate carries on, or what it serves goes out of service. The
failure of the active service die is recorded by the standby that takes over (R464). -/
def ringDieFails (d : Nat) (s : State) : State :=
  if d < 100 || d = resonatorDie || (s.die d).failed then s
  else
    let act := match s.mgmt.active with
      | some n => decide (serviceDies.getD n.val 0 = d)
      | none => false
    ringDieGone d (if act then s else detect 0x14 (dieUnit 0x00 d 0 0 0) {} s)

def execRingDieFailure (d : DieId) (s : State) : Out := done s (fun s => plannedTakeover s (ringDieFails d.val s))

end Sys2Proof.Machine
end

