-- ==== Sys2Proof/Machine/Streams.lean ====
section
/-! DEFINITION. What the stream frames of a pair do once it is their turn: forwarded set-up commands and descriptors, start times, digests,
mirror points, snapshots and copies (R432, R438 to R447, R449 to R453).
Rests on the log entries (notes/assumptions/<n>.md) 19 (DEDUCED), 26 (DESIGN CHOICE), 46 (DEDUCED), 47 (DEDUCED). -/
namespace Sys2Proof.Machine

/-! ### Set-up commands forwarded (R438) -/

/-- The first groups that this module may place, as many as a bitmap names (R438). -/
def ownGroups (s : State) (groups : Byte) : Option (List Nat) :=
  let n := (groupList groups).length
  let l := ((List.range 8).filter (fun g => groupPlaceable s g && !s.parts.any (fun e => e.2.groups.contains g))).take n
  if l.length = n then some l else none

/-- A partition that this module cannot form after all, its contexts with it (R438). -/
def unformPartition (p : Nat) (s : State) : State :=
  dropPartition p (((s.ctxs.select (fun _ k => k.part.val == p)).keys).foldl (fun s c => destroyCtx (asCtx c) s) s)

/-- A context number of a forwarded command, where the context exists. -/
def fwdCtx (s : State) (c : Byte) : Option (CtxId × Context) :=
  if h : c.toNat < 64 then (s.ctx c.toNat).map (fun k => (⟨c.toNat, h⟩, k)) else none

/-- A forwarded set-up command applied with the same numbers. A partition that this module cannot form is left out, with the contexts that
would be in it. -/
def applySetup (x : ForwardedSetup) (s : State) : State :=
  match x with
  | .partCreate p g =>
    match ownGroups s g with
    | some l => if p.toNat < 8 && !s.parts.has p.toNat then makePartition p.toNat l (s.pair.mode == 2) s else s
    | none => s
  | .partDestroy p => dropPartition p.toNat s
  | .ctxCreate c p f q =>
    if h : p.toNat < 8 then
      if c.toNat < 64 && s.parts.has p.toNat then makeCtx c.toNat ⟨p.toNat, h⟩ f q .secured s else s
    else s
  | .ctxDestroy c =>
    match fwdCtx s c with
    | some (c, _) => destroyCtx c s
    | none => s
  | .ctxConfig b =>
    match fwdCtx s b.context with
    | none => s
    | some (c, k) =>
      if !bit b.sections 0 then updCtx c.val (configCtx b) s
      else
        match assignPool s (kvOf b).blocks with
        | some pool => updCtx c.val (configCtx b) (setKv c b pool s)
        | none => unformPartition k.part.val s
  | .granuleGrant c gs =>
    match fwdCtx s c with
    | some (c, _) => grantAll c ((gs.map (·.toNat)).filter (fun g => decide (g < 24576) && s.owner g != 0x42)) s
    | none => s
  | .granuleReturn c gs =>
    match fwdCtx s c with
    | some (c, _) => fenceGranules c ((gs.map (·.toNat)).filter (fun g => s.owner g == BitVec.ofNat 8 c.val)).eraseDups s
    | none => s
  | .markCreate c v kind t x p phys =>
    match fwdCtx s c with
    | some (c, _) => if h : phys.toNat < 8192 then makeMark c v.toNat ⟨phys.toNat, h⟩ kind t x p.toNat s else s
    | none => s
  | .markShare c v o w _ =>
    match fwdCtx s c, fwdCtx s o with
    | some (c, _), some (_, y) =>
      match y.vmarks.find w.toNat with
      | some n => mapMark c v.toNat n s
      | none => s
    | _, _ => s
  | .markUnmap c v =>
    match fwdCtx s c with
    | some (c, _) => unmapMark c.val v.toNat s
    | none => s
  | .markSignal c v m x =>
    match fwdCtx s c with
    | some (_, k) =>
      match k.vmarks.find v.toNat with
      | some n => applyMark n.val m.toNat x .host s
      | none => s
    | none => s
  | .gangJoin c v =>
    match fwdCtx s c with
    | some (c, k) =>
      match k.vmarks.find v.toNat with
      | some n => gangAdd n c s
      | none => s
    | none => s
  | .gangLeave c v =>
    match fwdCtx s c with
    | some (c, k) =>
      match k.vmarks.find v.toNat with
      | some n => gangRemove n.val c s
      | none => s
    | none => s

/-- SETUP_FWD, on the secondary of a mirrored or locked pair. -/
def setupForwarded (x : ForwardedSetup) (s : State) : State := if isSecondary s then applySetup x s else s

/-! ### What the primary sends of the set-up it already holds (R438, R460) -/

/-- The set-up commands that make a context as it stands, without its marks. -/
def setupOf (s : State) (c : Nat) (k : Context) : List ForwardedSetup :=
  let n := BitVec.ofNat 8 c
  let kv := k.kv.getD ⟨0, 0, false, 0, 0, 0⟩
  [.ctxCreate n (BitVec.ofNat 8 k.part.val) (BitVec.ofNat 8 ((if k.usesSeq then 1 else 0) + if k.debug then 2 else 0)) (BitVec.ofNat 32 k.quota)
  , .granuleGrant n ((ownedBy s (asCtx c)).map (BitVec.ofNat 16 ·))
  , .ctxConfig
    { context := n, sections := if k.kv.isSome then 7 else 6, layers := BitVec.ofNat 8 kv.layers, kvHeads := BitVec.ofNat 8 kv.heads
      kvFormat := if kv.fp8 then 2 else 1, headsPerPage := BitVec.ofNat 8 kv.perPage, poolPages := BitVec.ofNat 32 kv.pool, stepTable := kv.table
      auditRate := BitVec.ofNat 16 k.audit.rate, kselStep := BitVec.ofNat 16 k.audit.kStep, auditWindow := BitVec.ofNat 16 k.audit.window
      returnFlag := if k.audit.back then 1 else 0, missHigh := k.audit.missHigh, missLow := k.audit.missLow
      kselMax := BitVec.ofNat 32 k.audit.kMax, auditSeed := k.audit.seed, stopSets := k.stopSets }]

/-- The set-up commands that make the marks, each mapping of a mark after the first a share, and the gangs. -/
def marksOf (s : State) : List ForwardedSetup :=
  let maps := s.ctxs.flatMap (fun (c, k) => k.vmarks.map (fun (v, m) => (c, v, m.val)))
  maps.map (fun (c, v, m) =>
      match maps.find? (fun y => y.2.2 == m) with
      | some (o, w, _) =>
        if o = c ∧ w = v then
          let x := s.mark m
          .markCreate (BitVec.ofNat 8 c) (BitVec.ofNat 16 v) (BitVec.ofNat 8 x.kind.code) x.target x.value (BitVec.ofNat 32 x.period) (BitVec.ofNat 16 m)
        else .markShare (BitVec.ofNat 8 c) (BitVec.ofNat 16 v) (BitVec.ofNat 8 o) (BitVec.ofNat 16 w) (BitVec.ofNat 16 m)
      | none => .markUnmap (BitVec.ofNat 8 c) (BitVec.ofNat 16 v))
    ++ s.ctxs.filterMap (fun (c, k) => (k.gang.bind (fun g => k.vmarks.find? (fun e => e.2 == g))).map (fun e =>
      .gangJoin (BitVec.ofNat 8 c) (BitVec.ofNat 16 e.1)))

/-- Every partition and context made anew on a secondary that begins to mirror. -/
def sendSetup (s : State) : State :=
  let ps := s.parts.map (fun (p, q) => ForwardedSetup.partCreate (BitVec.ofNat 8 p) (BitVec.ofNat 8 (q.groups.foldl (fun m g => m + 2 ^ g) 0)))
  let cs := s.ctxs.flatMap (fun (c, k) => setupOf s c k)
  (ps ++ cs ++ marksOf s).foldl (fun s x => sendForwarded x s) s

/-- A context begins to be secured: its copy starts empty, and its next point carries its tables. -/
def beginSync (c : Nat) (s : State) : State :=
  let state := newSecuring s ((s.ctx c).elim 8 (·.part.val))
  setSecuring c state (updCtx c (fun k => { k with
    dirty := [], changed := true, restore := [], freedSlots := [], point := 0, secured := none, unsecured := []
    copying := if state = .syncing then k.used.keys else [], returning := [] }) s)

/-! ### Descriptors and steps of a locked pair (R449, R450) -/

/-- A descriptor's effect on the secondary, which has no rings and writes nothing to a host: a token ring named by an admission counts as the
context's. -/
def descOnSecondary (c : CtxId) (d : Desc) (bytes : List Byte) (s : State) : State :=
  match d with
  | .read _ _ _ => s
  | .seqAdmit a =>
    let was := s.tq
    let r : Ring := { ctx := c, fn := 0, log2 := 6, vector := none, base := 0, wb := 0 }
    let s := (descEffect c 0 d bytes { s with tq := s.tq.put a.tokenRing.toNat r }).2
    { s with tq := was }
  | _ => (descEffect c 0 d bytes s).2

/-- A partition of the secondary may take a forwarded step. -/
def mayFollow (s : State) (p : Nat) : Bool :=
  match s.part p with
  | some q => decide (q.state = .ready) && q.step.isNone && q.held.isEmpty && partPowered s q
  | none => false

/-- Forwarded steps begun in the order they were sent, each partition's when it may. -/
def runForwarded (s : State) : State :=
  s.pair.fwdSteps.foldl (fun s x =>
    match s.ctx x.ctx.val with
    | none => { s with pair := { s.pair with fwdSteps := s.pair.fwdSteps.erase x } }
    | some k =>
      if mayFollow s k.part.val then
        let s := updCtx x.ctx.val (fun k => { k with halted := false }) { s with pair := { s.pair with fwdSteps := s.pair.fwdSteps.erase x } }
        beginStep k.part.val { ctx := x.ctx, ring := x.ring, index := x.index, kind := x.kind, program := x.program, count := x.count } k.rotation
          (formBatch x.ctx x.kind x.count [] s)
      else s) s

/-- Bytes of host memory that go with a descriptor. -/
def Desc.hostBytes (d : Desc) : Nat :=
  if d.invalid then 0
  else match d with
    | .programLoad _ n _ => 64 * n.toNat
    | .write _ _ n => n.toNat
    | _ => 0

/-- DESC_FWD, on the secondary of a locked pair: a descriptor acts once all its host bytes have come, in as many frames as they take. -/
def descForwarded (c ring : Byte) (index : W32) (descriptor bytes : List Byte) (s : State) : State :=
  if !isSecondary s || s.pair.mode ≠ 3 then s
  else
    match fwdCtx s c with
    | none => s
    | some (c, _) =>
      let d := descOfBytes descriptor
      let bytes := s.pair.descIn.getD c.val [] ++ bytes
      if bytes.length < d.hostBytes then { s with pair := { s.pair with descIn := s.pair.descIn.put c.val bytes } }
      else
        let s := { s with pair := { s.pair with descIn := s.pair.descIn.drop c.val } }
        if d.invalid then haltCtx c.val s
        else
          match d with
          | .step kind program cnt =>
            runForwarded { s with pair := { s.pair with
              fwdSteps := s.pair.fwdSteps ++ [⟨c, asRing ring.toNat, index, kindOf kind, program.toNat, cnt.toNat⟩] } }
          | _ => descOnSecondary c d bytes s

/-- STEP_START: the start time of a step, which begins to hold for it or is kept until the step has begun here. -/
def stepStarted (c : Byte) (step : W32) (start : W64) (s : State) : State :=
  let s := { s with pair := { s.pair with starts := s.pair.starts.filter (fun y => y.1 != c) ++ [(c, step, start)] } }
  match runningStep s c.toNat with
  | some (p, t) => if t.phase = .begun ∧ t.number = step then updStep p (fun t => { t with phase := .lockedHold start }) s else s
  | none => s

/-! ### Digests (R452, R453) -/

/-- DIGEST: compared with this module's own, or kept until the step ends here. -/
def digestCame (d : DigestBody) (s : State) : State :=
  match runningStep s d.ctx.toNat, s.pair.digests.find? (fun x => x.ctx == d.ctx && x.step == d.step) with
  | some (p, _), some mine => compareStep p mine d s
  | _, _ => { s with pair := { s.pair with theirs := s.pair.theirs.filter (fun x => x.ctx != d.ctx) ++ [d] } }

/-- This module's digests of a cluster for a step, as it sent them. -/
def ownClusterDigest (s : State) (c : Byte) (step : W32) (n : Nat) : Option DigestBody :=
  s.pair.sent.reverse.findSome? (fun f => match f.frame with
    | .clusterDigest c' step' n' d => if c' = c ∧ step' = step ∧ n' = n then some d else none
    | _ => none)

/-- CLUSTER_DIGEST: a cluster whose digests differ is recorded with class 0x03 and tested. -/
def clusterDigestCame (c : Byte) (step : W32) (n : Nat) (d : DigestBody) (s : State) : State :=
  match ownClusterDigest s c step n with
  | none => s
  | some e =>
    if e.dShared = d.dShared ∧ e.dKv = d.dKv ∧ e.dToken = d.dToken ∧ e.dState = d.dState then s
    else
      let s := { s with pair := { s.pair with differ := union s.pair.differ [n] } }
      detect 0x03 (clusterUnit s 0x08 n 0 0 0) { ctx := c, status := stChecksum, step := step, part := (partOf s n).map asPart } s

/-! ### Mirror points (R444, R445) -/

/-- A point whose frames are all in the log is acknowledged and applied. -/
def securePoint (c : CtxId) (point : W32) (s : State) : State :=
  match s.pair.log.find? (fun x => x.ctx == c && x.point == point) with
  | none => s
  | some x =>
    if x.count = some (BitVec.ofNat 32 x.frames.length) then
      let s := { s with pair := { s.pair with log := s.pair.log.filter (fun y => !(y.ctx == c && y.point == point)) } }
      x.frames.foldl (fun s d => applyPiece c d s) (sendFrame (.mirrorAck (BitVec.ofNat 8 c.val) point) s)
    else s

/-- A frame of a point, or its end, put in the log. -/
def logPoint (c : CtxId) (point : W32) (f : PointLog → PointLog) (s : State) : State :=
  let l := if s.pair.log.any (fun x => x.ctx == c && x.point == point) then s.pair.log else s.pair.log ++ [{ ctx := c, point := point }]
  securePoint c point { s with pair := { s.pair with log := l.map (fun x => if x.ctx = c ∧ x.point = point then f x else x) } }

/-- MIRROR_DATA and MIRROR_END, on the secondary of a mirrored pair. -/
def mirrorCame (c : Byte) (point : W32) (f : PointLog → PointLog) (s : State) : State :=
  if isSecondary s then
    match fwdCtx s c with
    | some (c, _) => logPoint c point f s
    | none => s
  else s

/-- MIRROR_ACK: the point is secured, and a step held for the bound may begin. -/
def mirrorAcked (c : Byte) (point : W32) (s : State) : State :=
  if isPrimary s then updCtx c.toNat (fun k => { k with secured := some point.toNat, unsecured := k.unsecured.filter (fun x => decide (point.toNat < x.1)), pairHold := s.pair.held && k.pairHold }) s else s

/-! ### Snapshots (R439 to R441) -/

/-- SNAPSHOT_DATA, on the secondary. -/
def snapshotCame (c : Byte) (d : DataBody) (s : State) : State :=
  if isSecondary s then
    match fwdCtx s c with
    | some (c, _) => applyPiece c d s
    | none => s
  else s

/-- A row is clean: not written since the last point that the secondary has secured (R440). -/
def Context.rowClean (k : Context) (r : Nat) : Bool := !k.dirty.contains r && k.unsecured.all (fun x => !x.2.contains r)

/-- What the snapshot pass of a context reads: its clean rows, its pages with their summaries, and its programs. -/
def snapshotPieces (s : State) (c : CtxId) (k : Context) : List Piece :=
  let rows := (ownedBy s c).flatMap (fun g => (List.range 512).map (fun i => 512 * g + i))
  (rows.filter k.rowClean).map (rowPiece s)
    ++ k.used.flatMap (fun (page, _) =>
      match pageAddr k page, k.kv with
      | some a, some g => pagePieces s a (page * 65536) g.stride ++ summaryPiece s k page
      | _, _ => [])
    ++ programPieces s k

/-- Pages of a context that a copy reads: those that cannot be read are lost (R313). -/
def copyReads (c : CtxId) (pages : List Nat) (s : State) : State :=
  match s.ctx c.val with
  | none => s
  | some k => (pages.filter (fun p => !dataReads s k p || !summaryReads s k p)).foldl (fun s p => pageFails c.val p s) s

/-- SNAPSHOT_PASS_COMPLETE: what it read has gone, the context's tables with it, and the context is SECURED; in locked mode likewise, where both modules
hold the same state (R441). -/
def snapshotPass (c : CtxId) (s : State) : State :=
  match s.ctx c.val with
  | none => s
  | some k =>
    if !isPrimary s || s.pair.silent || !(s.pair.mode == 2 || s.pair.mode == 3) || k.securing ≠ .syncing then s
    else
      let s := copyReads c k.used.keys s
      let s := (snapshotPieces s c k).foldl (fun s x => sendFrame (.snapshot (BitVec.ofNat 8 c.val) (pieceBody s 0xFFFFFFFF x)) s) s
      setSecuring c.val .secured (if k.changed then mirrorPoint c.val [] [] s else s)

def execSnapshotPassComplete (c : CtxId) (s : State) : Out := .next (snapshotPass c s)

/-! ### Copies (R446, R447, R453, R461) -/

/-- What answers a request for a copy. -/
def copyPieces (s : State) (c : CtxId) (k : Context) (object : Byte) (address length : Nat) : List Piece :=
  let tables := (tablePieces s c.val k).filter (fun x => x.1 == object && decide (address ≤ x.2.1) && decide (x.2.1 < address + max 1 length))
  match object.toNat with
  | 0 => (List.range ((length + 4095) / 4096)).filterMap (fun i =>
      if openTo s c (address + 4096 * i) 4096 then some (rowPiece s (address / 4096 + i)) else none)
  | 1 => match pageAddr k (address / 65536) with
    | some a => pagePieces s (a + address % 65536) address length
    | none => []
  | 2 => (List.range (length / 1024)).flatMap (fun i => summaryPiece s k (address + i))
  | 9 => (programPieces s k).filter (fun x => x.1 == object && decide (address ≤ x.2.1) && decide (x.2.1 < address + length / 64))
  | _ => tables

/-- A request for a copy is answered from this module's state; a primary that its secondary asks begins to secure the context afresh, but for the copy that
follows a digest mismatch, whose context has halted (R441, R453). After a copy of audit slots both sides of a locked pair begin their windows afresh, so
that they decide at the same steps (R243). -/
def answerCopy (x : CtxId) (object : Byte) (address length : W64) (s : State) : State :=
  match s.ctx x.val with
  | none => s
  | some k =>
    let pages := if object = objPage then [address.toNat / 65536]
      else if object = objSummary then (List.range (length.toNat / 1024)).map (address.toNat + ·) else []
    let s := copyReads x (pages.filter k.used.has) s
    let c := BitVec.ofNat 8 x.val
    let s := (copyPieces s x k object address.toNat length.toNat).foldl (fun s y => sendFrame (.copyData c (pieceBody s 0xFFFFFFFF y)) s) s
    if !isPrimary s then s
    else
      let s := if s.pair.mode = 3 && object = objAudit then updCtx x.val Context.freshWindows s else s
      if decide (k.securing = .secured) && (s.pair.mode == 2 || (s.pair.mode == 3 && !k.halted)) then markChanged x (setSecuring x.val .syncing s) else s

/-- Clusters whose digests have differed are still tested (R453). -/
def levelWaits (s : State) : Bool :=
  s.errs.tests.any (fun t => t.cls == 0x03 && (unitDie t.unit).any (fun d => s.pair.differ.contains (s.logicalAt d)))

/-- COPY_REQ: answered; in locked mode the copy that brings the secondary level waits until the tests of the clusters that differ have ended, so that a
primary whose cluster is bad has handed over first (R453). -/
def copyAsked (c : Byte) (object : Byte) (address length : W64) (s : State) : State :=
  match fwdCtx s c with
  | none => s
  | some (x, _) =>
    if s.pair.mode = 3 && levelWaits s then { s with pair := { s.pair with asked := s.pair.asked ++ [(x, object, address, length)] } }
    else answerCopy x object address length s

/-- The copies that have waited for tests are sent. -/
def copiesDue (s : State) : State :=
  if levelWaits s then s
  else s.pair.asked.foldl (fun s (x, o, a, n) => answerCopy x o a n s) { s with pair := { s.pair with asked := [] } }

/-- A lost page's copy goes to the page that has taken its place (R447). -/
def pageHome (s : State) (k : Context) (page : Nat) : Nat :=
  match k.pagesDue.find page with
  | some e => match s.dir.find e with
    | some d => d.page
    | none => page
  | none => page

/-- A sequence whose copied entry is older is rolled back to it, with a RECOVERED record (R447). -/
def rollBack (c : CtxId) (slot : Nat) (old : Seq) (s : State) : State :=
  match s.seqs.find slot with
  | some q =>
    if q.ctx ≠ c || (q.length ≤ old.length && q.generated ≤ old.generated) then s
    else
      let blockOf (e : Nat) : Nat := (e - q.dirBase) % max 1 q.dirSpan
      let es := seqEntries s q
      let s := freeEntries c.val (es.filter (fun e => decide (old.length ≤ 64 * blockOf e))) s
      let s := { s with
        seqs := s.seqs.put slot { old with finalSent := q.finalSent && (old.state == .stopped || old.state == .lost) }
        dir := (es.filter (fun e => decide (old.length < 64 * blockOf e + 64))).foldl (fun d e => d.modify e (fun x => { x with sealedP := false })) s.dir }
      markChanged c (seqNotice slot 0x06 false s)
  | none => s

/-- COPY_DATA: a row, a page or a table entry put in its place. When the last row of a failed step is back, a resume that has waited takes
effect. -/
def copyCame (c : Byte) (d : DataBody) (s : State) : State :=
  match fwdCtx s c with
  | none => s
  | some (x, k) =>
    let addr := d.address.toNat
    if isSecondary s then applyPiece x d s
    else if d.object = objRow then
      let rest := k.restore.filter (· ≠ addr / 4096)
      let s := updCtx x.val (fun k => { k with restore := rest, waitsFor := k.waitsFor && !rest.isEmpty }) (applyPiece x d s)
      if rest.isEmpty then resumeDueCtx x.val s else s
    else if d.object = objPage then
      applyPiece x { d with address := BitVec.ofNat 64 (pageHome s k (addr / 65536) * 65536 + addr % 65536) } s
    else if d.object = objSummary then
      updCtx x.val (fun k => { k with pagesDue := k.pagesDue.drop addr }) (applyPiece x { d with address := BitVec.ofNat 64 (pageHome s k addr) } s)
    else if d.object = objSeq then
      match seqOfBytes x (d.bytes.take 64) with
      | some q => rollBack x addr q s
      | none => s
    else s

/-- STEP_RESTORE: the last point is secured, and every row that the failed step wrote is asked back; with none, nothing is waited for. -/
def stepRestore (c : CtxId) (s : State) : State :=
  match s.ctx c.val with
  | none => s
  | some k =>
    if !isPrimary s || s.pair.mode ≠ 2 || !k.waitsFor || k.secured.getD 0 < k.point then s
    else if k.restore.isEmpty then resumeDueCtx c.val (updCtx c.val (fun k => { k with waitsFor := false }) s)
    else k.restore.foldl (fun s r => sendFrame (.copyReq (BitVec.ofNat 8 c.val) objRow (BitVec.ofNat 64 (4096 * r)) 4096) s) s

def execStepRestore (c : CtxId) (s : State) : Out := .next (stepRestore c s)

end Sys2Proof.Machine
end

