-- ==== Sys2Proof/Machine/Pair.lean ====
section
/-! DEFINITION. The pair: ports and link frames, formation and modes, the loss of the partner, probes and takeovers (R342, R343, R428 to R437,
R449, R454 to R461).
Rests on the log entries (notes/assumptions/<n>.md) 3 (DESIGN CHOICE), 33 (DEDUCED), 39 (DEDUCED), 45 (DEDUCED), 46 (DEDUCED), 47 (DEDUCED), 48
(DEDUCED). -/
namespace Sys2Proof.Machine

/-! ### Ports (R428, R430) -/

def execConsortPortTrain (p : Port) (lanes : BitVec 8) (serial : BitVec 128) (s : State) : Out := done s (portTrains p.val lanes serial)

/-- PORT_RETRAIN_TIMER: a port that has dropped out is trained again. -/
def execPortRetrainTimer (p : Port) (s : State) : Out :=
  .next (if portMayTrain s p.val && decide ((s.port p.val).lanes = 0) then updPort p.val (fun r => { r with training := true }) s else s)

def execPortDown (p : Port) (s : State) : Out := done s (portFalls p.val)

/-! ### Losing the partner's copy or its company (R436, R447, R457, R460, R461) -/

/-- No context is secured any more. -/
def unsecureAll (s : State) : State := s.ctxs.keys.foldl (fun s c => unsecure c s) s

/-- The pair is no more: its streams, points and comparisons are gone, and the module uses its own reference. -/
def dissolve (s : State) : State :=
  settleRef { s with
   reck := { s.reck with slew := 0, slewTick := 0 }
   pair := { s.pair with
    formed := false, mode := 0, entering := false, silent := false, held := false, probing := false, log := [], streamOut := [], streamIn := []
    early := [], descIn := [], asked := [], busy := false, taking := false, answered := false, digests := [], theirs := [], differ := [], starts := [], fwdSteps := [], timeOffset := 0, mismatch := false } }

/-- Steps that wait for a partner who is gone end as this module has them. -/
def endCompared (s : State) : State :=
  s.parts.keys.foldl (fun s p =>
    match s.stepOf p with
    | some t => if t.phase = .compared then (match t.failed with
        | some (st, op) => finishStep st op p s
        | none => s) else s
    | none => s) s

/-- A primary runs alone, with every context NOT_SECURED. -/
def runAlone (s : State) : State :=
  let s := unsecureAll (endCompared (dissolve s))
  note .pairState 2 0 { s with pair := { s.pair with alone := true, fenced := false } }

/-- The secondary's copies are destroyed and scrubbed as by CTX_DESTROY, with the partitions they were in. -/
def destroyCopies (s : State) : State :=
  let s := s.parts.keys.foldl (fun s p => match s.stepOf p with
    | some t => dropStep p t (undoStep t s)
    | none => s) s
  let s := s.ctxs.keys.foldl (fun s c => destroyCtx (asCtx c) s) s
  s.parts.keys.foldl (fun s p => dropPartition p s) s

/-! ### Modes (R434 to R437, R449) -/

/-- The mode that the two modules' settings give: the lower, and locked mode only with equal firmware. -/
def agreedMode (s : State) (b : IdentityBody) : Nat :=
  let m := min (s.setting .cnsMode) b.mode.toNat
  if m = 3 ∧ s.update.active ≠ b.version then 1 else m

/-- MODE_MISMATCH, reported as the two modules' CNS_MODE values come to differ (R436). -/
def modeMismatch (s : State) : State :=
  match s.pair.partner with
  | none => s
  | some b =>
    let d := s.pair.formed && decide (s.setting .cnsMode ≠ b.mode.toNat)
    let s' := { s with pair := { s.pair with mismatch := d } }
    if d && !s.pair.mismatch then note .pairState 4 (min (s.setting .cnsMode) b.mode.toNat) s' else s'

/-- The secondary of the pair holds a partition of its own. -/
def secondaryBusy (s : State) (b : IdentityBody) : Bool :=
  if s.pair.role = .secondary then s.pair.mode < 2 && !s.parts.isEmpty else decide (s.pair.role = .primary) && b.ownPartition

/-- No step runs. -/
def noStepRuns (s : State) : Bool := s.parts.all (fun e => e.2.step.isNone)

/-- Mirrored mode is entered: the primary has its partitions and contexts made on the secondary and begins to secure them. -/
def enterMirrored (s : State) : State :=
  let s := note .pairState 6 2 { s with pair := { s.pair with mode := 2 } }
  let s := settleRef s
  if s.pair.role = .primary then s.ctxs.keys.foldl (fun s c => beginSync c s) (sendSetup s) else s

/-- Mirrored mode is left: the secondary's copies are destroyed, and the primary's contexts are unsecured. -/
def leaveMirrored (s : State) : State :=
  let s := if s.pair.role = .secondary then destroyCopies s else unsecureAll s
  settleRef (note .pairState 6 1 { s with pair := { s.pair with mode := 1, entering := false, reserved := [], log := [] } })

/-- Locked mode is left at a step boundary: the copies are level, and the secondary's sites go dark again. -/
def leaveLocked (s : State) : State :=
  let s := { s with
    ctxs := s.ctxs.mapVal (fun _ k => { k with dirty := [], freedSlots := [], restore := [], unsecured := [] })
    pair := { s.pair with mode := 2, reserved := if s.pair.role = .secondary then s.parts.keys else [] } }
  note .pairState 6 2 s

/-- Every context's points are secured and applied. -/
def allSecured (s : State) : Bool := s.ctxs.all (fun e => decide (e.2.securing = .secured) && decide (e.2.point ≤ e.2.secured.getD 0) && !e.2.changed)

/-- Locked mode begins: on the primary at a boundary with every point applied; on the secondary its partitions' sites are powered in waves. -/
def enterLocked (s : State) : State :=
  let s := { s with pair := { s.pair with mode := 3, entering := false }, ctxs := s.ctxs.mapVal (fun _ => Context.freshWindows) }
  let s := note .pairState 6 3 s
  if s.pair.role = .secondary then
    let s := { s with pair := { s.pair with reserved := [] } }
    requestWaves ((List.range 100).filter (sitePlaced s)) s
  else s

/-- A primary that holds for locked mode enters it once nothing runs and every point is applied. -/
def lockedWhenReady (s : State) : State :=
  if s.pair.formed && s.pair.entering && decide (s.pair.mode = 2) && decide (s.pair.role = .primary) && noStepRuns s && allSecured s then enterLocked s
  else s

/-- SECONDARY_BUSY, reported as the secondary's own partition comes to keep the pair in independent mode (R436). -/
def noteBusy (s : State) (b : IdentityBody) : State :=
  let d := decide (s.pair.mode < 2) && decide (2 ≤ agreedMode s b) && secondaryBusy s b
  let s' := { s with pair := { s.pair with busy := d } }
  if d && !s.pair.busy then note .pairState 5 0 s' else s'

/-- The mode in force follows the settings: down at once or, from locked, at a boundary; up once both modules hold it and the secondary holds
no partition of its own. -/
def settleMode (s : State) : State :=
  match s.pair.partner with
  | none => s
  | some b =>
    if !s.pair.formed || s.pair.silent then s
    else
      let m := agreedMode s b
      let s := noteBusy s b
      let s := if s.pair.mode = 3 && decide (m < 3) && noStepRuns s then leaveLocked s else s
      if s.pair.mode = 2 && decide (m < 2) then leaveMirrored s
      else if decide (s.pair.mode < 2) && decide (2 ≤ m) then
        if secondaryBusy s b then s else enterMirrored s
      else if s.pair.entering && decide (m < 3) then { s with pair := { s.pair with entering := false } }
      else s

/-- LOCKED_MODE_ENTRY: every context is SECURED and both modules hold locked mode; the primary holds at a boundary, the secondary powers
up. -/
def lockedModeEntry (s : State) : State :=
  match s.pair.partner with
  | none => s
  | some b =>
    if !s.pair.formed || s.pair.silent || s.pair.mode ≠ 2 || agreedMode s b ≠ 3 then s
    else if s.pair.role = .secondary then enterLocked s
    else if s.ctxs.all (fun e => decide (e.2.securing = .secured)) then lockedWhenReady { s with pair := { s.pair with entering := true } }
    else s

def execLockedModeEntry (s : State) : Out := done s lockedModeEntry

/-! ### Formation (R342, R343, R429, R435, R436, R460) -/

/-- This module is the primary of the pair it forms: the higher epoch, then the preference, then the lower serial number. -/
def becomesPrimary (s : State) (b : IdentityBody) : Bool :=
  if s.pair.epoch ≠ b.epoch then decide (b.epoch < s.pair.epoch)
  else
    let mine := s.setting .cnsRole
    if mine ≠ b.role.toNat then decide (mine = 0) else decide (s.serial.toNat < b.serial.toNat)

/-- The pair forms. A module that returns to a higher epoch, or that held copies as the secondary, destroys what it holds. -/
def formPair (h : FrameHdr) (b : IdentityBody) (s : State) : State :=
  let primary := becomesPrimary s b
  let returning := !primary && (decide (s.pair.epoch < b.epoch) || decide (s.pair.role = .secondary))
  let s := dissolve s
  let s := if returning then destroyCopies s else s
  let s := if s.now < h.time then { s with reck := { s.reck with now := h.time } } else s
  let s := { s with
    pair := { s.pair with
      formed := true, mode := 1, role := if primary then .primary else .secondary, partner := some b, epoch := larger s.pair.epoch b.epoch
      seenEpoch := larger s.pair.seenEpoch b.epoch, departed := false, fenced := false, alone := false, partnerRuns := false, partnerMode := 0, reserved := [] }
    power := { s.power with partnerBad := false } }
  let s := unsecureAll s
  let s := note .pairState 1 (if primary then 1 else 0) s
  let m := min (s.setting .cnsMode) b.mode.toNat
  let s := if m = 3 && decide (s.update.active ≠ b.version) then note .firmwareMismatch s.update.active.toNat b.version.toNat s else s
  settleMode (settleRef (modeMismatch s))

/-- An IDENTITY frame is checked against this module and the partner: the pair forms, or forms again after a silence. -/
def identityCame (h : FrameHdr) (b : IdentityBody) (s : State) : State :=
  let s := updPort h.port.val (fun r => { r with serial := b.serial }) s
  if otherPartner s h.port.val b.serial then
    note .cableMismatch h.port.val 0 (portLost h.port.val false s)
  else if b.orderCode.toNat ≠ s.orderCode then note .codeMismatch s.orderCode b.orderCode.toNat s
  else if b.pairId.toNat ≠ s.setting .cnsPairId then note .pairIdMismatch h.port.val 0 s
  else if s.setting .cnsMode = 0 || b.mode = 0 then s
  else if s.pair.formed && !s.pair.silent then settleMode (modeMismatch { s with pair := { s.pair with partner := some b } })
  else formPair h b s

/-! ### Reception (R430, R431) -/

/-- A frame at a port, discarded or accepted: a broken one and one that leaves a gap are asked for again, one received before and one of an
older epoch are dropped, and every frame in order other than an ACK is acknowledged. -/
def receive (h : FrameHdr) (isAck : Bool) (s : State) : Bool × State :=
  let p := h.port.val
  let r := s.port p
  if r.lanes = 0 then (false, s)
  else if !h.good || 0 < (h.linkSeq - r.recvSeq).toInt then (false, sendOn p (.ack h.port (r.recvSeq - 1) r.recvSeq) s)
  else if h.linkSeq ≠ r.recvSeq then (false, s)
  else
    let s := updPort p (fun r => { r with recvSeq := r.recvSeq + 1, down := false }) s
    let s := if isAck then s else sendOn p (.ack h.port r.recvSeq 0xFFFFFFFF) s
    if h.epoch < s.pair.seenEpoch then (false, s)
    else (true, { s with pair := { s.pair with seenEpoch := larger s.pair.seenEpoch h.epoch } })

/-- A link frame. -/
def linkFrame (h : FrameHdr) (isAck : Bool) (f : State → State) (s : State) : State :=
  let (ok, s) := receive h isAck s
  if ok then f s else s

/-- The header and type of a stream frame. -/
def streamHdr : Instr → Option (FrameHdr × Nat)
  | .timeReq h _ => some (h, 0x05) | .timeResp h _ _ _ => some (h, 0x06) | .setupFwd h _ => some (h, 0x07) | .descFwd h _ _ _ _ => some (h, 0x08)
  | .stepStart h _ _ => some (h, 0x09) | .digest h _ => some (h, 0x0A) | .clusterDigest h _ _ _ => some (h, 0x0B) | .mirrorData h _ => some (h, 0x0C)
  | .mirrorEnd h _ _ => some (h, 0x0D) | .mirrorAck h _ => some (h, 0x0E) | .snapshotData h _ => some (h, 0x0F) | .copyReq h _ _ _ => some (h, 0x10)
  | .copyData h _ => some (h, 0x11)
  | _ => none

/-- The follower's offset from the leader, halfway between the two directions; its Reckoner slews from now on until it lies within a tick of the
leader's (R340, R342). -/
def timeAnswered (t1 t2 t3 : W64) (s : State) : State :=
  if timeLeader s then s
  else
    let d := ((t2 - t1).toInt + (t3 - portNow s).toInt) / 2
    { s with reck := { s.reck with slew := d }, pair := { s.pair with timeOffset := d } }

/-- What a stream frame does in its turn. -/
def frameEffect (i : Instr) (s : State) : State :=
  match i with
  | .timeReq _ t1 => sendFrame (.timeResp t1 (portNow s) (portNow s)) s
  | .timeResp _ t1 t2 t3 => timeAnswered t1 t2 t3 s
  | .setupFwd _ c => setupForwarded c s
  | .descFwd h ring index d bytes => descForwarded h.ctx ring index d bytes s
  | .stepStart h step start => runForwarded (stepStarted h.ctx step start s)
  | .digest _ d => runForwarded (digestCame d s)
  | .clusterDigest h step c d => clusterDigestCame h.ctx step c.val d s
  | .mirrorData h d => mirrorCame h.ctx d.point (fun x => { x with frames := x.frames ++ [d] }) s
  | .mirrorEnd h point n => mirrorCame h.ctx point (fun x => { x with count := some n }) s
  | .mirrorAck h point => lockedWhenReady (mirrorAcked h.ctx point s)
  | .snapshotData h d => snapshotCame h.ctx d s
  | .copyReq h o a n => copyAsked h.ctx o a n s
  | .copyData h d => copyCame h.ctx d s
  | _ => s

/-- The turn of a frame within its stream. -/
def inTurn (s : State) (i : Instr) : Bool :=
  match streamHdr i with
  | some (h, ty) => h.streamSeq == s.pair.streamIn.getD (ty * 256 + h.ctx.toNat) 0
  | none => false

/-- A frame in its turn, and then those that have waited for theirs. -/
def applyStreams : Nat → Instr → State → State
  | 0, _, s => s
  | n + 1, i, s =>
    match streamHdr i with
    | none => s
    | some (h, ty) =>
      let s := frameEffect i { s with pair := { s.pair with streamIn := s.pair.streamIn.put (ty * 256 + h.ctx.toNat) (h.streamSeq + 1) } }
      match s.pair.early.find? (inTurn s) with
      | none => s
      | some j => applyStreams n j { s with pair := { s.pair with early := s.pair.early.erase j } }

/-- A frame of a stream: applied in STREAM_SEQ order whichever port carries it. -/
def streamFrame (i : Instr) (s : State) : State :=
  match streamHdr i with
  | none => s
  | some (h, ty) =>
    let (ok, s) := receive h false s
    if !ok || !s.pair.formed then s
    else if inTurn s i then applyStreams (s.pair.early.length + 1) i s
    else if 0 < (h.streamSeq - s.pair.streamIn.getD (ty * 256 + h.ctx.toNat) 0).toInt && !s.pair.early.contains i then
      { s with pair := { s.pair with early := s.pair.early ++ [i] } }
    else s

/-! ### Link frames (R430, R432, R454) -/

/-- ROLE of a heartbeat and a probe. -/
def PairRole.code : PairRole → Byte
  | .primary => 0 | .secondary => 1 | .independent => 2

/-- A takeover is not complete: a partition's sites are still powering up (R456). -/
def takingOver (s : State) : Bool := s.pair.taking && s.parts.any (fun e => !partPowered s e.2)

/-- A module of no formed pair is independent, and one that takes over says so. -/
def roleCode (s : State) : Byte := if takingOver s then 3 else if s.pair.mode ≤ 1 then 2 else s.pair.role.code

/-- ROLE of a heartbeat, which knows no takeover. -/
def heartbeatRole (s : State) : Byte := if s.pair.mode ≤ 1 then 2 else s.pair.role.code

/-- The module's contexts run: some context is not halted, on a module that is no secondary and is not fenced. -/
def contextsRun (s : State) : Bool := s.life.ready && !isSecondary s && !s.pair.fenced && s.ctxs.any (fun e => !e.2.halted)

/-- HEARTBEAT_SEND: on each trained port; a change of mode that was due at a boundary takes effect, and copies that waited for tests go out. -/
def heartbeatSend (s : State) : State :=
  let s := (portsTrained s).foldl (fun s p => sendOn p (.heartbeat (asPort p) (heartbeatRole s) (BitVec.ofNat 8 s.pair.mode) (contextsRun s) (BitVec.ofNat 64 (s.setting .cnsPairId))) s) s
  runForwarded (lockedWhenReady (settleMode (copiesDue s)))

def execHeartbeatSend (s : State) : Out := done s heartbeatSend

/-- A frame sent again under its own numbers. -/
def resend (p : Nat) (x : W32 × FrameOut) (s : State) : State :=
  match s.pair.sent.find? (fun y => y.port == p && y.link == x.1 && y.frame == x.2) with
  | some y => { s with pair := { s.pair with sent := s.pair.sent ++ [{ y with time := s.now }] } }
  | none => s

/-- ACK: frames up to ACK_SEQ are kept no more, and those from NAK_SEQ on are sent again. -/
def ackCame (p : Nat) (a n : W32) (s : State) : State :=
  let s := updPort p (fun r => { r with replay := r.replay.filter (fun e => decide (0 < (e.1 - a).toInt)) }) s
  if n = 0xFFFFFFFF then s
  else ((s.port p).replay.filter (fun e => decide (0 ≤ (e.1 - n).toInt))).foldl (fun s e => resend p e s) s

/-- HEARTBEAT: the partner's role, the mode in force there and whether its contexts run; a mode it has left or taken up is one it no longer or
now holds. -/
def heartbeatCame (role mode : Byte) (running : Bool) (pairId : W64) (s : State) : State :=
  if pairId.toNat ≠ s.setting .cnsPairId then s
  else
    let m := mode.toNat
    let was := s.pair.partnerMode
    { s with pair := { s.pair with
      partnerRuns := running, partnerRole := role, partnerMode := m
      partner := s.pair.partner.map (fun b =>
        if s.pair.formed && decide (1 ≤ m) && decide (m ≠ was) && (decide (m < was) || decide (b.mode.toNat < m)) then { b with mode := mode } else b) } }

/-! ### Takeover (R456 to R459) -/

/-- A step that the two modules have not compared is undone; its number is the next step's. -/
def undoUncompared (s : State) : State :=
  s.parts.keys.foldl (fun s p =>
    match s.stepOf p with
    | none => s
    | some t =>
      updCtx t.ctx.val (fun k => { k with begun := t.number.toNat }) (dropStep p t (undoStep t (dropWaits t.ctx s)))) s

/-- The survivor takes over: the epoch counts up, and it is primary and alone; its partitions' sites are powered in waves; every context
exists, halted, with its sequences due a RECOVERED record. -/
def takeover (s : State) : State :=
  let s := undoUncompared s
  let s := dissolve (dropPorts { s with pair := { s.pair with epoch := s.pair.epoch + 1, role := .primary, alone := true, departed := false, fenced := false } })
  let s := { s with pair := { s.pair with seenEpoch := larger s.pair.seenEpoch s.pair.epoch, reserved := [], taking := true } }
  let s := requestWaves ((List.range 100).filter (sitePlaced s)) s
  let s := { s with seqs := s.seqs.mapVal (fun _ q => if q.state = SeqState.decode || q.state = SeqState.prefill then { q with recoverDue := true } else q) }
  let s := s.ctxs.keys.foldl (fun s c => haltCtx c s) (unsecureAll s)
  note .takeover s.pair.epoch.toNat 0 (raise 0 evStatus s)

/-- This module's management link is up. -/
def managementUp (s : State) : Bool := s.bin.ethernet && s.mgmt.active.isSome

/-- The secondary takes over where CNS_TAKEOVER is automatic. -/
def mayTakeOver (s : State) : Bool := isSecondary s && decide (s.setting .cnsTakeover = 1)

/-- DEPARTING: the secondary takes over at once; a primary runs alone; a module in independent mode has lost its partner. -/
def departingCame (reason : Byte) (s : State) : State :=
  if !s.pair.formed || reason = 0 || 5 < reason.toNat then s
  else
    let s := { s with pair := { s.pair with departed := true } }
    if isSecondary s then (if mayTakeOver s then takeover s else s)
    else if isPrimary s then runAlone (dropPorts s)
    else note .pairState 2 0 (dissolve (dropPorts s))

def execIdentity (h : FrameHdr) (b : IdentityBody) (s : State) : Out := done s (linkFrame h false (identityCame h b))
def execAck (h : FrameHdr) (ackSeq nakSeq : W32) (s : State) : Out := .next (linkFrame h true (ackCame h.port.val ackSeq nakSeq) s)
def execHeartbeat (h : FrameHdr) (role mode : Byte) (running : Bool) (pairId : W64) (s : State) : Out :=
  done s (linkFrame h false (fun s => settleMode (modeMismatch (heartbeatCame role mode running pairId s))))
def execDeparting (h : FrameHdr) (reason : Byte) (s : State) : Out := done s (linkFrame h false (departingCame reason))

/-! ### Stream frames -/

def execTimeReq (h : FrameHdr) (t1 : W64) (s : State) : Out := .next (streamFrame (.timeReq h t1) s)
def execTimeResp (h : FrameHdr) (t1 t2 t3 : W64) (s : State) : Out := .next (streamFrame (.timeResp h t1 t2 t3) s)
def execSetupFwd (h : FrameHdr) (c : ForwardedSetup) (s : State) : Out := done s (streamFrame (.setupFwd h c))
def execDescFwd (h : FrameHdr) (ring : Byte) (index : W32) (descriptor hostBytes : List Byte) (s : State) : Out :=
  done s (streamFrame (.descFwd h ring index descriptor hostBytes))
def execStepStart (h : FrameHdr) (step : W32) (start : W64) (s : State) : Out := .next (streamFrame (.stepStart h step start) s)
def execDigest (h : FrameHdr) (d : DigestBody) (s : State) : Out := done s (streamFrame (.digest h d))
def execClusterDigest (h : FrameHdr) (step : W32) (c : Cluster) (d : DigestBody) (s : State) : Out := done s (streamFrame (.clusterDigest h step c d))
def execMirrorData (h : FrameHdr) (d : DataBody) (s : State) : Out := .next (streamFrame (.mirrorData h d) s)
def execMirrorEnd (h : FrameHdr) (point frames : W32) (s : State) : Out := .next (streamFrame (.mirrorEnd h point frames) s)
def execMirrorAck (h : FrameHdr) (point : W32) (s : State) : Out := .next (streamFrame (.mirrorAck h point) s)
def execSnapshotData (h : FrameHdr) (d : DataBody) (s : State) : Out := .next (streamFrame (.snapshotData h d) s)
def execCopyReq (h : FrameHdr) (object : Byte) (address length : W64) (s : State) : Out := .next (streamFrame (.copyReq h object address length) s)
def execCopyData (h : FrameHdr) (d : DataBody) (s : State) : Out := .next (streamFrame (.copyData h d) s)

/-! ### The probe (R433, R455 to R457) -/

/-- The probe's payload as this module fills it. -/
def probeBody (nonce : W32) (s : State) : ProbeBody :=
  { nonce := nonce, pairId := BitVec.ofNat 64 (s.setting .cnsPairId), serial := s.serial, epoch := s.pair.epoch, role := roleCode s
    running := contextsRun s, held := s.pair.held, time := serviceNow s }

/-- The time for probes: from 1 ms after the partner fell silent on, for 100 ms (R455). -/
def probeStart : Nat := msTicks 1
def probeEnd : Nat := msTicks 101

/-- PROBE_SEND: a probe with a nonce of its own, every 20 ms while the partner is silent without having departed, its address is set and no answer has
come. -/
def probeSend (s : State) : State :=
  let early := match s.pair.probedAt with
    | some t => decide (s.since t < msTicks 20)
    | none => decide (s.since s.pair.silentAt < probeStart)
  if !s.pair.formed || !s.pair.silent || s.pair.departed || s.setting .cnsPartnerAddr = 0 || s.mgmt.active.isNone || s.pair.answered || early
      || decide (probeEnd < s.since s.pair.silentAt) then s
  else
    let (v, s) := takeFree s
    let n : W32 := v.setWidth 32
    { s with pair := { s.pair with nonce := n, probing := true, probedAt := some s.now, probes := s.pair.probes ++ [.probe (probeBody n s)] } }

def execProbeSend (s : State) : Out := .next (probeSend s)

/-- PROBE_RECEIVE: a probe of this module's pair is answered; any other is ignored. -/
def execProbeReceive (q : ProbeBody) (s : State) : Out :=
  .next (if q.pairId.toNat = s.setting .cnsPairId && managementUp s then
      { s with pair := { s.pair with probes := s.pair.probes ++ [.probeAnswer (probeBody q.nonce s)] } }
    else s)

/-- An answer counts only to the last probe sent, from the partner seen at formation. -/
def answerCounts (q : ProbeBody) (s : State) : Bool :=
  s.pair.formed && s.pair.silent && s.pair.probing && q.nonce == s.pair.nonce && (match s.pair.partner with
    | some b => b.serial == q.serial
    | none => false)

/-- PROBE_ANSWER: a secondary takes over from a partner whose contexts do not run, or reports PAIR_SPLIT; a primary that hears a secondary
runs on alone. -/
def probeAnswered (q : ProbeBody) (s : State) : State :=
  if !answerCounts q s then s
  else
    let s := { s with pair := { s.pair with probing := false, answered := true, partnerRuns := q.running } }
    if isSecondary s then
      if q.running then note .pairState 3 0 s else if mayTakeOver s && managementUp s then takeover s else s
    else if isPrimary s && q.role == 1 then runAlone s
    else s

def execProbeAnswer (q : ProbeBody) (s : State) : Out := done s (probeAnswered q)

/-- PROBE_TIMEOUT: 100 ms of probes have passed and no answer has come. -/
def probeTimeout (s : State) : State :=
  if !s.pair.formed || !s.pair.silent || s.pair.answered || decide (s.since s.pair.silentAt < probeEnd) then s
  else
    let s := { s with pair := { s.pair with probing := false } }
    if mayTakeOver s && managementUp s then takeover s else s

def execProbeTimeout (s : State) : Out := done s probeTimeout

/-- HOLD_MAX_EXPIRY: after CNS_HOLD_MAX with no answer the primary halts every secured context and is fenced. -/
def holdMaxExpiry (s : State) : State :=
  if !isPrimary s || !s.pair.silent || !s.pair.held || decide (s.since s.pair.heldAt < msTicks (s.setting .cnsHoldMax)) then s
  else
    let cs := (s.ctxs.select (fun _ k => k.securing == .secured)).keys
    let s := cs.foldl (fun s c => haltCtx c (updCtx c (fun k => { k with pairHold := false }) s)) s
    note .fenced 1 0 { s with pair := { s.pair with held := false, fenced := true } }

def execHoldMaxExpiry (s : State) : Out := done s holdMaxExpiry

/-- TAKEOVER_ORDER, by the management network: a secondary that does not take over by itself takes over. -/
def takeoverOrder (s : State) : State := if isSecondary s && decide (s.setting .cnsTakeover = 0) then takeover s else s

/-- PAIR_FENCED_RELEASE, by the management network: the fence is lifted, and the secured contexts may run again. -/
def fenceRelease (s : State) : State := if s.pair.fenced then note .fenced 0 0 { s with pair := { s.pair with fenced := false } } else s

end Sys2Proof.Machine
end

