-- ==== Sys2Proof/Machine/Management.lean ====
section
/-! DEFINITION. The management side: service dies, settings, Redfish, the health-record stream, the logbook's daily samples and the tray
controller (R18, R19, R315, R365, R369, R385, R434, R462 to R486, R490).
Rests on the log entries (notes/assumptions/<n>.md) 44 (DEDUCED), 45 (DEDUCED), 49 (PRESUMED), 50 (DEDUCED). -/
namespace Sys2Proof.Machine

/-! ### Service dies (R462 to R465) -/


/-- A service die takes the management side over: EPOCH counts up, the Uasimon login is lost, Redfish sessions survive, and a relay that runs
fails (R464, R503). -/
def serviceTakeover (n : Fin 2) (s : State) : State :=
  relayFails { s with mgmt := { s.mgmt with
    active := some n, epoch := s.mgmt.epoch + 1, seq := 0, heardAt := none, graceNo := none
    console := { failures := s.mgmt.console.failures, locked := s.mgmt.console.locked, lockedAt := s.mgmt.console.lockedAt, nonces := s.mgmt.console.nonces } } }

/-- What a takeover records: the former active die, tested as class 0x14. -/
def recordTakeover (former : Fin 2) (s : State) : State :=
  detect 0x14 (dieUnit 0x00 (serviceDies.getD former.val 105) 0 0 0) {} (note .serviceDieLost former.val 0 s)

/-- SERVICE_HEARTBEAT: the active die's heartbeat reaches the standby. -/
def execServiceHeartbeat (s : State) : Out :=
  .next (match s.mgmt.active with
    | some n => if (sv s (otherDie n).val).works then { s with mgmt := { s.mgmt with heardAt := some s.now } } else s
    | none => s)

/-- STANDBY_TAKEOVER: no heartbeat for 100 ms, a failed self-check or a lost bond group of the active die. -/
def standbyTakeover (s : State) : State :=
  match s.mgmt.active with
  | some n =>
    if (sv s (otherDie n).val).works then
      let s := if n = 0 then { s with mgmt := { s.mgmt with sv0 := { s.mgmt.sv0 with works := false } } }
        else { s with mgmt := { s.mgmt with sv1 := { s.mgmt.sv1 with works := false } } }
      recordTakeover n (serviceTakeover (otherDie n) s)
    else s
  | none =>
    if s.life.firmware = .none then s
    else if s.mgmt.sv0.works then recordTakeover 1 (serviceTakeover 0 s)
    else if s.mgmt.sv1.works then recordTakeover 0 (serviceTakeover 1 s)
    else s

def execStandbyTakeover (s : State) : Out := done s standbyTakeover

/-- A failover that an Administrator orders; none with no working standby. -/
def failoverTo (s : State) : Option (Fin 2) :=
  match s.mgmt.active with
  | some n => if (sv s (otherDie n).val).works then some (otherDie n) else none
  | none => none

def failOver (s : State) : State :=
  match failoverTo s with
  | some n => recordTakeover (otherDie n) (serviceTakeover n s)
  | none => s

/-- NO_SERVICE_DIE_TIMEOUT: 60 s after the last service die failed the always-on domain requests a power cycle. -/
def execNoServiceDieTimeout (s : State) : Out :=
  done s (fun s => if noServiceDie s && s.mgmt.graceNo.any (fun t => decide (60 * ticksPerSecond ≤ s.since t)) then requestCycle 0x02 { s with mgmt := { s.mgmt with graceNo := none } } else s)

/-! ### Settings (R315, R369, R385, R434, R466 to R468) -/

/-- An address setting: 0 for none, an IPv4 address, or an IPv6 address with bit 128 set. -/
def addressFits (v : Nat) : Bool := decide (v < 2 ^ 32) || (decide (2 ^ 128 ≤ v) && decide (v < 2 ^ 129))

/-- Address, prefix length and gateway: the gateway in the low n bits, the prefix length in the next 8, the address above; 0 for none. -/
def prefixFits (n lo hi v : Nat) : Bool := v = 0 || (decide (lo ≤ v / 2 ^ n % 256) && decide (v / 2 ^ n % 256 ≤ hi) && decide (v < 2 ^ (2 * n + 8)))

/-- A value lies within its setting's range. -/
def settingFits (maxCap : Nat) (k : Setting) (v : Nat) : Bool :=
  let within (a b : Nat) : Bool := decide (a ≤ v) && decide (v ≤ b)
  match k with
  | .trainMode => within 0 1 | .pwrCap => within 90 maxCap | .pwrAutoWake => within 0 1 | .pwrMode => within 0 1
  | .errAuditInterval => within 1 1024 | .cnsMode => within 0 3 | .cnsPairId => within 0 (2 ^ 64 - 1) | .cnsRole => within 0 1
  | .cnsStepLoss => within 1 1024 | .cnsHoldMax => within 0 60000 | .cnsTakeover => within 0 1 | .cnsPartnerAddr => addressFits v
  | .svcIpMode => within 0 1 | .svcIpv4 => prefixFits 32 8 30 v | .svcIpv6 => prefixFits 128 48 128 v | .svcHttpsPort => within 1 65535
  | .svcCollectorAddr => addressFits v | .svcCollectorPort => within 1 65535 | .svcStreamLevel => within 0 2
  | .svcSessionTimeout => within 60 86400
  | .svcConsoleBaud => [9600, 19200, 38400, 57600, 115200, 230400, 460800, 921600].contains v
  | .svcConsoleIdle => within 60 86400

/-- A change of CNS_MODE: none unmakes the pair and leaves the ports untrained; any other mode takes effect by R436, and each trained port tells it the
partner in an IDENTITY (DEDUCED: notes/assumptions/45.md). -/
def cnsModeChanged (s : State) : State :=
  if s.setting .cnsMode ≠ 0 then
    settleMode (modeMismatch ((portsTrained s).foldl (fun s p => sendOn p (.identity (ownIdentity s)) s) s))
  else
    let s := if isSecondary s then destroyCopies s else unsecureAll (endCompared s)
    let s := dissolve (dropPorts { s with pair := { s.pair with role := .independent, partner := none } })
    { s with pair := { s.pair with ports := s.pair.ports.mapVal (fun _ r => { r with training := false }) } }

/-- What a setting changes at once. -/
def settingActs (k : Setting) (v : Nat) (s : State) : State :=
  match k with
  | .cnsMode => cnsModeChanged s
  | .svcIpMode => { s with mgmt := { s.mgmt with netDue := true } }
  | .svcIpv4 => { s with mgmt := { s.mgmt with netDue := true } }
  | .svcIpv6 => { s with mgmt := { s.mgmt with netDue := true } }
  | .svcHttpsPort => { s with mgmt := { s.mgmt with netDue := true } }
  | .svcCollectorAddr => if v = 0 then { s with mgmt := { s.mgmt with kept := [] } } else s
  | .svcConsoleBaud => { s with mgmt := { s.mgmt with baud := v } }
  | _ => s

/-- An accepted write: the store in both copies, SETTINGS_REV counted up, and what the setting changes at once. -/
def applySetting (k : Setting) (v : Nat) (s : State) : State :=
  settingActs k v (storeSettings { s.settings with values := s.settings.values.put (settingNum k) v, rev := s.settings.rev + 1 } s)

/-- IP_SETTINGS_TAKE_EFFECT: a second after the write, the addressing and the port are those of the store. -/
def ipSettingsTakeEffect (s : State) : State :=
  if s.mgmt.netDue && s.mgmt.active.isSome then
    { s with mgmt := { s.mgmt with
      netDue := false
      net := [.svcIpMode, .svcIpv4, .svcIpv6, .svcHttpsPort].map (fun k => (settingNum k, s.setting k)) } }
  else s

def execIpSettingsTakeEffect (s : State) : Out := .next (ipSettingsTakeEffect s)

/-! ### Redfish requests (R469 to R471, R490) -/

/-- The rank of a role. -/
def roleRank : Role → Nat
  | .readOnly => 0 | .operator => 1 | .administrator => 2

def State.account (s : State) (n : Nat) : Option Account := s.mgmt.accounts.find? (fun a => a.name == n)

/-- A status and body answered to a Redfish client. -/
def reply (status : Nat) (body : List Nat) : State → State := answer (.redfish status body)

/-- An action's Task. -/
def replyTask (s : State) : State := answer (.task s.mgmt.tasks) { s with mgmt := { s.mgmt with tasks := s.mgmt.tasks + 1 } }

/-- The service answers over HTTPS: a service die is active and the Ethernet link is up. -/
def redfishServed (s : State) : Bool := s.mgmt.active.isSome && s.bin.ethernet

/-- The account and the role that a request comes with: those of its session, or of the account whose password it gives. -/
def requester (s : State) : Auth → Option (Nat × Role)
  | .session id => (s.mgmt.sessions.find id).map (fun x => (x.account, x.role))
  | .basic name password => match s.account name with
    | some a => if a.password = password then some (name, a.role) else none
    | none => none

/-- A request restarts the time of its session; HTTP Basic has none. -/
def touchSession (s : State) : Auth → State
  | .session id => { s with mgmt := { s.mgmt with sessions := s.mgmt.sessions.modify id (fun x => { x with last := s.now }) } }
  | .basic _ _ => s

/-- The account's password must be changed before anything else. -/
def mustChange (s : State) (account : Nat) : Bool :=
  match s.account account with
  | some a => a.mustChange
  | none => false

/-- A request with the role it needs; every request other than a change of a password that must be changed is refused until then. -/
def request (who : Auth) (need : Role) (own : Nat → Bool) (f : State → State) (s : State) : State :=
  if !redfishServed s then s
  else
    match requester s who with
    | none => reply 401 [] s
    | some (account, role) =>
      let s := touchSession s who
      if own account then f s
      else if mustChange s account || roleRank role < roleRank need then reply 403 [] s
      else f s

def asks (who : Auth) (need : Role) (f : State → State) : State → State := request who need (fun _ => false) f

/-! ### What the resources hold (R302, R326, R470, R476 to R479) -/

def boolNat (b : Bool) : Nat := if b then 1 else 0

/-- The module record's fields (R476). -/
def moduleFields (mv w mj : Nat) (s : State) : List Nat :=
  [s.reck.lifeSec, s.build.grade, stateCode s.life.power, s.pair.mode % 4 + 4 * boolNat (s.pair.formed && decide (s.pair.role = .primary)), mv, w
  , 100 * s.setting .pwrCap, intNat s.power.coolant.inlet, intNat s.power.coolant.outlet, s.power.coolant.flow, (chansInService s).length
  , clustersUsable s, s.ctxs.length, mj]

/-- STATE of a channel (R326). -/
def ChanState.code : ChanState → Nat
  | .inService => 0 | .out => 1 | .takingOut => 2 | .fault => 3 | .disabled => 4

/-- The marked devices of a subchannel, a bit for each. -/
def deviceSet (l : List Nat) : Nat := l.foldl (fun n d => n ||| 2 ^ d) 0

/-- The fields of R326, row by row; the marks of subchannel 1 stand above those of subchannel 0 (DEDUCED: notes/assumptions/50.md). -/
def chanFields (s : State) (c : Nat) : List Nat :=
  let r := s.chan c
  let serves := decide (r.state = .inService) || decide (r.state = .takingOut)
  let marks (sub : Nat) : Nat := deviceSet ((r.marks.filter (fun d => d / 16 == sub)).map (· % 16))
  [if chanEnabled s c then r.state.code else 4, s.build.channelSpeed, if serves then channelFrames s else 0, r.ce, r.ue, marks 0 + 65536 * marks 1
  , r.retrains, intNat r.tempMax]

/-- The counters of R89, totalled over every context. -/
def arithmeticTotals (s : State) : List Nat :=
  let t := s.ctxs.foldl (fun (t : Counts) (_, k) => t.add k.total) {}
  [t.convSat, t.accOverflow, t.nanCreated, t.nanDropped, t.intSat, t.checkSkipped]

/-- The counters of R160: the spares left are those of the lowest bank or buffer. -/
def memoryCounters (s : State) (m : StoreRef) : List Nat :=
  let r := s.store m
  let banks := match m with
    | .core _ _ => List.range 64
    | .accumulator _ _ _ => [0]
    | .segment _ => [0]
  let left := banks.map (fun b => (sparesLeft s m b).length)
  [r.counters.ce, r.counters.ue, r.counters.dropped, r.counters.poison, r.counters.mapped, left.foldl min (sparesOf m)]

/-- Entries of a counter record: an ID, an instance and a value. -/
def counterRows (base inst : Nat) (l : List Nat) : List (W16 × W16 × W32) :=
  l.zipIdx.map (fun (v, k) => (BitVec.ofNat 16 (base + k), BitVec.ofNat 16 inst, BitVec.ofNat 32 v))

/-- The counters of R399, CS_CHECKED in its two halves. -/
def dieCounterRows (c : DieCounters) : List (W16 × W16 × W32) :=
  [(0x0400, 0, BitVec.ofNat 32 (c.csChecked % 2 ^ 32)), (0x0400, 0x8000, BitVec.ofNat 32 (c.csChecked / 2 ^ 32))]
    ++ counterRows 0x0401 0 [c.csMismatch, c.csSkipped, c.csNoFault, c.auditSteps, c.auditMismatch, c.lockstepDiff, c.hwStepFails, c.testRun
      , c.testTransient, c.testLasting, c.testInconclusive]

/-- The memories of a compute die with their instances. -/
def dieMemories (n : Cluster) : List (Nat × StoreRef) :=
  (List.finRange 7).map (fun k => (k.val, StoreRef.core n k))
    ++ (List.finRange 4).flatMap (fun m => (List.finRange 4).map (fun a => (16 + 4 * m.val + a.val, StoreRef.accumulator n m a)))
    ++ [(32, StoreRef.segment n)]

/-- A number as a cluster. -/
def asCluster (n : Nat) : Cluster := if h : n < 100 then ⟨n, h⟩ else 0

/-- The counters of a die (R478). -/
def counterEntries (s : State) (d : Nat) : List (W16 × W16 × W32) :=
  match dieKind d with
  | 0 =>
    counterRows 0x0100 0 (arithmeticTotals s)
      ++ (dieMemories (asCluster (s.logicalAt d))).flatMap (fun (i, m) => counterRows 0x0200 i (memoryCounters s m))
      ++ dieCounterRows (s.die d).counters
  | 1 =>
    let k := (memoryDies.findIdx? (· == d)).getD 0
    [4 * k, 4 * k + 1, 4 * k + 2, 4 * k + 3].flatMap (fun c => counterRows 0x0300 c (chanFields s c))
      ++ counterRows 0x0408 0 [(s.die d).counters.testRun, (s.die d).counters.testTransient, (s.die d).counters.testLasting, (s.die d).counters.testInconclusive]
  | k =>
    counterRows 0x0408 0 [(s.die d).counters.testRun, (s.die d).counters.testTransient, (s.die d).counters.testLasting, (s.die d).counters.testInconclusive]
      ++ (if k = 4 then [(0x0500, 0, BitVec.ofNat 32 s.errs.lost)] else [])

/-- The settings by number, at their values. -/
def settingValues (s : State) : List (Setting × Nat) := allSettings.map (fun k => (k, s.setting k))

/-- Energy totals of a context since its creation (R479). -/
def energyTotals (k : Context) : List Nat := [k.created.toNat, k.energyMj, k.clusterMj, k.clusterMs]

/-- The part of the logbook that is a die's: its bins, daily samples, events, occurrences and marks. -/
def logbookOf (s : State) (d days : Nat) : Logbook :=
  let at_ (u : UnitRef) : Bool := unitDie u == some d
  let l := s.log
  let ds := l.daily.getD d []
  { l with
    events := l.events.filter (fun e => at_ e.unit)
    daily := [(d, ds.drop (ds.length - days))]
    bins := l.bins.select (fun k _ => k / 48 == d)
    occurrences := l.occurrences.filter (fun e => at_ e.unit)
    chartHistory := l.chartHistory.filter (fun e => at_ e.unit)
    vMinDay := l.vMinDay.select (fun k _ => k == d) }

/-- The sensors of R470: input voltage, power and current (mV, W, mA), coolant inlet, outlet and flow, then the hottest sensor of each die. -/
def sensorValue (s : State) (id : Nat) : Option Int :=
  let v : Int := s.mgmt.inputMv
  let p : Int := s.mgmt.inputW
  match id with
  | 0 => some v | 1 => some p | 2 => some (if v = 0 then 0 else p * 1000000 / v)
  | 3 => some s.power.coolant.inlet | 4 => some s.power.coolant.outlet | 5 => some s.power.coolant.flow
  | n => if n - 6 < 122 then some (hottest s (n - 6)) else none

/-- The static I3C address of the sideband (R38). -/
def i3cAddress (s : State) : Nat := 0x20 + s.life.pos.toNat

/-- What a GET answers. -/
def resourceAnswer (s : State) (r : Resource) : Answer :=
  let ok (l : List Nat) : Answer := .redfish 200 l
  match r with
  | .root => ok [] | .chassis => ok [] | .systems => ok [] | .managers => ok []
  | .chassisW96 => ok [s.serial.toNat, s.orderCode, s.build.grade, boolNat s.bin.locate, s.life.pos.toNat]
  | .sensor id => match sensorValue s id with
    | some v => ok [intNat v]
    | none => .redfish 404 []
  | .powerLimit => ok [100 * s.setting .pwrCap]
  | .systemW96 => ok [stateCode s.life.power]
  | .memory b => ok ((match (s.bay b.val).dimm with
      | some d => [d.identity.toNat, d.speed, d.capGb]
      | none => []) ++ chanFields s b.val ++ s.log.deviceMarks.getD b.val [])
  | .processor i => ok ([s.logicalAt i.val, dieState s i.val] ++ (s.build.chart.filter (fun e => unitDie e.unit == some i.val)).map (·.seqNo.toNat))
  | .manager d => ok [boolNat (s.mgmt.active == some d), (sv s d.val).version.toNat, s.mgmt.epoch.toNat]
  | .networkProtocol _ => ok (s.mgmt.net.map (·.2))
  | .ethernet _ => ok (boolNat s.bin.ethernet :: s.mgmt.net.map (·.2))
  | .events _ => .events s.log.events
  | .logbook _ => .logbook s.log
  | .accountService => ok (s.mgmt.accounts.flatMap (fun a => [a.name, roleRank a.role, boolNat a.mustChange]))
  | .sessionService => ok (s.mgmt.sessions.flatMap (fun (i, x) => [i, x.account]))
  | .certificateService => ok [s.mgmt.certificate.toNat]
  | .updateService => ok [s.update.active.toNat, (s.update.staged.elim 0 (·.version.toNat)), boolNat s.update.relayed, boolNat s.update.relaying]
  | .settings => .settings s.settings.rev (settingValues s)
  | .chart => .chartEntries s.build.chart
  | .context c => match s.ctx c.val with
    | some k => ok ([k.part.val, ctxStateWord s c.val] ++ energyTotals k)
    | none => .redfish 404 []
  | .mark c v => match (s.ctx c.val).bind (fun k => k.vmarks.find v.toNat) with
    | some m => .bytes (inspection s 0 m.val)
    | none => .redfish 404 []

def execRedfishGet (who : Auth) (r : Resource) (s : State) : Out :=
  .next (asks who .readOnly (fun s => answer (resourceAnswer s r) s) s)

/-- A URI that the service does not offer. -/
def execRedfishUnknownUri (who : Auth) (s : State) : Out :=
  .next (if redfishServed s then reply 404 [] (touchSession s who) else s)

/-! ### Writes and actions (R365, R412, R464, R467, R469 to R471, R486) -/

/-- A write to the settings resource, with the ETag of the revision it expects. -/
def settingsWrite (etag : Option W32) (name : Option Setting) (v : Nat) (s : State) : State :=
  match name with
  | none => reply 400 [] s
  | some k =>
    match etag with
    | none => reply 428 [] s
    | some e =>
      if e ≠ s.settings.rev then reply 412 [] s
      else if !settingFits s.maxCap k v then reply 400 [] s
      else reply 200 [s.settings.rev.toNat + 1] (applySetting k v s)

def execRedfishSettingsWrite (who : Auth) (etag : Option W32) (name : Option Setting) (value : Nat) (s : State) : Out :=
  done s (asks who .administrator (settingsWrite etag name value))

def setLocate (on : Bool) (s : State) : State := { s with bin := { s.bin with locate := on } }

def execRedfishLocate (who : Auth) (on : Bool) (s : State) : Out := .next (asks who .operator (fun s => reply 200 [] (setLocate on s)) s)

/-- A cap in W: a multiple of 100 within the range of PWR_CAP. -/
def capFits (s : State) (w : Nat) : Bool := decide (w % 100 = 0) && settingFits s.maxCap .pwrCap (w / 100)

def execRedfishPowerLimit (who : Auth) (watts : Nat) (s : State) : Out :=
  done s (asks who .operator (fun s => if capFits s watts then replyTask (applySetting .pwrCap (watts / 100) s) else reply 400 [] s))

/-- An order for a power state: refused by R365, or taken up by R366 and R367. -/
def orderState (o : PowerOrder) (refuse accept : State → State) (s : State) : State :=
  if orderRefused o s then refuse (note .stateRefused (stateCode o.state) 0 s) else accept (orderPower o s)

/-- A module reset that is refused by R412. -/
def resetRefused (s : State) : Bool := starting s || decide (s.life.phase = .unpowered) || decide (s.life.power = .off)

/-- An order for a module reset. -/
def orderReset (refuse accept : State → State) (s : State) : State := if resetRefused s then refuse (moduleReset s) else accept (moduleReset s)

def resetAction (t : ResetType) (s : State) : State :=
  match t with
  | .on => orderState { state := .on } (reply 409 []) replyTask s
  | .forceRestart => orderReset (reply 409 []) replyTask s
  | .powerCycle => requestCycle 0x03 (replyTask s)

def execRedfishReset (who : Auth) (t : ResetType) (s : State) : Out := done s (asks who .operator (resetAction t))

def execRedfishSetPowerState (who : Auth) (t : PowerState) (force : Bool) (s : State) : Out :=
  done s (asks who .operator (fun s =>
    if t = .on then reply 400 [] s else orderState { state := t, force := force } (reply 409 []) replyTask s))

def execRedfishFailover (who : Auth) (s : State) : Out :=
  done s (asks who .administrator (fun s => if (failoverTo s).isSome then failOver (replyTask s) else reply 409 [] s))

/-- REDFISH_SESSION_CREATE: a login, while there is room among 32 sessions. -/
def sessionCreate (name password : Nat) (s : State) : State :=
  if !redfishServed s then s
  else
    match s.account name with
    | none => reply 401 [] s
    | some a =>
      if a.password ≠ password then reply 401 [] s
      else if 32 ≤ s.mgmt.sessions.length then reply 503 [] s
      else
        let id := s.mgmt.nextSession
        reply 201 [id] { s with mgmt := { s.mgmt with
          nextSession := id + 1
          sessions := s.mgmt.sessions.put id { account := name, role := a.role, timeout := s.setting .svcSessionTimeout, last := s.now } } }

def execRedfishSessionCreate (account password : Nat) (s : State) : Out := .next (sessionCreate account password s)

/-- SESSION_TIMEOUT: a session whose time without a request has passed ends. -/
def sessionTimeout (session : Nat) (s : State) : State :=
  match s.mgmt.sessions.find session with
  | some x => if x.timeout * ticksPerSecond ≤ s.since x.last then { s with mgmt := { s.mgmt with sessions := s.mgmt.sessions.drop session } } else s
  | none => s

def execSessionTimeout (session : Nat) (s : State) : Out := .next (sessionTimeout session s)

/-- A write to accounts, sessions or the certificate; 16 accounts at most. -/
def accountWrite (w : AccountWrite) (s : State) : State :=
  match w with
  | .create n p r =>
    if (s.account n).isSome || 16 ≤ s.mgmt.accounts.length then reply 400 [] s
    else reply 201 [] { s with mgmt := { s.mgmt with accounts := s.mgmt.accounts ++ [⟨n, p, r, false⟩] } }
  | .remove n =>
    if (s.account n).isNone then reply 404 [] s
    else reply 200 [] { s with mgmt := { s.mgmt with accounts := s.mgmt.accounts.filter (fun a => a.name ≠ n) } }
  | .password n p =>
    if (s.account n).isNone then reply 404 [] s
    else reply 200 [] { s with mgmt := { s.mgmt with
      accounts := s.mgmt.accounts.map (fun a => if a.name = n then { a with password := p, mustChange := false } else a) } }
  | .endSession i =>
    if s.mgmt.sessions.has i then reply 200 [] { s with mgmt := { s.mgmt with sessions := s.mgmt.sessions.drop i } } else reply 404 [] s
  | .certificate d => reply 200 [] { s with mgmt := { s.mgmt with certificate := d } }

/-- A change of the requester's own password, where it must be changed. -/
def ownPassword (s : State) (w : AccountWrite) (account : Nat) : Bool :=
  match w with
  | .password n _ => n == account && mustChange s n
  | _ => false

def execRedfishAccountWrite (who : Auth) (w : AccountWrite) (s : State) : Out :=
  .next (request who .administrator (ownPassword s w) (accountWrite w) s)

/-! ### The stream (R472 to R479) -/

/-- MODULE_RECORD: the means of the last second, in mV, W and mJ. -/
def execModuleRecord (inputMv inputW energyMj : Nat) (s : State) : Out :=
  .next (if s.mgmt.active.isNone then s
    else
      sendRecord (.module (serviceNow s) (moduleFields inputMv inputW energyMj s)) { s with mgmt := { s.mgmt with inputMv := inputMv, inputW := inputW } })

/-- The bin of a second (R482): six of voltage by eight of temperature, from die 48·d on. -/
def opBin (d mv : Nat) (t : Int) : Nat :=
  let v := if mv < 650 then 0 else if 850 ≤ mv then 5 else 1 + (mv - 650) / 50
  let k := if t < 450 then 0 else if 1050 ≤ t then 7 else 1 + ((t - 450) / 100).toNat
  48 * d + 8 * (if d < 100 then v else 0) + k

/-- A die is powered. -/
def diePowered (s : State) (d : Nat) : Bool := dieState s d == 0

/-- The lowest sample of a die's second joins those of its alarms (R352). -/
def takeLowest (x : Option VoltLow) (r : DieRec) : DieRec :=
  match x with
  | none => r
  | some x => if r.vMin ≠ 0 && r.vMin ≤ x.vmin then r else { r with vMin := x.vmin, tMin := x.time, vCtx := x.ctx, vOp := x.op, vPhase := x.phase }

/-- DIE_HEALTH_RECORD: the second's record of a die, whose fields by the second then begin anew; a powered die's second is counted in its
operating bin. -/
def dieHealthRecord (d : Nat) (busy : Byte) (mj : Nat) (lowest : Option VoltLow) (s : State) : State :=
  if s.mgmt.active.isNone then s
  else
    let s := if d < 100 then updDie d (fun r => { takeLowest lowest r with vSet := (s.region (siteRegion d)).vdd }) s else s
    let s := match lowest with
      | some x => if d < 100 then lowestOfDay d x.vmin s else s
      | none => s
    let r := s.die d
    let x := (serviceNow s, dieFields busy mj d s)
    let s := updDie d (fun r => { r with health := some x }) (sendRecord (.die (if h : d < 122 then ⟨d, h⟩ else 0) x.1 x.2) s)
    let s := if diePowered s d then
        { s with log := { s.log with bins := s.log.bins.update (opBin d r.vSet r.tempMax) 0 (fun n => satAdd n 1) } } else s
    updDie d (fun r => { r with
      tempMax := hottest s d, tempMin := r.temps.foldl min (r.temps.headD 0), vMin := 0, tMin := 0, vCtx := 0xFF, vOp := 0xFFFFFFFF, vPhase := 0
      slackSec := [], hotDay := some (max r.tempMax (r.hotDay.getD r.tempMax)), droops := 0, ceSecond := 0, ueSecond := 0, detections := 0 }) s

def execDieHealthRecord (d : DieId) (busy : Byte) (energyMj : Nat) (lowest : Option VoltLow) (s : State) : Out :=
  .next (dieHealthRecord d.val busy energyMj lowest s)

def execCounterRecord (d : DieId) (s : State) : Out := .next (sendRecord (.counters d (serviceNow s) (counterEntries s d.val)) s)

/-- ENERGY_RECORD: of a context that has run steps since its last. -/
def execEnergyRecord (c : CtxId) (s : State) : Out :=
  .next (match s.ctx c.val with
    | some k => if k.energySteps = 0 then s else energyRecord false c s
    | none => s)

def execCollectorReachable (s : State) : Out := .next (flushKept { s with mgmt := { s.mgmt with reachable := true } })
def execCollectorUnreachable (s : State) : Out := .next { s with mgmt := { s.mgmt with reachable := false } }

/-! ### Daily samples (R480, R482) -/

/-- Correctable and uncorrectable errors of a die's memories. -/
def dieErrors (s : State) (d : Nat) : Nat × Nat :=
  match dieKind d with
  | 0 => (dieMemories (asCluster (s.logicalAt d))).foldl (fun n x => (n.1 + (s.store x.2).counters.ce, n.2 + (s.store x.2).counters.ue)) (0, 0)
  | 1 =>
    let k := (memoryDies.findIdx? (· == d)).getD 0
    [4 * k, 4 * k + 1, 4 * k + 2, 4 * k + 3].foldl (fun n c => (n.1 + (s.chan c).ce, n.2 + (s.chan c).ue)) (0, 0)
  | _ => (0, 0)

/-- A sample added: kept 3,653 days, then the oldest beyond the first 30 is overwritten. -/
def addSample (x : DailySample) (l : List DailySample) : List DailySample :=
  if l.length < 3653 then l ++ [x] else l.take 30 ++ l.drop 31 ++ [x]

/-- DAILY_SAMPLE: the ageing ratios of a die, with the day's lowest slacks, lowest V_MIN and hottest sensor. -/
def dailySample (d : Nat) (a0 a1 : W32) (vmin : Nat) (s : State) : State :=
  let s := updDie d (fun r => { r with age0 := a0, age1 := a1 }) s
  if s.mgmt.active.isNone then s
  else
    let r := s.die d
    let e := dieErrors s d
    let x : DailySample :=
      { lifeSec := s.reck.lifeSec, slacks := r.slackDay, age0 := a0, age1 := a1, vMin := s.log.vMinDay.getD d vmin, hottest := max (hottest s d) (r.hotDay.getD (hottest s d)), ce := e.1, ue := e.2 }
    updDie d (fun r => { r with slackDay := [], hotDay := none })
      { s with log := { s.log with daily := s.log.daily.update d [] (addSample x), vMinDay := s.log.vMinDay.drop d } }

def execDailySample (d : DieId) (age0 age1 : W32) (vmin : Nat) (s : State) : Out := .next (dailySample d.val age0 age1 vmin s)

/-! ### The tray controller (R484) -/

/-- The hottest sensor of each die kind. -/
def kindHottest (s : State) (k : Nat) : Int :=
  let ds := (List.range 122).filter (fun d => dieKind d == k)
  ds.foldl (fun m d => max m (hottest s d)) (hottest s (ds.headD 0))

/-- Sensors of the sideband: the six of R470, the hottest sensor of the seven kinds of die, and the grade state. -/
def pldmSensor (s : State) (n : Nat) : Option Int :=
  if n < 6 then sensorValue s n else if n < 13 then some (kindHottest s (n - 6)) else if n = 13 then some s.build.grade else none

def execPldmSensorRead (sensor : Nat) (s : State) : Out :=
  .next (if s.mgmt.active.isNone then s
    else match pldmSensor s sensor with
      | some v => answer (.pldm v) s
      | none => answer (.refusal 1) s)

/-- The states of the power-state effecter. -/
def effecterState (v : Byte) : Option PowerOrder :=
  match v.toNat with
  | 0 => some { state := .on } | 1 => some { state := .idle } | 2 => some { state := .doze } | 3 => some { state := .sleep }
  | 4 => some { state := .off } | 5 => some { state := .off, force := true } | _ => none

def execPldmPowerStateEffecter (value : Byte) (s : State) : Out :=
  done s (fun s =>
    if s.mgmt.active.isNone then s
    else match effecterState value with
      | some o => orderState o (answer (.refusal 1)) (answer (.pldm 0)) s
      | none => answer (.refusal 1) s)

def execPldmModuleResetEffecter (value : Byte) (s : State) : Out :=
  done s (fun s =>
    if s.mgmt.active.isNone then s
    else if value = 1 then orderReset (answer (.refusal 1)) (answer (.pldm 0)) s
    else answer (.refusal 1) s)

/-! ### Orders of the management network for the pair (R456, R457) -/

/-- The console's level for the role of an account (R488). -/
def Level.rank : Level → Nat
  | .none => 0 | .view => 1 | .operate => 2 | .admin => 3 | .vendor => 4

/-- An order by a path with the Administrator's authority; the tray controller acts as an Operator. -/
def byAdministrator (path : MgmtPath) (f : State → State) (s : State) : State :=
  match path with
  | .redfish who => asks who .administrator (fun s => replyTask (f s)) s
  | .console =>
    if s.mgmt.active.isNone then s
    else if s.mgmt.console.level.rank < Level.admin.rank then answer (.err 2) s
    else answer (.lines [] true) (f s)
  | .pldm => if s.mgmt.active.isNone then s else answer (.refusal 1) s

def execTakeoverOrder (path : MgmtPath) (s : State) : Out := done s (byAdministrator path takeoverOrder)
def execPairFencedRelease (path : MgmtPath) (s : State) : Out := done s (byAdministrator path fenceRelease)

end Sys2Proof.Machine
end

