-- ==== Sys2Proof/Machine/Objects.lean ====
section
/-! DEFINITION. The bytes of what the module reads, writes and signs: the CRC-32, chart entries, configuration records, firmware manifests, chart
revisions, debug unlocks, the signature block and the anti-rollback entries (R24 to R27, R491 to R497, R511, R516). -/
namespace Sys2Proof.Machine

/-- One bit of a reflected CRC-32. -/
def crc32Bit (c : W32) : W32 := if c.getLsbD 0 then (c >>> 1) ^^^ 0xEDB88320 else c >>> 1
def crc32Byte (c : W32) (b : Byte) : W32 := (List.range 8).foldl (fun c _ => crc32Bit c) (c ^^^ b.setWidth 32)
/-- CRC-32 of IEEE 802.3. -/
def crc32 (bs : List Byte) : W32 := ~~~(bs.foldl crc32Byte 0xFFFFFFFF)

/-- The 32 bytes of a chart entry (the table before R25). -/
def chartBytes (e : ChartEntry) : List Byte :=
  let b := leBytes 4 e.seqNo.toNat ++ leBytes 8 e.lifeSec.toNat ++ [e.source, e.unit.unit, e.unit.x, e.unit.y] ++ leBytes 2 e.unit.a.toNat
    ++ leBytes 2 e.unit.b.toNat ++ leBytes 4 e.unit.c.toNat ++ [e.action, e.cause, 0, 0]
  b ++ leBytes 4 (crc32 b).toNat

/-- The 768 bytes of a configuration record's body. -/
def configBytes (r : ConfigRecord) : List Byte :=
  leBytes 4 r.format.toNat ++ leBytes 4 r.revision.toNat ++ leBytes 16 r.serial.toNat ++ [r.orderCode, r.maxClock] ++ leBytes 2 r.maxCap.toNat
    ++ leBytes 2 r.minCap.toNat ++ [0, 0] ++ leBytes 16 r.clusterDis.toNat ++ padList 4 0 r.spareSites ++ leBytes 4 0 ++ leBytes 8 r.channelDis.toNat
    ++ padList 64 0 [r.consortDis] ++ padList 400 0 (r.limits.flatMap (fun l => [l.clock, 0] ++ leBytes 2 l.power.toNat)) ++ List.replicate 240 0

/-! ### Signed objects (R491, R492, R497, R511, R516) -/

/-- A SHA-384 digest as it lies in memory. -/
def hashBytes (h : BitVec 384) : List Byte := leBytes 48 h.toNat

/-- The 1,088 bytes of a firmware manifest's body (R497). -/
def manifestBytes (m : Manifest) : List Byte :=
  leBytes 4 m.format.toNat ++ leBytes 4 m.version.toNat ++ leBytes 4 m.securityVersion.toNat
    ++ [m.orderCodes, m.minStepping, BitVec.ofNat 8 m.images.length, if m.recovery then 1 else 0, m.keyRevoke.setWidth 8, 0, 0, 0]
    ++ padList 8 0 m.formats ++ leBytes 4 m.totalLen.toNat ++ List.replicate 32 0
    ++ padList 1024 0 (m.images.flatMap (fun e =>
      [e.target, 0, 0, 0] ++ leBytes 4 e.offset.toNat ++ leBytes 4 e.length.toNat ++ leBytes 4 0 ++ hashBytes e.hash))

/-- The body of a chart revision (R511). -/
def revisionBytes (r : ChartRevision) : List Byte :=
  leBytes 4 r.format.toNat ++ leBytes 4 0 ++ leBytes 16 r.serial.toNat ++ leBytes 4 r.upToSeq.toNat ++ leBytes 4 r.entries.length
    ++ List.replicate 32 0 ++ r.entries.flatMap chartBytes

/-- The 64 bytes of a debug unlock's body (R516). -/
def unlockBytes (u : UnlockObject) : List Byte :=
  leBytes 4 u.format.toNat ++ leBytes 4 u.lifetime.toNat ++ leBytes 16 u.serial.toNat ++ leBytes 32 u.nonce.toNat ++ leBytes 4 u.perms.toNat
    ++ leBytes 4 u.reserved.toNat

/-- The body of a package's object. -/
def objectBody : SignedObject → List Byte
  | .manifest m => manifestBytes m
  | .record r => configBytes r
  | .revision r => revisionBytes r

/-- KIND, KEY_SLOT and the two public keys of a signature block (R492). -/
def blockKind (b : List Byte) : Byte := b.getD 4 0
def blockSlot (b : List Byte) : Byte := b.getD 5 0
def blockEcdsa (b : List Byte) : List Byte := (b.drop 0x08).take 97
def blockLms (b : List Byte) : List Byte := (b.drop 0xE0).take 56

/-- A signature block has its length and MAGIC, and its reserved bytes are 0. -/
def blockPlain (b : List Byte) : Bool :=
  let zeros (a n : Nat) : Bool := ((b.drop a).take n).all (· == 0)
  decide (b.length = 3072) && leNat (b.take 4) == 0x53494742 && zeros 0x06 2 && zeros 0x69 23 && zeros 0x118 104 && zeros 0xBEC 20

/-- Both signatures of a block verify over M: a body followed by the block's first 8 bytes (R491). -/
def bothVerify (body block : List Byte) : Bool := Config.signaturesVerify (body ++ block.take 8) block

/-! ### The anti-rollback entry (R494) -/

def rollbackBytes (e : RollbackEntry) : List Byte :=
  let b := leBytes 4 e.seq.toNat ++ leBytes 4 e.fwSv.toNat ++ leBytes 4 e.recoverySv.toNat ++ [e.keyRevoked.setWidth 8, e.activeBank, 0, 0]
    ++ leBytes 4 e.chartFloor.toNat ++ leBytes 4 e.configFloor.toNat ++ leBytes 4 0
  b ++ leBytes 4 (crc32 b).toNat

end Sys2Proof.Machine
end

