-- ==== Sys2Proof/Machine/Console.lean ====
section
/-! DEFINITION. Uasimon, the monitor on the serial console, and the signed debug unlock (R487 to R490, R516 to R518, R521).
Rests on the log entries (notes/assumptions/<n>.md) 8 (DESIGN CHOICE), 51 (DEDUCED). -/
namespace Sys2Proof.Machine

/-! ### Levels and errors (R488, R521) -/

/-- Codes of an err line. -/
def errUnknown : Nat := 1
def errLevel : Nat := 2
def errSyntax : Nat := 3
def errNotFound : Nat := 4
def errRange5 : Nat := 5
def errStale : Nat := 6
def errRefused : Nat := 7
def errLogin : Nat := 8
def errLocked : Nat := 9
def errUnlock : Nat := 10

/-- The level of an account's role. -/
def roleLevel : Role → Level
  | .readOnly => .view | .operator => .operate | .administrator => .admin

/-- Uasimon answers: a service die is active, or, where no bank verifies, a service die works (R487, R509). -/
def consoleServed (s : State) : Bool := s.mgmt.active.isSome || (decide (s.life.firmware = .none) && decide (s.life.phase = .running) && !noServiceDie s)

/-- The session's level: VENDOR while an unlock lasts, and none where no bank verifies. -/
def consoleLevel (s : State) : Level :=
  if s.mgmt.active.isNone then .none
  else if s.mgmt.console.unlocked.isSome && decide (s.mgmt.console.level = .admin) then .vendor
  else s.mgmt.console.level

def err (code : Nat) : State → State := answer (.err code)
def okLine : State → State := answer (.lines [] true)

/-- Input at the console restarts the session's time. -/
def consoleInput (s : State) : State := { s with mgmt := { s.mgmt with console := { s.mgmt.console with last := s.now } } }

/-- A command line: below its level, malformed or longer than 255 characters, or carried out. -/
def console {α : Type} (need : Level) (a : Args α) (f : α → State → State) (s : State) : State :=
  if !consoleServed s then s
  else
    let s := consoleInput s
    if (consoleLevel s).rank < need.rank then err errLevel s
    else
      match a with
      | none => err errSyntax s
      | some x => f x s

/-- A command that only answers. -/
def shows {α : Type} (need : Level) (a : Args α) (f : α → State → Except Nat Answer) (s : State) : Out :=
  .next (console need a (fun x s => match f x s with
    | .ok y => answer y s
    | .error c => err c s) s)

/-- A line whose first word names no command. -/
def execUnknownCommand (line : List Nat) (s : State) : Out :=
  .next (if !consoleServed s then s else if line.isEmpty then consoleInput s else err errUnknown (consoleInput s))

/-! ### Sessions (R488) -/

def execHelp (a : Args (Option (List Nat))) (s : State) : Out := shows .none a (fun x _ => .ok (.text (Config.helpText (x.getD [])))) s

/-- Serial number, ordering code, firmware version, EPOCH and the active service die. -/
def execId (a : Args Unit) (s : State) : Out :=
  shows .none a (fun _ s => .ok (.lines [(0, s.serial.toNat), (1, s.orderCode), (2, s.update.active.toNat), (3, s.mgmt.epoch.toNat)
    , (4, s.mgmt.active.elim 2 (·.val))] true)) s

/-- The session is over: its login, its nonce and its unlock. -/
def endConsole (s : State) : State :=
  { s with mgmt := { s.mgmt with console := { s.mgmt.console with level := .none, account := 0, nonce := none, unlocked := none } } }

/-- login: by a Redfish account; three failures lock the console. Of a wrong password and a locked console the line carries the lower code
(DEDUCED: notes/assumptions/51.md). -/
def consoleLogin (name password : Nat) (s : State) : State :=
  let k := s.mgmt.console
  let good := match s.account name with
    | some a => if a.password = password then some a else none
    | none => none
  if k.locked then err (if good.isSome then errLocked else errLogin) s
  else
    match good with
    | some a =>
      let s := endConsole s
      okLine { s with mgmt := { s.mgmt with console := { s.mgmt.console with
        level := roleLevel a.role, account := name, failures := 0, idle := s.setting .svcConsoleIdle } } }
    | none =>
      let n := k.failures + 1
      err errLogin { s with mgmt := { s.mgmt with console := { k with failures := if 3 ≤ n then 0 else n, locked := decide (3 ≤ n), lockedAt := s.now } } }

def execLogin (a : Args (Nat × Nat)) (s : State) : Out := .next (console .none a (fun x => consoleLogin x.1 x.2) s)

def execLogout (a : Args Unit) (s : State) : Out := .next (console .view a (fun _ s => okLine (endConsole s)) s)

/-- CONSOLE_LOCK_EXPIRY: 30 s have passed. -/
def execConsoleLockExpiry (s : State) : Out :=
  .next (if s.since s.mgmt.console.lockedAt < 30 * ticksPerSecond then s
    else { s with mgmt := { s.mgmt with console := { s.mgmt.console with locked := false } } })

/-- CONSOLE_IDLE_TIMEOUT: the session has had no input for its time. -/
def execConsoleIdleTimeout (s : State) : Out :=
  .next (if s.since s.mgmt.console.last < s.mgmt.console.idle * ticksPerSecond then s else endConsole s)

/-! ### Reading (R489) -/

/-- A die by its site. -/
def dieAt (x y : Int) : Option Nat := (List.range 122).find? (fun d => dieSite d == (x, y))

/-- Partitions with their groups and state, by number. -/
def partLines (s : State) : List (Nat × Nat) :=
  s.parts.flatMap (fun (p, q) => [(p, q.groups.foldl (fun m g => m + 2 ^ g) 0)
    , (p, match q.state with
        | .forming => 0 | .ready => 1 | .resetting => 2 | .failed => 3)])

def execStatus (a : Args Unit) (s : State) : Out :=
  shows .view a (fun _ s => .ok (.lines ((moduleFields s.mgmt.inputMv s.mgmt.inputW 0 s).zipIdx.map (fun (v, i) => (i, v)) ++ partLines s
    ++ [(14, (roleCode s).toNat), (15, boolNat s.build.recordBad)]) true)) s

def execDies (a : Args Unit) (s : State) : Out := shows .view a (fun _ s => .ok (.lines ((List.range 122).map (fun d => (d, dieState s d))) true)) s

/-- The last die health record of a die; nothing where none has been made since the start. -/
def lastHealth (s : State) (d : Nat) : Answer :=
  match (s.die d).health with
  | some x => .record (.die (if h : d < 122 then ⟨d, h⟩ else 0) x.1 x.2)
  | none => .lines [] true

def execHealth (a : Args (Int × Int)) (s : State) : Out :=
  shows .view a (fun x s => match dieAt x.1 x.2 with
    | some d => .ok (lastHealth s d)
    | none => .error errNotFound) s

def execCounters (a : Args (Int × Int)) (s : State) : Out :=
  shows .view a (fun x s => match dieAt x.1 x.2 with
    | some d => .ok (.record (.counters (if h : d < 122 then ⟨d, h⟩ else 0) (serviceNow s) (counterEntries s d)))
    | none => .error errNotFound) s

def execEvents (a : Args (Option Nat)) (s : State) : Out :=
  shows .view a (fun x s =>
    let n := x.getD 0
    if x.isSome && !s.log.events.any (fun e => decide (n ≤ e.no.toNat)) then .error errNotFound
    else .ok (.events (s.log.events.filter (fun e => decide (n ≤ e.no.toNat))))) s

def execLogbook (a : Args (Int × Int × Option Nat)) (s : State) : Out :=
  shows .view a (fun x s => match dieAt x.1 x.2.1 with
    | some d => .ok (.logbook (logbookOf s d (x.2.2.getD 3653)))
    | none => .error errNotFound) s

def execChart (a : Args (Option Nat)) (s : State) : Out :=
  shows .view a (fun x s => .ok (.chartEntries (s.build.chart.filter (fun e => decide (x.getD 0 ≤ e.seqNo.toNat))))) s

def bayCode : BayState → Nat
  | .empty => 0 | .inService => 1 | .queued => 2 | .migrating => 3 | .emptied => 4 | .safe => 5 | .faulted => 6 | .rejected => 7 | .bringUp => 8
  | .mappedOut => 9 | .unpowered => 10

def execBays (a : Args Unit) (s : State) : Out :=
  shows .view a (fun _ s => .ok (.lines ((List.range 48).flatMap (fun b =>
    ([bayCode (s.bay b).state, (lampShown s (bayLed s b)).number] ++ chanFields s b).map (fun v => (b, v)))) true)) s

/-- Ports, lanes, mode, role and each context's securing state. -/
def execConsort (a : Args Unit) (s : State) : Out :=
  shows .view a (fun _ s => .ok (.lines ((List.range 4).map (fun p => (p, (s.port p).lanes)) ++ [(4, s.pair.mode), (5, (roleCode s).toNat)
    , (6, s.pair.partnerRole.toNat)]
    ++ s.ctxs.map (fun (c, k) => (16 + c, k.securing.code))) true)) s

/-- Contexts with partition, step, operation and the status block's state bits. -/
def execCtx (a : Args Unit) (s : State) : Out :=
  shows .view a (fun _ s => .ok (.lines (s.ctxs.flatMap (fun (c, k) =>
    let t := runningStep s c
    [(c, k.part.val), (c, t.elim 0xFFFFFFFF (fun x => x.2.number.toNat)), (c, t.elim 0xFFFFFFFF (fun x => if x.2.current.isSome then x.2.op else 0xFFFFFFFF))
    , (c, ctxStateWord s c)])) true)) s

def execEnergy (a : Args (Option Nat)) (s : State) : Out :=
  shows .view a (fun x s => match x with
    | none => .ok (.lines (s.ctxs.flatMap (fun (c, k) => (energyTotals k).map (fun v => (c, v)))) true)
    | some c => match s.ctx c with
      | some k => .ok (.lines ((energyTotals k).map (fun v => (c, v))) true)
      | none => .error errNotFound) s

/-- The inspection record of a mark, with every source shown. -/
def execMark (a : Args (Nat × Nat)) (s : State) : Out :=
  shows .view a (fun x s => match (s.ctx x.1).bind (fun k => k.vmarks.find x.2) with
    | some m => .ok (.bytes (inspection s 0 m.val))
    | none => .error errNotFound) s

def execMarkPhys (a : Args Nat) (s : State) : Out :=
  shows .view a (fun n s => if n < 8192 then .ok (.bytes (inspection s 0 n)) else .error errNotFound) s

/-- The held Lookout record, which stays held. -/
def execLookout (a : Args Nat) (s : State) : Out :=
  shows .view a (fun c s => match s.ctx c with
    | some k => .ok (.lookout k.lookout)
    | none => .error errNotFound) s

def execSettings (a : Args (Option (Option Setting))) (s : State) : Out :=
  shows .view a (fun x s => match x with
    | none => .ok (.settings s.settings.rev (settingValues s))
    | some none => .error errNotFound
    | some (some k) => .ok (.settings s.settings.rev [(k, s.setting k)])) s

/-! ### Ordering (R412, R365, R464, R467, R486, R490) -/

/-- set: a setting, its value, and the revision it expects where it names one. -/
def consoleSet (name : Option Setting) (v : Nat) (rev : Option W32) (s : State) : State :=
  match name with
  | none => err errNotFound s
  | some k =>
    if !settingFits s.maxCap k v then err errRange5 s
    else if rev.any (fun r => r ≠ s.settings.rev) then err errStale s
    else okLine (applySetting k v s)

def execSetSetting (a : Args (Option Setting × Nat × Option W32)) (s : State) : Out :=
  done s (console .admin a (fun x => consoleSet x.1 x.2.1 x.2.2))

def execLocate (a : Args Bool) (s : State) : Out := .next (console .operate a (fun on s => okLine (setLocate on s)) s)

def execCap (a : Args Nat) (s : State) : Out :=
  done s (console .operate a (fun w s => if capFits s w then okLine (applySetting .pwrCap (w / 100) s) else err errRange5 s))

def execPower (a : Args (PowerState × Bool)) (s : State) : Out :=
  done s (console .operate a (fun x => orderState { state := x.1, force := x.2 } (err errRefused) okLine))

def execResetModule (a : Args Unit) (s : State) : Out := done s (console .operate a (fun _ => orderReset (err errRefused) okLine))

def execPowercycle (a : Args Unit) (s : State) : Out := done s (console .operate a (fun _ s => requestCycle 0x04 (okLine s)))

def execFailover (a : Args Unit) (s : State) : Out :=
  done s (console .admin a (fun _ s => if (failoverTo s).isSome then failOver (okLine s) else err errRefused s))

/-! ### Keys and the debug unlock (R491 to R493, R516 to R518) -/

/-- A root key slot's digests match the keys of a block, and the slot is not revoked. -/
def slotHolds (s : State) (slot : Byte) (ecdsa lms : List Byte) : Bool :=
  if h : slot.toNat < 4 then
    decide (Config.sha384 ecdsa = Config.romEcdsaDigest ⟨slot.toNat, h⟩) && decide (Config.sha384 lms = Config.romLmsDigest ⟨slot.toNat, h⟩)
      && !(rollbackNow s).keyRevoked.getLsbD slot.toNat
  else false

/-- A signature block signs a body: its keys are those of a root key slot that is not revoked, and both signatures verify (R491, R493). -/
def signedBy (s : State) (body block : List Byte) : Bool :=
  slotHolds s (blockSlot block) (blockEcdsa block) (blockLms block) && bothVerify body block

/-- R517: what an unlock object must be. -/
def unlockFits (s : State) (u : UnlockObject) : Bool :=
  u.format == 1 && u.reserved == 0 && blockPlain u.block && blockKind u.block == 4 && decide (60 ≤ u.lifetime.toNat) && decide (u.lifetime.toNat ≤ 86400) && decide (u.perms.toNat < 2)
    && signedBy s (unlockBytes u) u.block && u.serial == s.serial
    && (match s.mgmt.console.nonce with
      | some (n, t) => n == u.nonce && decide (s.since t < 600 * ticksPerSecond)
      | none => false)

/-- unlock: a fresh nonce, in place of any nonce and unlock before it; then the object, which uses up the nonce. -/
def consoleUnlock (u : Option UnlockObject) (s : State) : State :=
  let k := s.mgmt.console
  match u with
  | none =>
    let n := Config.nonce k.nonces
    answer (.lines [(0, n.toNat)] true) { s with mgmt := { s.mgmt with console := { k with nonce := some (n, s.now), nonces := k.nonces + 1, unlocked := none } } }
  | some u =>
    if unlockFits s u then
      okLine { s with mgmt := { s.mgmt with console := { k with nonce := none, unlocked := some (u.lifetime, s.now, bit u.perms 0) } } }
    else err errUnlock { s with mgmt := { s.mgmt with console := { k with nonce := none } } }

def execUnlock (a : Args (Option UnlockObject)) (s : State) : Out := .next (console .admin a consoleUnlock s)

/-- UNLOCK_EXPIRY: LIFETIME has passed. -/
def execUnlockExpiry (s : State) : Out :=
  .next (if s.mgmt.console.unlocked.any (fun u => decide (s.since u.2.1 < u.1.toNat * ticksPerSecond)) then s
    else { s with mgmt := { s.mgmt with console := { s.mgmt.console with unlocked := none } } })

/-- dump: at most 4,096 bytes of granules of a context created with DEBUG. -/
def dumpAnswer (s : State) (c addr len : Nat) : Except Nat Answer :=
  match s.ctx c with
  | none => .error errNotFound
  | some k =>
    if len = 0 || 4096 < len || 100 * segmentBytes < addr + len then .error errRange5
    else if !k.debug || !(s.mgmt.console.unlocked.any (·.2.2)) || !openTo s (asCtx c) addr len then .error errRefused
    else .ok (.bytes (s.ssRead addr len))

def execDump (a : Args (Nat × Nat × Nat)) (s : State) : Out := shows .vendor a (fun x s => dumpAnswer s x.1 x.2.1 x.2.2) s

end Sys2Proof.Machine
end

