-- ==== Sys2Proof/Machine/Firmware.lean ====
section
/-! DEFINITION. Packages, the relay to the dies, activation, and attestation over SPDM (R19 to R27, R491 to R514).
Rests on the log entries (notes/assumptions/<n>.md) 5 (DESIGN CHOICE), 52 (DEDUCED), 53 (PRESUMED). -/
namespace Sys2Proof.Machine

/-! ### Packages (R496 to R498) -/

/-- Refusal codes of R498. -/
def refFormat : Byte := 0x01
def refSignature : Byte := 0x02
def refRevoked : Byte := 0x03
def refRollback : Byte := 0x04
def refModule : Byte := 0x05
def refLarge : Byte := 0x06
def refHash : Byte := 0x07
def refActivation : Byte := 0x09
def refBusy : Byte := 0x0A
def refLocked : Byte := 0x0B

/-- The ordering code: of the record in use, or, where the recovery bank runs, of the record in flash. -/
def moduleOrder (s : State) : Nat :=
  let inFlash (f : Flash) : Option ConfigRecord := if f.works && f.recordOk then f.record else none
  match s.build.record, inFlash s.flash0, inFlash s.flash1 with
  | some r, _, _ => r.orderCode.toNat
  | none, some r, _ => r.orderCode.toNat
  | none, none, some r => r.orderCode.toNat
  | none, none, none => 0

/-- The first failure among tests with their codes, in order. -/
def firstBad : List (Bool × Byte) → Option Byte
  | [] => none
  | (bad, code) :: l => if bad then some code else firstBad l

/-- The kind of a signed object. -/
def objectKind : SignedObject → Byte
  | .manifest _ => 1 | .record _ => 2 | .revision _ => 3

/-- MiB that a target's image may take (R497). -/
def targetLimit (t : Byte) : Nat :=
  match t.toNat with
  | 1 => 64 | 2 => 2 | 3 => 8 | 4 => 8 | 5 => 8 | 6 => 96 | 7 => 4 | 8 => 64 | _ => 0

def mib : Nat := 2 ^ 20

/-- Reserved fields of an object are 0 and its FORMAT is 1. -/
def objectPlain : SignedObject → Bool
  | .manifest m => m.reservedZero && m.format == 1 && decide (m.orderCodes.toNat < 8)
  | .record r => recordReserved r && r.format == 1
  | .revision r => r.reservedZero && r.format == 1

/-- The image entries of a manifest name what they must (R497). -/
def imagesNamed (m : Manifest) : Bool :=
  let ts := m.images.map (·.target.toNat)
  if m.recovery then ts == [8] else decide (ts.length = 7) && (List.range 7).all (fun i => ts.contains (i + 1))

/-- Checks of a manifest. -/
def manifestBad (s : State) (slot : Byte) (m : Manifest) : Option Byte :=
  let now := rollbackNow s
  let floor := if m.recovery then now.recoverySv else now.fwSv
  let revoked := now.keyRevoked ||| m.keyRevoke
  firstBad
    [(decide (m.securityVersion < floor), refRollback)
    , (moduleOrder s = 0 || !bit m.orderCodes (moduleOrder s - 1) || decide (Config.stepping.toNat < m.minStepping.toNat), refModule)
    , (!imagesNamed m || m.images.any (fun e => decide (e.offset.toNat % 4096 ≠ 0) || e.length = 0), refFormat)
    , (m.images.any (fun e => decide (targetLimit e.target * mib < e.length.toNat))
        || decide (256 * mib < m.images.foldl (fun n e => n + e.length.toNat) 0), refLarge)
    , (decide (slot.toNat < 4) && m.keyRevoke.getLsbD slot.toNat || revoked == 15, refRevoked)]

/-- Checks of a configuration record: R27, and REVISION above its floor and the one in use. -/
def recordBad (s : State) (r : ConfigRecord) : Option Byte :=
  firstBad
    [(decide (r.serial ≠ s.serial), refModule), (!recordFits s r, refFormat)
    , (decide (r.revision ≤ (rollbackNow s).configFloor) || (match s.build.record with
        | some x => decide (r.revision ≤ x.revision)
        | none => false), refRollback)]

/-- Checks of a chart revision (R511). -/
def revisionBad (s : State) (r : ChartRevision) : Option Byte :=
  firstBad
    [(decide (r.serial ≠ s.serial), refModule), (decide (r.upToSeq ≤ (rollbackNow s).chartFloor), refRollback)
    , (decide (highestField s.build.chart < r.upToSeq) || decide (16384 < r.entries.length)
        || !r.entries.all (fun e => e.source == 4 && entryFits e), refFormat)]

/-- OBJECT_LEN and TOTAL_LEN say what the package holds: the body and its signature block, and for a manifest the images, which lie within the
package (R496, R497). -/
def lengthsFit (k : Package) : Bool :=
  k.objectLen.toNat == (objectBody k.object).length + 3072 && (match k.object with
    | .manifest m => m.totalLen == k.totalLen && m.images.all (fun e => decide (e.offset.toNat + e.length.toNat ≤ k.totalLen.toNat))
        && (k.images.map (·.length) == m.images.map (·.length.toNat))
    | .record _ => k.totalLen.toNat == 16 + k.objectLen.toNat
    | .revision _ => k.totalLen.toNat == 16 + k.objectLen.toNat)

/-- The checks of R498 in their order, the images' digests last. -/
def packageBad (s : State) (k : Package) : Option Byte :=
  let first := firstBad
    [(s.update.relaying || decide (s.update.phase ≠ .idle), refBusy)
    , (k.magic ≠ 0x50574B47 || k.reserved ≠ 0 || !lengthsFit k || k.kind ≠ objectKind k.object || !objectPlain k.object || !blockPlain k.block, refFormat)
    , (decide (blockKind k.block ≠ k.kind), refSignature)
    , (decide ((blockSlot k.block).toNat < 4) && (rollbackNow s).keyRevoked.getLsbD (blockSlot k.block).toNat, refRevoked)
    , (!signedBy s (objectBody k.object) k.block, refSignature)]
  match first with
  | some c => some c
  | none =>
    match k.object with
    | .manifest m =>
      match manifestBad s (blockSlot k.block) m with
      | some c => some c
      | none => if m.images.zipIdx.any (fun (e, i) => decide (Config.sha384 (k.images.getD i []) ≠ e.hash)) then some refHash else none
    | .record r => recordBad s r
    | .revision r => revisionBad s r

/-! ### What a package becomes (R24, R27, R499, R511) -/

/-- Both flash copies, those that work. -/
def bothFlash (f : Flash → Flash) (s : State) : State :=
  { s with flash0 := if s.flash0.works then f s.flash0 else s.flash0, flash1 := if s.flash1.works then f s.flash1 else s.flash1 }

/-- The bank that ACTIVE_BANK does not name. -/
def idleBank (s : State) : Nat := if (rollbackNow s).activeBank = 1 then 0 else 1

def putBank (n : Nat) (b : Bank) (f : Flash) : Flash :=
  if n = 0 then { f with bankA := b } else if n = 1 then { f with bankB := b } else { f with recovery := b }

/-- The staged update needs no relay where the recovery bank runs (R509). -/
def inRecovery (s : State) : Bool := decide (s.life.firmware = .recovery)

/-- The relay of the staged bank begins. -/
def startRelay (s : State) : State :=
  relayDone { s with update := { s.update with relaying := true, relayed := false, dies := [], forwarded := [], requests := [] } }

/-- A manifest package is written to the idle bank and staged, in segment 96 too; a recovery manifest to the recovery bank, with RECOVERY_SV
raised. -/
def storeManifest (m : Manifest) (b : Bank) (s : State) : State :=
  if m.recovery then
    rollbackWrite (fun e => { e with recoverySv := larger e.recoverySv m.securityVersion }) (bothFlash (putBank 2 b) s)
  else
    let s := bothFlash (putBank (idleBank s) b) s
    let s := { s with update := { s.update with staged := some m, relayed := false, seg96Next := bankImages m } }
    if inRecovery s then { s with update := { s.update with relayed := true } } else startRelay s

/-- An accepted object is stored; a record and a revision take effect at the next start. -/
def storeObject (k : Package) (s : State) : State :=
  match k.object with
  | .manifest m => storeManifest m ⟨some m, blockSlot k.block, k.images⟩ s
  | .record r => bothFlash (fun f => { f with nextRecord := some r }) s
  | .revision r => bothFlash (fun f => { f with nextRevision := some r }) s

/-- A request of an update path: Redfish with the Administrator role, or the tray controller; the console has none. -/
def byUpdatePath (path : MgmtPath) (f : State → State) (s : State) : State :=
  match path with
  | .redfish who => asks who .administrator f s
  | .pldm => if s.mgmt.active.isNone then s else f s
  | .console => s

/-- PACKAGE_RECEIVE. -/
def packageReceive (k : Package) (s : State) : State :=
  match packageBad s k with
  | some c => answer (.refusal c.toNat) (note .packageRefused c.toNat 0 s)
  | none => storeObject k (note .packageAccepted k.kind.toNat 0 (replyTask s))

def execPackageReceive (path : MgmtPath) (k : Package) (s : State) : Out := done s (byUpdatePath path (packageReceive k))

/-! ### The relay (R500 to R503) -/

/-- The relay as a die sees it. -/
def State.relayDie (s : State) (d : Nat) : RelayDie := s.update.dies.getD d {}
def updRelay (d : Nat) (f : RelayDie → RelayDie) (s : State) : State := { s with update := { s.update with dies := s.update.dies.update d {} f } }

/-- How many blocks from one on are kept, one after another. -/
def blocksFrom (ahead : List Nat) : Nat → Nat → Nat
  | 0, _ => 0
  | fuel + 1, b => if ahead.contains b then 1 + blocksFrom ahead fuel (b + 1) else 0

/-- RELAY_BLOCK: a block whose CRC passes is kept, and goes to the die below once every block before it has gone. -/
def relayBlock (c : RelayChain) (d : Nat) (block n : W32) (ok : Bool) (s : State) : State :=
  let l := chainDies s c
  let r := s.relayDie d
  let b := block.toNat
  if !s.update.relaying || !l.contains d || !ok || r.complete || n.toNat ≤ b || b < r.next || r.ahead.contains b then s
  else
    let ahead := b :: r.ahead
    let k := blocksFrom ahead ahead.length r.next
    let s := updRelay d (fun r => { r with
      next := r.next + k, ahead := ahead.filter (fun x => decide (r.next + k ≤ x)), asks := r.asks.drop b, complete := decide (r.next + k = n.toNat) }) s
    if l.getLast? = some d then s
    else { s with update := { s.update with forwarded := s.update.forwarded ++ (List.range k).map (fun i => (d, BitVec.ofNat 32 (r.next + i))) } }

def execRelayBlock (chain : RelayChain) (die : Nat) (block count : W32) (crcOk : Bool) (s : State) : Out :=
  .next (relayBlock chain die block count crcOk s)

/-- RELAY_BLOCK_REQUEST: a missing block is asked for at most 8 times, requests 20 µs apart; one still missing then fails the relay. -/
def relayBlockRequest (c : RelayChain) (d : Nat) (block : W32) (s : State) : State :=
  let r := s.relayDie d
  let b := block.toNat
  let soon := r.askedAt.any (fun t => decide (s.since t < 80000))
  if !s.update.relaying || !(chainDies s c).contains d || r.complete || soon || b < r.next || r.ahead.contains b then s
  else if 8 ≤ r.asks.getD b 0 then relayFails s
  else
    let s := updRelay d (fun r => { r with asks := r.asks.update b 0 (· + 1), askedAt := some s.now }) s
    { s with update := { s.update with requests := s.update.requests ++ [(d, block)] } }

def execRelayBlockRequest (chain : RelayChain) (die : Nat) (block : W32) (s : State) : Out := .next (relayBlockRequest chain die block s)

/-- RELAY_DIGEST_REPORT: of a die that holds every block, or of a compute die that took its slot from segment 96. -/
def relayDigest (c : RelayChain) (d : Nat) (digest : BitVec 384) (s : State) : State :=
  if !s.update.relaying || !(chainDies s c).contains d then s
  else if !((s.relayDie d).complete || c == .compute) then s
  else if chainHash s c ≠ some digest then relayFails s
  else relayDone (updDie d (fun r => { r with other := some digest }) (updRelay d (fun r => { r with digest := some digest, complete := true }) s))

def execRelayDigestReport (chain : RelayChain) (die : Nat) (digest : BitVec 384) (s : State) : Out := .next (relayDigest chain die digest s)

/-- RELAY_TIMEOUT: a die reported nothing within 1 s of its neighbour. -/
def execRelayTimeout (chain : RelayChain) (die : Nat) (s : State) : Out :=
  .next (if s.update.relaying && (chainDies s chain).contains die && (s.relayDie die).digest.isNone then relayFails s else s)

/-! ### Activation (R504 to R507, R509) -/

/-- The anti-rollback entry of a commit. -/
def commitEntry (bank : Nat) (m : Manifest) (e : RollbackEntry) : RollbackEntry :=
  { e with activeBank := BitVec.ofNat 8 bank, fwSv := larger e.fwSv m.securityVersion, keyRevoked := e.keyRevoked ||| m.keyRevoke }

/-- ACTIVATION_ORDER. -/
def activationOrder (s : State) : State :=
  let refuse (c : Byte) (s : State) : State := answer (.refusal c.toNat) (note .packageRefused c.toNat 1 s)
  match s.update.staged with
  | none => answer (.refusal refFormat.toNat) s
  | some m =>
    if s.update.relaying || s.update.phase ≠ .idle then refuse refBusy s
    else if s.pair.formed && decide (s.pair.mode = 3) then refuse refLocked s
    else
      let s := replyTask s
      if inRecovery s then
        let s := rollbackWrite (commitEntry (idleBank s) m) s
        moduleReset { s with update := { s.update with staged := none, relayed := false } }
      else if s.update.relayed then beginActivation s
      else startRelay { s with update := { s.update with orderWaits := true } }

def execActivationOrder (path : MgmtPath) (s : State) : Out := done s (byUpdatePath path activationOrder)

/-- STANDBY_NEW_VERSION: the hold on new steps is ordered. -/
def standbyNewVersion (v : W32) (s : State) : State :=
  match s.update.staged, s.mgmt.active with
  | some m, some n =>
    if s.update.phase = .standbyRestart ∧ m.version = v then
      let s := if n = 0 then { s with mgmt := { s.mgmt with sv1 := { s.mgmt.sv1 with version := v } } }
        else { s with mgmt := { s.mgmt with sv0 := { s.mgmt.sv0 with version := v } } }
      { s with update := { s.update with phase := .hold } }
    else s
  | _, _ => s

def execStandbyNewVersion (version : W32) (s : State) : Out := .next (standbyNewVersion version s)

/-- S: the first whole millisecond of the Reckoner at least 100 µs ahead. -/
def switchTime (now : W64) : W64 := BitVec.ofNat 64 ((now.toNat + 400000 + 3999999) / 4000000 * 4000000)

/-- ACTIVATION_HOLD_DRAINED: the last step has ended. -/
def execActivationHoldDrained (s : State) : Out :=
  done s (fun s => if s.update.phase = .hold && noStepRuns s then { s with update := { s.update with phase := .switching (switchTime (serviceNow s)) } } else s)

/-- The dies of every chain exchange their two slots, and segment 96 its images and its staging area; compute dies load the kernel library and the
energy model from it (R504, R506). -/
def switchSlots (s : State) : State :=
  let s := (allChains.flatMap (chainDies s)).foldl (fun s d => updDie d (fun r => { r with active := r.other, other := r.active }) s) s
  let s := { s with update := { s.update with seg96 := s.update.seg96Next, seg96Next := s.update.seg96 } }
  (chainDies s .compute).foldl (fun s d => updDie d (fun r => { r with library := s.update.seg96.find 6, model := s.update.seg96.find 7 }) s) s

/-- ACTIVATION_SWITCH: at S every staged slot becomes active. -/
def activationSwitch (s : State) : State :=
  match s.update.phase with
  | .switching t => if t.toNat ≤ (serviceNow s).toNat then switchSlots { s with update := { s.update with phase := .checking t } } else s
  | _ => s

def execActivationSwitch (s : State) : Out := done s activationSwitch

/-- What waited for the activation to end: PART_CREATE, power orders and a module reset. -/
def activationOver (s : State) : State :=
  let orders := s.update.waiting
  let s := { s with update := { s.update with phase := .idle, waiting := [], orderWaits := false } }
  let s := (List.range 9).foldl (fun s f => runUnread f s) s
  resetThatWaits (orders.foldl (fun s o => orderPower o s) s)

/-- ACTIVATION_COMMIT: every die has reported the new version. The anti-rollback entry is written, the images are in use, what waited goes on,
and the service dies fail over. -/
def activationCommit (s : State) : State :=
  match s.update.phase, s.update.staged with
  | .checking _, some m =>
    let bank := idleBank s
    let s := rollbackWrite (commitEntry bank m) s
    let s := { s with
      life := { s.life with firmware := .bank (if bank = 1 then 1 else 0) false }
      update := { s.update with staged := none, relayed := false, seg96Next := [], running := some m, active := m.version } }
    let s := checkFormats m.formats s
    let s := note .activation 1 m.version.toNat s
    let s := { s with mgmt := { s.mgmt with sv0 := { s.mgmt.sv0 with version := m.version }, sv1 := { s.mgmt.sv1 with version := m.version } } }
    activationOver (failOver { s with update := { s.update with phase := .idle } })
  | _, _ => s

def execActivationCommit (s : State) : Out := done s activationCommit

/-- ACTIVATION_FAILED: every die that switched has its previous slot again; a standby whose restart was the cause is tested. -/
def activationFailed (restart : Bool) (s : State) : State :=
  if s.update.phase = .idle then s
  else
    let s := match s.update.phase with
      | .checking _ => switchSlots s
      | _ => s
    let s := answer (.refusal refActivation.toNat) (note .activation 0 refActivation.toNat s)
    let s := match restart, s.mgmt.active with
      | true, some n =>
        let m := otherDie n
        let s := if m = 0 then { s with mgmt := { s.mgmt with sv0 := { s.mgmt.sv0 with works := false } } }
          else { s with mgmt := { s.mgmt with sv1 := { s.mgmt.sv1 with works := false } } }
        detect 0x14 (dieUnit 0x00 (serviceDies.getD m.val 105) 0 0 0) {} s
      | _, _ => s
    let s := { s with mgmt := { s.mgmt with sv0 := { s.mgmt.sv0 with version := s.update.active }, sv1 := { s.mgmt.sv1 with version := s.update.active } } }
    activationOver s

def execActivationFailed (standbyRestart : Bool) (s : State) : Out := done s (activationFailed standbyRestart)

/-! ### Measurements (R514) -/

/-- Chart entries in SEQ_NO order. -/
def bySeqNo (l : List ChartEntry) : List ChartEntry :=
  l.foldl (fun a e => a.takeWhile (fun x => decide (x.seqNo ≤ e.seqNo)) ++ [e] ++ a.dropWhile (fun x => decide (x.seqNo ≤ e.seqNo))) []

/-- The hash of the running image of a target. -/
def imageHash (s : State) (t : Byte) : List Byte :=
  match (s.update.running.bind (fun m => m.images.find? (fun e => e.target == t || (t == 1 && e.target == 8)))) with
  | some e => hashBytes e.hash
  | none => []

/-- The value of a measurement block; none for an index that is not listed. -/
def measurement (s : State) (n : Fin 2) (index : Nat) : Option (List Byte) :=
  let now := rollbackNow s
  match index with
  | 1 => some (hashBytes (Config.romMeasurement n))
  | 2 => some (imageHash s 1) | 3 => some (imageHash s 2) | 4 => some (imageHash s 3) | 5 => some (imageHash s 4) | 6 => some (imageHash s 5)
  | 7 => some (imageHash s 6) | 8 => some (imageHash s 7)
  | 9 => some (match s.build.record with
    | some r => hashBytes (Config.sha384 (configBytes r))
    | none => [])
  | 10 => some (hashBytes (Config.sha384 ((bySeqNo s.build.chart).flatMap chartBytes)))
  | 11 =>
    let (bank, back) : Nat × Bool := match s.life.firmware with
      | .bank b f => (b.val, f)
      | .recovery => (2, false)
      | .none => (2, false)
    some (leBytes 4 now.fwSv.toNat ++ leBytes 4 now.recoverySv.toNat ++ leBytes 4 now.chartFloor.toNat ++ leBytes 4 now.configFloor.toNat
      ++ leBytes 1 now.keyRevoked.toNat ++ leBytes 1 bank ++ leBytes 1 (if back then 1 else 0) ++ List.replicate 13 0)
  | 12 => some (leBytes 1 (if s.mgmt.console.unlocked.isSome then 1 else 0) ++ leBytes 1 (count s.ctxs (fun e => e.2.debug)) ++ List.replicate 6 0)
  | _ => none

/-- DMTFSpecMeasurementValueType of a block: its kind, with bit 7 set for a raw bit stream (R514). -/
def measurementType (index : Nat) : Byte :=
  if index = 1 then 0x00 else if index ≤ 7 then 0x01 else if index = 8 then 0x03 else if index ≤ 10 then 0x02 else 0x82

/-- A block in DMTF measurement format: index, specification, size, type, size, value. -/
def measurementBlock (s : State) (n : Fin 2) (index : Nat) : List Byte :=
  match measurement s n index with
  | none => []
  | some v => leBytes 1 index ++ [0x01] ++ leBytes 2 (v.length + 3) ++ [measurementType index] ++ leBytes 2 v.length ++ v

/-! ### SPDM (R512, R513) -/

/-- Response codes of SPDM. -/
def spDigests : Nat := 0x01
def spCertificate : Nat := 0x02
def spChallenge : Nat := 0x03
def spVersion : Nat := 0x04
def spMeasurements : Nat := 0x60
def spCapabilities : Nat := 0x61
def spAlgorithms : Nat := 0x63
def spError : Nat := 0x7F

/-- A request at the DOE mailbox of PF 0, answered while the link is up and a service die is active. -/
def spdm (f : Fin 2 → State → State) (s : State) : Out :=
  .next (match s.mgmt.active with
    | some n => if s.link.up then f n s else s
    | none => s)

def spAnswer (code : Nat) (b : List Byte) : State → State := answer (.spdm code b)
def invalidRequest : State → State := spAnswer spError [0x01, 0x00]

def execGetVersion (s : State) : Out := spdm (fun _ => spAnswer spVersion [0x00, 0x02, 0x00, 0x12, 0x00, 0x13]) s
/-- CERT_CAP, CHAL_CAP and MEAS_CAP with signature. -/
def execGetCapabilities (s : State) : Out := spdm (fun _ => spAnswer spCapabilities [0x16, 0x00, 0x00, 0x00]) s
/-- ECDSA P-384 with SHA-384, and SHA-384 for measurement. -/
def execNegotiateAlgorithms (s : State) : Out := spdm (fun _ => spAnswer spAlgorithms ([0x04, 0x00, 0x00, 0x00] ++ [0x80, 0x00, 0x00, 0x00] ++ [0x02, 0x00, 0x00, 0x00])) s
def execGetDigests (s : State) : Out :=
  spdm (fun _ => spAnswer spDigests (hashBytes (Config.sha384 (Config.certChain 0)) ++ hashBytes (Config.sha384 (Config.certChain 1)))) s

/-- A number as a certificate slot. -/
def asSlot (b : Byte) : Option (Fin 2) := if b = 0 then some 0 else if b = 1 then some 1 else none

def execGetCertificate (slot : Byte) (offset length : W16) (s : State) : Out :=
  spdm (fun _ s => match asSlot slot with
    | none => invalidRequest s
    | some n =>
      let c := Config.certChain n
      let part := (c.drop offset.toNat).take length.toNat
      if c.length < offset.toNat then invalidRequest s
      else spAnswer spCertificate (leBytes 2 part.length ++ leBytes 2 (c.length - offset.toNat - part.length) ++ part) s) s

/-- A draw of the service die's random source. -/
def drawNonce (s : State) : List Byte × State :=
  (leBytes 32 (Config.nonce s.mgmt.console.nonces).toNat
  , { s with mgmt := { s.mgmt with console := { s.mgmt.console with nonces := s.mgmt.console.nonces + 1 } } })

/-- A response signed with the active die's key over the requester's nonce and the response. -/
def signed (n : Fin 2) (code : Nat) (nonce : BitVec 256) (body : List Byte) (s : State) : State :=
  let (r, s) := drawNonce s
  spAnswer code (body ++ r ++ Config.spdmSign n (leBytes 32 nonce.toNat ++ body ++ r)) s

def execChallenge (slot : Byte) (nonce : BitVec 256) (s : State) : Out :=
  spdm (fun n s => if asSlot slot = some n then signed n spChallenge nonce (hashBytes (Config.sha384 (Config.certChain n))) s else invalidRequest s) s

/-- GET_MEASUREMENTS: index 0 asks for their number, 0xFF for all of them. -/
def execGetMeasurements (slot index : Byte) (signed_ : Bool) (nonce : BitVec 256) (s : State) : Out :=
  spdm (fun n s =>
    let is := if index = 0xFF then (List.range 12).map (· + 1) else [index.toNat]
    if (signed_ && asSlot slot ≠ some n) || (index ≠ 0 && index ≠ 0xFF && 12 < index.toNat) then invalidRequest s
    else
      let body := if index = 0 then [0x0C] else leBytes 1 is.length ++ is.flatMap (measurementBlock s n)
      if signed_ then signed n spMeasurements nonce body s else spAnswer spMeasurements body s) s

/-- Any other request: ERROR UnsupportedRequest, with the request's code. -/
def execSpdmUnsupported (code : Byte) (s : State) : Out := spdm (fun _ => spAnswer spError [0x07, code]) s

end Sys2Proof.Machine
end

