-- ==== Sys2Proof/Machine/Dispatch.lean ====
section
/-! DEFINITION. The dispatch: one arm for each constructor of Instr. -/
namespace Sys2Proof.Machine

def exec (i : Instr) (s : State) : Host.Outcome State Fault Refusal :=
  match i with
  | .attentionButtonRelease => Sys2Proof.Machine.execAttentionButtonRelease s
  | .attentionButtonHeld15s => Sys2Proof.Machine.execAttentionButtonHeld15s s
  | .lampTestStep => Sys2Proof.Machine.execLampTestStep s
  | .padTouch b => Sys2Proof.Machine.execPadTouch b s
  | .bayMigrationStart b => Sys2Proof.Machine.execBayMigrationStart b s
  | .bayPowerOff b => Sys2Proof.Machine.execBayPowerOff b s
  | .baySafeBlue b => Sys2Proof.Machine.execBaySafeBlue b s
  | .latchOpen b presenceLost => Sys2Proof.Machine.execLatchOpen b presenceLost s
  | .latchClosed b spd => Sys2Proof.Machine.execLatchClosed b spd s
  | .dimmEnterService b => Sys2Proof.Machine.execDimmEnterService b s
  | .cablePresenceChange k present identity => Sys2Proof.Machine.execCablePresenceChange k present identity s
  | .ethernetLinkChange up => Sys2Proof.Machine.execEthernetLinkChange up s
  | .wakeNLow lowUs => Sys2Proof.Machine.execWakeNLow lowUs s
  | .pwrCycleReqRepeat => Sys2Proof.Machine.execPwrCycleReqRepeat s
  | .inputFault mv lastedUs => Sys2Proof.Machine.execInputFault mv lastedUs s
  | .aonStop mv => Sys2Proof.Machine.execAonStop mv s
  | .coolantSample r => Sys2Proof.Machine.execCoolantSample r s
  | .coldStart cause pos => Sys2Proof.Machine.execColdStart cause pos s
  | .coldStartStage r => Sys2Proof.Machine.execColdStartStage r s
  | .heaterEnd inBand => Sys2Proof.Machine.execHeaterEnd inBand s
  | .perstDeassert => Sys2Proof.Machine.execPerstDeassert s
  | .segmentExchange n => Sys2Proof.Machine.execSegmentExchange n s
  | .weightTileLoad c m arrays t => Sys2Proof.Machine.execWeightTileLoad c m arrays t s
  | .wsPass c m a p upsets => Sys2Proof.Machine.execWsPass c m a p upsets s
  | .osPass c m a p top dest upsets => Sys2Proof.Machine.execOsPass c m a p top dest upsets s
  | .faultCaptureFill c m error => Sys2Proof.Machine.execFaultCaptureFill c m error s
  | .accumulatorConvert c m a row d => Sys2Proof.Machine.execAccumulatorConvert c m a row d s
  | .arraySpareSubstitute c m a column index => Sys2Proof.Machine.execArraySpareSubstitute c m a column index s
  | .engineInstructionIssue c core e => Sys2Proof.Machine.execEngineInstructionIssue c core e s
  | .ceWriteback m => Sys2Proof.Machine.execCeWriteback m s
  | .patrolScrub m row found => Sys2Proof.Machine.execPatrolScrub m row found s
  | .rowMapCopy m row cause => Sys2Proof.Machine.execRowMapCopy m row cause s
  | .granuleScrubDone g => Sys2Proof.Machine.execGranuleScrubDone g s
  | .scrubComplete => Sys2Proof.Machine.execScrubComplete s
  | .descriptorFetch p => Sys2Proof.Machine.execDescriptorFetch p s
  | .operationStart p => Sys2Proof.Machine.execOperationStart p s
  | .barrierArrival p c => Sys2Proof.Machine.execBarrierArrival p c s
  | .barrierRelease p => Sys2Proof.Machine.execBarrierRelease p s
  | .operationEnd p measured => Sys2Proof.Machine.execOperationEnd p measured s
  | .operationFail p => Sys2Proof.Machine.execOperationFail p s
  | .nop p => Sys2Proof.Machine.execNop p s
  | .endStep p seqCopy => Sys2Proof.Machine.execEndStep p seqCopy s
  | .mirrorPointTimer c => Sys2Proof.Machine.execMirrorPointTimer c s
  | .matmul p h => Sys2Proof.Machine.execMatmul p h s
  | .matmulSkip p h => Sys2Proof.Machine.execMatmulSkip p h s
  | .groupedMatmulPlain p h => Sys2Proof.Machine.execGroupedMatmulPlain p h s
  | .groupedMatmulCombine p h => Sys2Proof.Machine.execGroupedMatmulCombine p h s
  | .groupedMatmulGated p h => Sys2Proof.Machine.execGroupedMatmulGated p h s
  | .predict p h => Sys2Proof.Machine.execPredict p h s
  | .route p h => Sys2Proof.Machine.execRoute p h s
  | .move p h => Sys2Proof.Machine.execMove p h s
  | .gather p h => Sys2Proof.Machine.execGather p h s
  | .scatter p h => Sys2Proof.Machine.execScatter p h s
  | .embed p h => Sys2Proof.Machine.execEmbed p h s
  | .kvAppend p h => Sys2Proof.Machine.execKvAppend p h s
  | .attnDecode p h => Sys2Proof.Machine.execAttnDecode p h s
  | .attnPrefill p h => Sys2Proof.Machine.execAttnPrefill p h s
  | .attnTrain p h => Sys2Proof.Machine.execAttnTrain p h s
  | .attnBackward p h => Sys2Proof.Machine.execAttnBackward p h s
  | .sample p h => Sys2Proof.Machine.execSample p h s
  | .markSignal p => Sys2Proof.Machine.execMarkSignal p s
  | .markWait p => Sys2Proof.Machine.execMarkWait p s
  | .rmsnorm p h => Sys2Proof.Machine.execRmsnorm p h s
  | .rotary p h => Sys2Proof.Machine.execRotary p h s
  | .gluSilu p h => Sys2Proof.Machine.execGluSilu p h s
  | .gluGelu p h => Sys2Proof.Machine.execGluGelu p h s
  | .relu2 p h => Sys2Proof.Machine.execRelu2 p h s
  | .add p h => Sys2Proof.Machine.execAdd p h s
  | .mul p h => Sys2Proof.Machine.execMul p h s
  | .convert p h => Sys2Proof.Machine.execConvert p h s
  | .softmax p h => Sys2Proof.Machine.execSoftmax p h s
  | .topk p h => Sys2Proof.Machine.execTopk p h s
  | .crossEntropy p h => Sys2Proof.Machine.execCrossEntropy p h s
  | .rmsnormBwd p h => Sys2Proof.Machine.execRmsnormBwd p h s
  | .gluSiluBwd p h => Sys2Proof.Machine.execGluSiluBwd p h s
  | .gluGeluBwd p h => Sys2Proof.Machine.execGluGeluBwd p h s
  | .relu2Bwd p h => Sys2Proof.Machine.execRelu2Bwd p h s
  | .rotaryBwd p h => Sys2Proof.Machine.execRotaryBwd p h s
  | .attnDelta p h => Sys2Proof.Machine.execAttnDelta p h s
  | .sumsq p h => Sys2Proof.Machine.execSumsq p h s
  | .adamw p h => Sys2Proof.Machine.execAdamw p h s
  | .summaryCacheCopy p summaries => Sys2Proof.Machine.execSummaryCacheCopy p summaries s
  | .ringSqTail fn ring value => Sys2Proof.Machine.execRingSqTail fn ring value s
  | .ringCqHead fn ring value => Sys2Proof.Machine.execRingCqHead fn ring value s
  | .ringTqHead fn ring value => Sys2Proof.Machine.execRingTqHead fn ring value s
  | .nopDescriptor ring h => Sys2Proof.Machine.execNopDescriptor ring h s
  | .stepDecode ring h program => Sys2Proof.Machine.execStepDecode ring h program s
  | .stepPrefill ring h program count => Sys2Proof.Machine.execStepPrefill ring h program count s
  | .stepTraining ring h program count => Sys2Proof.Machine.execStepTraining ring h program count s
  | .programLoad ring h program count hostAddr bytes body => Sys2Proof.Machine.execProgramLoad ring h program count hostAddr bytes body s
  | .programUnload ring h program => Sys2Proof.Machine.execProgramUnload ring h program s
  | .seqAdmit ring h a => Sys2Proof.Machine.execSeqAdmit ring h a s
  | .seqCancel ring h slot => Sys2Proof.Machine.execSeqCancel ring h slot s
  | .seqRetire ring h slot => Sys2Proof.Machine.execSeqRetire ring h slot s
  | .write ring h hostAddr ssAddr length bytes body => Sys2Proof.Machine.execWrite ring h hostAddr ssAddr length bytes body s
  | .read ring h hostAddr ssAddr length => Sys2Proof.Machine.execRead ring h hostAddr ssAddr length s
  | .descReservedType ring h type => Sys2Proof.Machine.execDescReservedType ring h type s
  | .busMasterEnableSet fn => Sys2Proof.Machine.execBusMasterEnableSet fn s
  | .statusBlockWrite fn delivered => Sys2Proof.Machine.execStatusBlockWrite fn delivered s
  | .coalesceTimeout token ring => Sys2Proof.Machine.execCoalesceTimeout token ring s
  | .registerWrite fn bar offset size value => Sys2Proof.Machine.execRegisterWrite fn bar offset size value s
  | .glbModuleReset fn value => Sys2Proof.Machine.execGlbModuleReset fn value s
  | .warmStartStage r => Sys2Proof.Machine.execWarmStartStage r s
  | .moduleResetReadyTimeout => Sys2Proof.Machine.execModuleResetReadyTimeout s
  | .clusterEngineReset fn index findings => Sys2Proof.Machine.execClusterEngineReset fn index findings s
  | .memoryDieEngineReset fn index acknowledged verifyFails => Sys2Proof.Machine.execMemoryDieEngineReset fn index acknowledged verifyFails s
  | .selfRefreshAckTimeout die => Sys2Proof.Machine.execSelfRefreshAckTimeout die s
  | .consortDieEngineReset fn index => Sys2Proof.Machine.execConsortDieEngineReset fn index s
  | .partReset fn p value findings => Sys2Proof.Machine.execPartReset fn p value findings s
  | .partCtxReset fn p value => Sys2Proof.Machine.execPartCtxReset fn p value s
  | .ctxResetComplete c => Sys2Proof.Machine.execCtxResetComplete c s
  | .ctxResetDrainTimeout c => Sys2Proof.Machine.execCtxResetDrainTimeout c s
  | .partCtxResume fn p value => Sys2Proof.Machine.execPartCtxResume fn p value s
  | .clkPtmCtrlRequest value => Sys2Proof.Machine.execClkPtmCtrlRequest value s
  | .clkReckNowLoRead => Sys2Proof.Machine.execClkReckNowLoRead s
  | .partCreate h partition groups => Sys2Proof.Machine.execPartCreate h partition groups s
  | .partCreateDone p => Sys2Proof.Machine.execPartCreateDone p s
  | .partDestroy h partition => Sys2Proof.Machine.execPartDestroy h partition s
  | .ctxCreate h context partition flags quota => Sys2Proof.Machine.execCtxCreate h context partition flags quota s
  | .ctxDestroy h context => Sys2Proof.Machine.execCtxDestroy h context s
  | .ctxConfig h b => Sys2Proof.Machine.execCtxConfig h b s
  | .granuleGrant h context granules => Sys2Proof.Machine.execGranuleGrant h context granules s
  | .granuleGrantResume fn => Sys2Proof.Machine.execGranuleGrantResume fn s
  | .granuleReturn h context granules => Sys2Proof.Machine.execGranuleReturn h context granules s
  | .ringCreate h b => Sys2Proof.Machine.execRingCreate h b s
  | .ringDestroy h kind ring => Sys2Proof.Machine.execRingDestroy h kind ring s
  | .setupReserved h code => Sys2Proof.Machine.execSetupReserved h code s
  | .markCreate h context vmark kind target value period => Sys2Proof.Machine.execMarkCreate h context vmark kind target value period s
  | .markShare h context vmark owner ownerVmark => Sys2Proof.Machine.execMarkShare h context vmark owner ownerVmark s
  | .markUnmap h context vmark => Sys2Proof.Machine.execMarkUnmap h context vmark s
  | .markHostSignal h context vmark mode value found => Sys2Proof.Machine.execMarkHostSignal h context vmark mode value found s
  | .markInspect h context vmark found => Sys2Proof.Machine.execMarkInspect h context vmark found s
  | .lookoutSet h context vmark ms => Sys2Proof.Machine.execLookoutSet h context vmark ms s
  | .lookoutRead h context vmark => Sys2Proof.Machine.execLookoutRead h context vmark s
  | .gangJoin h context vmark => Sys2Proof.Machine.execGangJoin h context vmark s
  | .gangLeave h context vmark => Sys2Proof.Machine.execGangLeave h context vmark s
  | .markMapReservedOp h op => Sys2Proof.Machine.execMarkMapReservedOp h op s
  | .linkTrained width speed flit => Sys2Proof.Machine.execLinkTrained width speed flit s
  | .surpriseLinkDown => Sys2Proof.Machine.execSurpriseLinkDown s
  | .perstAssert => Sys2Proof.Machine.execPerstAssert s
  | .functionLevelReset fn => Sys2Proof.Machine.execFunctionLevelReset fn s
  | .flitRetry at_ south back vc nth outcome => Sys2Proof.Machine.execFlitRetry at_ south back vc nth outcome s
  | .routeChange => Sys2Proof.Machine.execRouteChange s
  | .markAdd k v src found => Sys2Proof.Machine.execMarkAdd k v src found s
  | .markSet k v src found => Sys2Proof.Machine.execMarkSet k v src found s
  | .markArrive k src found => Sys2Proof.Machine.execMarkArrive k src found s
  | .markReset k src found => Sys2Proof.Machine.execMarkReset k src found s
  | .markWaitAtLeast k t c found => Sys2Proof.Machine.execMarkWaitAtLeast k t c found s
  | .markWaitArrive k c found => Sys2Proof.Machine.execMarkWaitArrive k c found s
  | .markWaitTake k t c found => Sys2Proof.Machine.execMarkWaitTake k t c found s
  | .markWakeDelivered p => Sys2Proof.Machine.execMarkWakeDelivered p s
  | .markAckDelivered p => Sys2Proof.Machine.execMarkAckDelivered p s
  | .gangStart p => Sys2Proof.Machine.execGangStart p s
  | .lookoutRecord c => Sys2Proof.Machine.execLookoutRecord c s
  | .dimmTempPoll ch t0 t1 => Sys2Proof.Machine.execDimmTempPoll ch t0 t1 s
  | .dimmPatrolScrub ch addr found => Sys2Proof.Machine.execDimmPatrolScrub ch addr found s
  | .channelRetrain ch cause => Sys2Proof.Machine.execChannelRetrain ch cause s
  | .retrainSlice ch last failed => Sys2Proof.Machine.execRetrainSlice ch last failed s
  | .dimmZeroFillDone c => Sys2Proof.Machine.execDimmZeroFillDone c s
  | .channelTakeOut ch => Sys2Proof.Machine.execChannelTakeOut ch s
  | .pageCopySwitch ch page => Sys2Proof.Machine.execPageCopySwitch ch page s
  | .oldPageRelease ch => Sys2Proof.Machine.execOldPageRelease ch s
  | .referenceLost partner => Sys2Proof.Machine.execReferenceLost partner s
  | .meridianOutOfLock at_ => Sys2Proof.Machine.execMeridianOutOfLock at_ s
  | .guardBandBreach x => Sys2Proof.Machine.execGuardBandBreach x s
  | .frequencyChangeRequest r freq => Sys2Proof.Machine.execFrequencyChangeRequest r freq s
  | .regionStop r => Sys2Proof.Machine.execRegionStop r s
  | .regionResume r => Sys2Proof.Machine.execRegionResume r s
  | .droopAlarm x vmin => Sys2Proof.Machine.execDroopAlarm x vmin s
  | .droopClear x => Sys2Proof.Machine.execDroopClear x s
  | .droopHoldEnd r => Sys2Proof.Machine.execDroopHoldEnd r s
  | .reckonerEpoch differences => Sys2Proof.Machine.execReckonerEpoch differences s
  | .ptmDialogue masterTime delay => Sys2Proof.Machine.execPtmDialogue masterTime delay s
  | .ptmTimeout => Sys2Proof.Machine.execPtmTimeout s
  | .sensePairSwitch x bothLost => Sys2Proof.Machine.execSensePairSwitch x bothLost s
  | .phaseFault x phase kind => Sys2Proof.Machine.execPhaseFault x phase kind s
  | .firstStageFail k => Sys2Proof.Machine.execFirstStageFail k s
  | .crackLoopMeasure l ohms => Sys2Proof.Machine.execCrackLoopMeasure l ohms s
  | .sitePowerUpRequest x groupCurrent peakOk => Sys2Proof.Machine.execSitePowerUpRequest x groupCurrent peakOk s
  | .siteAdmissionTimeout x step => Sys2Proof.Machine.execSiteAdmissionTimeout x step s
  | .siteInService x => Sys2Proof.Machine.execSiteInService x s
  | .powerUpWave w => Sys2Proof.Machine.execPowerUpWave w s
  | .sitePowerDown x => Sys2Proof.Machine.execSitePowerDown x s
  | .thermalSample d sensors => Sys2Proof.Machine.execThermalSample d sensors s
  | .siteHeatOff x => Sys2Proof.Machine.execSiteHeatOff x s
  | .siteHeatReturn x => Sys2Proof.Machine.execSiteHeatReturn x s
  | .hardThermalTrip d sensor => Sys2Proof.Machine.execHardThermalTrip d sensor s
  | .hardTripReturn x finding => Sys2Proof.Machine.execHardTripReturn x finding s
  | .navigatorTripRetire x => Sys2Proof.Machine.execNavigatorTripRetire x s
  | .powerStateEnter => Sys2Proof.Machine.execPowerStateEnter s
  | .capCheck average peak amps => Sys2Proof.Machine.execCapCheck average peak amps s
  | .marginSample r slacks => Sys2Proof.Machine.execMarginSample r slacks s
  | .energyTrim measured shared model perContext => Sys2Proof.Machine.execEnergyTrim measured shared model perContext s
  | .targetedSelftestStart detectNo => Sys2Proof.Machine.execTargetedSelftestStart detectNo s
  | .selftestOutcome detectNo f => Sys2Proof.Machine.execSelftestOutcome detectNo f s
  | .clusterLost c cls => Sys2Proof.Machine.execClusterLost c cls s
  | .consortPortTrain p lanes serial => Sys2Proof.Machine.execConsortPortTrain p lanes serial s
  | .portRetrainTimer p => Sys2Proof.Machine.execPortRetrainTimer p s
  | .heartbeatSend => Sys2Proof.Machine.execHeartbeatSend s
  | .portDown p => Sys2Proof.Machine.execPortDown p s
  | .identity h b => Sys2Proof.Machine.execIdentity h b s
  | .ack h ackSeq nakSeq => Sys2Proof.Machine.execAck h ackSeq nakSeq s
  | .heartbeat h role mode running pairId => Sys2Proof.Machine.execHeartbeat h role mode running pairId s
  | .departing h reason => Sys2Proof.Machine.execDeparting h reason s
  | .timeReq h t1 => Sys2Proof.Machine.execTimeReq h t1 s
  | .timeResp h t1 t2 t3 => Sys2Proof.Machine.execTimeResp h t1 t2 t3 s
  | .setupFwd h c => Sys2Proof.Machine.execSetupFwd h c s
  | .descFwd h ring index descriptor hostBytes => Sys2Proof.Machine.execDescFwd h ring index descriptor hostBytes s
  | .stepStart h step start => Sys2Proof.Machine.execStepStart h step start s
  | .digest h d => Sys2Proof.Machine.execDigest h d s
  | .clusterDigest h step c d => Sys2Proof.Machine.execClusterDigest h step c d s
  | .mirrorData h d => Sys2Proof.Machine.execMirrorData h d s
  | .mirrorEnd h point frames => Sys2Proof.Machine.execMirrorEnd h point frames s
  | .mirrorAck h point => Sys2Proof.Machine.execMirrorAck h point s
  | .snapshotData h d => Sys2Proof.Machine.execSnapshotData h d s
  | .copyReq h object address length => Sys2Proof.Machine.execCopyReq h object address length s
  | .copyData h d => Sys2Proof.Machine.execCopyData h d s
  | .stepRestore c => Sys2Proof.Machine.execStepRestore c s
  | .lockedModeEntry => Sys2Proof.Machine.execLockedModeEntry s
  | .probeSend => Sys2Proof.Machine.execProbeSend s
  | .probeReceive q => Sys2Proof.Machine.execProbeReceive q s
  | .probeAnswer q => Sys2Proof.Machine.execProbeAnswer q s
  | .probeTimeout => Sys2Proof.Machine.execProbeTimeout s
  | .holdMaxExpiry => Sys2Proof.Machine.execHoldMaxExpiry s
  | .serviceHeartbeat => Sys2Proof.Machine.execServiceHeartbeat s
  | .standbyTakeover => Sys2Proof.Machine.execStandbyTakeover s
  | .noServiceDieTimeout => Sys2Proof.Machine.execNoServiceDieTimeout s
  | .redfishGet who r => Sys2Proof.Machine.execRedfishGet who r s
  | .redfishSettingsWrite who etag name value => Sys2Proof.Machine.execRedfishSettingsWrite who etag name value s
  | .redfishLocate who on => Sys2Proof.Machine.execRedfishLocate who on s
  | .redfishPowerLimit who watts => Sys2Proof.Machine.execRedfishPowerLimit who watts s
  | .redfishReset who t => Sys2Proof.Machine.execRedfishReset who t s
  | .redfishSetPowerState who t force => Sys2Proof.Machine.execRedfishSetPowerState who t force s
  | .redfishFailover who => Sys2Proof.Machine.execRedfishFailover who s
  | .redfishSessionCreate account password => Sys2Proof.Machine.execRedfishSessionCreate account password s
  | .sessionTimeout session => Sys2Proof.Machine.execSessionTimeout session s
  | .redfishAccountWrite who w => Sys2Proof.Machine.execRedfishAccountWrite who w s
  | .moduleRecord inputMv inputW energyMj => Sys2Proof.Machine.execModuleRecord inputMv inputW energyMj s
  | .dieHealthRecord d busy energyMj lowest => Sys2Proof.Machine.execDieHealthRecord d busy energyMj lowest s
  | .counterRecord d => Sys2Proof.Machine.execCounterRecord d s
  | .energyRecord c => Sys2Proof.Machine.execEnergyRecord c s
  | .collectorReachable => Sys2Proof.Machine.execCollectorReachable s
  | .dailySample d age0 age1 vmin => Sys2Proof.Machine.execDailySample d age0 age1 vmin s
  | .pldmPowerStateEffecter value => Sys2Proof.Machine.execPldmPowerStateEffecter value s
  | .pldmModuleResetEffecter value => Sys2Proof.Machine.execPldmModuleResetEffecter value s
  | .pldmSensorRead sensor => Sys2Proof.Machine.execPldmSensorRead sensor s
  | .help a => Sys2Proof.Machine.execHelp a s
  | .id a => Sys2Proof.Machine.execId a s
  | .login a => Sys2Proof.Machine.execLogin a s
  | .consoleLockExpiry => Sys2Proof.Machine.execConsoleLockExpiry s
  | .consoleIdleTimeout => Sys2Proof.Machine.execConsoleIdleTimeout s
  | .logout a => Sys2Proof.Machine.execLogout a s
  | .status a => Sys2Proof.Machine.execStatus a s
  | .dies a => Sys2Proof.Machine.execDies a s
  | .health a => Sys2Proof.Machine.execHealth a s
  | .counters a => Sys2Proof.Machine.execCounters a s
  | .events a => Sys2Proof.Machine.execEvents a s
  | .logbook a => Sys2Proof.Machine.execLogbook a s
  | .chart a => Sys2Proof.Machine.execChart a s
  | .bays a => Sys2Proof.Machine.execBays a s
  | .consort a => Sys2Proof.Machine.execConsort a s
  | .ctx a => Sys2Proof.Machine.execCtx a s
  | .energy a => Sys2Proof.Machine.execEnergy a s
  | .mark a => Sys2Proof.Machine.execMark a s
  | .markPhys a => Sys2Proof.Machine.execMarkPhys a s
  | .lookout a => Sys2Proof.Machine.execLookout a s
  | .settings a => Sys2Proof.Machine.execSettings a s
  | .setSetting a => Sys2Proof.Machine.execSetSetting a s
  | .locate a => Sys2Proof.Machine.execLocate a s
  | .cap a => Sys2Proof.Machine.execCap a s
  | .power a => Sys2Proof.Machine.execPower a s
  | .resetModule a => Sys2Proof.Machine.execResetModule a s
  | .powercycle a => Sys2Proof.Machine.execPowercycle a s
  | .failover a => Sys2Proof.Machine.execFailover a s
  | .unlock a => Sys2Proof.Machine.execUnlock a s
  | .unlockExpiry => Sys2Proof.Machine.execUnlockExpiry s
  | .dump a => Sys2Proof.Machine.execDump a s
  | .packageReceive path k => Sys2Proof.Machine.execPackageReceive path k s
  | .relayBlock chain die block count crcOk => Sys2Proof.Machine.execRelayBlock chain die block count crcOk s
  | .relayBlockRequest chain die block => Sys2Proof.Machine.execRelayBlockRequest chain die block s
  | .relayDigestReport chain die digest => Sys2Proof.Machine.execRelayDigestReport chain die digest s
  | .relayTimeout chain die => Sys2Proof.Machine.execRelayTimeout chain die s
  | .activationOrder path => Sys2Proof.Machine.execActivationOrder path s
  | .standbyNewVersion version => Sys2Proof.Machine.execStandbyNewVersion version s
  | .activationHoldDrained => Sys2Proof.Machine.execActivationHoldDrained s
  | .activationSwitch => Sys2Proof.Machine.execActivationSwitch s
  | .activationCommit => Sys2Proof.Machine.execActivationCommit s
  | .activationFailed standbyRestart => Sys2Proof.Machine.execActivationFailed standbyRestart s
  | .getVersion => Sys2Proof.Machine.execGetVersion s
  | .getCapabilities => Sys2Proof.Machine.execGetCapabilities s
  | .negotiateAlgorithms => Sys2Proof.Machine.execNegotiateAlgorithms s
  | .getDigests => Sys2Proof.Machine.execGetDigests s
  | .getCertificate slot offset length => Sys2Proof.Machine.execGetCertificate slot offset length s
  | .challenge slot nonce => Sys2Proof.Machine.execChallenge slot nonce s
  | .getMeasurements slot index signed nonce => Sys2Proof.Machine.execGetMeasurements slot index signed nonce s
  | .spdmUnsupported code => Sys2Proof.Machine.execSpdmUnsupported code s
  | .lockedStepStartAtS p => Sys2Proof.Machine.execLockedStepStartAtS p s
  | .unknownCommand line => Sys2Proof.Machine.execUnknownCommand line s
  | .redfishUnknownUri who => Sys2Proof.Machine.execRedfishUnknownUri who s
  | .snapshotPassComplete c => Sys2Proof.Machine.execSnapshotPassComplete c s
  | .takeoverOrder path => Sys2Proof.Machine.execTakeoverOrder path s
  | .pairFencedRelease path => Sys2Proof.Machine.execPairFencedRelease path s
  | .referenceRegained own => Sys2Proof.Machine.execReferenceRegained own s
  | .ringDieFailure d => Sys2Proof.Machine.execRingDieFailure d s
  | .collectorUnreachable => Sys2Proof.Machine.execCollectorUnreachable s
  | .completionTimeout fn ring => Sys2Proof.Machine.execCompletionTimeout fn ring s
  | .ipSettingsTakeEffect => Sys2Proof.Machine.execIpSettingsTakeEffect s
  | .attentionButtonContact => Sys2Proof.Machine.execAttentionButtonContact s
  | .padContact b => Sys2Proof.Machine.execPadContact b s
  | .padContactRelease b => Sys2Proof.Machine.execPadContactRelease b s
  | .latchSwitchClose b => Sys2Proof.Machine.execLatchSwitchClose b s

end Sys2Proof.Machine
end

