-- ==== Sys2Proof/Machine/Step.lean ====
section
/-! DEFINITION. The step of the block: it takes the command at the front of the queue; on an empty queue a tick passes and running
transfers move on.
Rests on the log entries (notes/assumptions/<n>.md) 9 (DESIGN CHOICE), 27 (DESIGN CHOICE). -/
namespace Sys2Proof.Machine

/-- One step (DESIGN CHOICE: notes/assumptions/9.md says what an empty queue does). -/
def step (s : State) : Host.Outcome State Fault Refusal :=
  match s.pending with
  | [] => .next (pass s)
  | c :: rest => exec c { s with pending := rest }

/-- The state with the command that a word spells put at the front of its queue: a command needs nothing else to run next. -/
def State.withFetchWord (s : State) (nbits w : Nat) : State :=
  match Sys2Proof.decodeTableWord nbits w with
  | some i => { s with pending := i :: s.pending }
  | none => s

end Sys2Proof.Machine
end

