-- ==== Sys2Proof/Safety.lean ====
section
/-! DEFINITION. What claims are stated in: the frames of a command, and the states and commands that claims rule out. -/
namespace Sys2Proof.Safety
open Sys2Proof.Machine

/-- Nothing changed but what a report changes: the management side, the lifetime logbook, and the numbering and the loss count
of the event records. -/
def Reports (s t : State) : Prop := t = { s with mgmt := t.mgmt, log := t.log, errs := t.errs }

/-- Nothing changed but what a change of status changes besides: the grade last reported, the event bits of functions and what
was sent to the host. -/
def Status (s t : State) : Prop :=
  t = { s with mgmt := t.mgmt, build := { s.build with grade := t.build.grade, gradeDue := t.build.gradeDue }, fns := t.fns, hostOut := t.hostOut }

/-- The grade held is the module's grade, and it has been reported (R17, R18). -/
abbrev Settled (s : State) : Prop := (s.life.phase = .running → gradeOf s = s.build.grade) ∧ s.build.gradeDue = false

/-- The memories are in canonical form. -/
abbrev MemoryCanonical (s : State) : Prop := Memory.wf s.mem ∧ Memory.wf s.dimm

/-- A completion record with what is said of it is written at the producer index of the completion ring of a submission ring, which
advances by one. -/
def Recorded (s t : State) (ring : Nat) (said : Completion → Prop) : Prop :=
  ∀ q r, s.sq.find ring = some q → s.cq.find q.compRing = some r → s.link.up = true → (s.fnr r.fn.val).bme = true →
    (∃ c, HostWrite.completion r.fn (r.slotAddr r.prod 128) c ∈ t.hostOut ∧ said c) ∧
    (t.cq.find q.compRing).map (·.prod) = some (r.prod + 1)

/-- The shared store reads as before outside some writes. -/
def OnlyWrites (s t : State) (ws : List Wr) : Prop :=
  ∀ a, (∀ w ∈ ws, a < w.addr ∨ w.addr + w.bytes.length ≤ a) → Memory.read t.mem a = Memory.read s.mem a

/-- An operation of a partition's step runs, and its work has not been done. -/
abbrev Running (s : State) (p : PartId) (q : Partition) (t : Step) (d : OpDesc) : Prop :=
  s.part p.val = some q ∧ q.step = some t ∧ t.current = some d ∧ t.phase = .running ∧ t.done = false ∧ t.failed = none

/-- Every range an operation reads or writes is open to its context (R155). -/
abbrev Open (s : State) (t : Step) (w : Work) : Prop :=
  (w.reads ++ w.writes.map (fun x => (⟨x.addr, x.bytes.length⟩ : Ext))).all (fun x => openTo s t.ctx x.addr x.len) = true

/-- No two writes share a byte. -/
def Apart (ws : List Wr) : Prop := ws.Pairwise (fun a b => a.addr + a.bytes.length ≤ b.addr ∨ b.addr + b.bytes.length ≤ a.addr)

/-- No error of the hardware lies in a word or a burst that is read. -/
def ReadsSound (h : List HwFault) : Prop := ∀ f ∈ h, f.word = none ∧ f.burst = none

/-- An answer carries out an operation's work: with every access permitted and nothing in error it writes what the work writes and nothing
else; otherwise it fails the step and writes nothing (R155, R164, R380). -/
def CarriesOut (s : State) (p : PartId) (h : List HwFault) (t : Step) (w : Work) (o : Out) : Prop :=
  (Open s t w → poisonedWords s w.reads = [] → w.page = none → w.bad = [] → h = [] →
    ∃ u, o = .next u ∧ (∃ v, u.stepOf p.val = some v ∧ v.done = true ∧ v.failed = none ∧ v.op = t.op ∧ v.zeroOps = t.zeroOps ∧
        v.counts = t.counts.add w.counts ∧ v.held = w.held ∧ v.samples = t.samples) ∧
      OnlyWrites s u w.writes ∧
      (Apart w.writes → ∀ x ∈ w.writes, ∀ i, i < x.bytes.length → Memory.read u.mem (x.addr + i) = x.bytes.getD i 0) ∧
      u.dimm = s.dimm ∧ u.marks = s.marks ∧ u.sq = s.sq ∧ u.cq = s.cq ∧ u.tq = s.tq ∧ u.seqs = s.seqs ∧ u.dir = s.dir ∧ u.owners = s.owners) ∧
  (ReadsSound h → ¬ Open s t w → ∃ u, o = .next u ∧ u.mem = s.mem ∧ u.dimm = s.dimm ∧ ∃ v, u.stepOf p.val = some v ∧
      v.failed = some (stAccess, BitVec.ofNat 32 t.op) ∧ v.counts.accessDenied = satAdd t.counts.accessDenied 1) ∧
  (ReadsSound h → Open s t w → poisonedWords s w.reads ≠ [] → ∃ u, o = .next u ∧ u.dimm = s.dimm ∧
      ∃ v, u.stepOf p.val = some v ∧ v.failed = some (stMemory, BitVec.ofNat 32 t.op)) ∧
  (ReadsSound h → Open s t w → poisonedWords s w.reads = [] → w.page ≠ none → ∃ u, o = .next u ∧ u.mem = s.mem ∧ u.dimm = s.dimm ∧
      ∃ v, u.stepOf p.val = some v ∧ v.failed = some (stMemory, BitVec.ofNat 32 t.op)) ∧
  (Open s t w → poisonedWords s w.reads = [] → w.page = none → h = [] → w.bad ≠ [] →
    ∃ u, o = .next u ∧ u.mem = s.mem ∧ u.dimm = s.dimm ∧ ∃ v, u.stepOf p.val = some v ∧ v.failed = some (stChecksum, BitVec.ofNat 32 t.op))

/-- A function's mailbox takes a set-up command and carries it out at once (R256, R261). -/
abbrev MailboxFree (s : State) (f : Fn) : Prop :=
  s.link.up = true ∧ (s.fnr f.val).pending = none ∧ (s.fnr f.val).unread = none ∧ (s.fnr f.val).bme = true ∧ s.life.ready = true ∧
    noServiceDie s = false ∧ isSecondary s = false

/-- A set-up command of a function has completed with a status (R261). -/
def Answered (t : State) (f : Fn) (status : Byte) : Prop :=
  (t.fnr f.val).status = status ∧ (t.fnr f.val).pending = none ∧ (t.fnr f.val).event.getLsbD evSetup = true

/-- Nothing changed but the registers of functions, what was sent to the host, reports, and the grade last reported. -/
def HostSide (s t : State) : Prop :=
  t = { s with fns := t.fns, hostOut := t.hostOut, mgmt := t.mgmt, build := { s.build with grade := t.build.grade, gradeDue := t.build.gradeDue } }

/-- A frame of a stream of the formed pair arrives whole, in order on its port and in its turn, with none that waits (R430, R431). -/
abbrev Arrives (s : State) (h : FrameHdr) (ty : Nat) : Prop :=
  (s.port h.port.val).lanes ≠ 0 ∧ h.good = true ∧ h.linkSeq = (s.port h.port.val).recvSeq ∧ s.pair.seenEpoch ≤ h.epoch ∧ s.pair.formed = true ∧
    s.pair.early = [] ∧ h.streamSeq = s.pair.streamIn.getD (ty * 256 + h.ctx.toNat) 0

/-- A command is no stage of a cold start or a module reset. -/
def NoStart (c : Instr) : Prop :=
  match c with
  | .coldStartStage _ => False
  | .warmStartStage _ => False
  | _ => True

/-- A request of the Redfish service, by a session or by HTTP Basic, from an account and with a role of at least some rank; the account need
not change its password (R469, R470). -/
abbrev Authorised (s : State) (who : Auth) (x : Nat × Role) (need : Role) : Prop :=
  redfishServed s = true ∧ requester s who = some x ∧ roleRank need ≤ roleRank x.2 ∧ mustChange s x.1 = false

/-- What a request of a session gets as its last answer. -/
def Replied (t : State) (a : Answer) : Prop := t.mgmt.answers.getLast? = some a

/-- A command of the console that only reads at level VIEW, its arguments needing no more than the state, and what it answers (R489). -/
def ConsoleRead (c : Instr) (f : State → Answer) : Prop := (c, f) ∈ ([
   (.status (some ()), fun s => .lines ((moduleFields s.mgmt.inputMv s.mgmt.inputW 0 s).zipIdx.map (fun (v, i) => (i, v)) ++ partLines s
      ++ [(14, (roleCode s).toNat), (15, boolNat s.build.recordBad)]) true),
   (.dies (some ()), fun s => .lines ((List.range 122).map (fun d => (d, dieState s d))) true),
   (.events (some none), fun s => .events s.log.events),
   (.chart (some none), fun s => .chartEntries s.build.chart),
   (.bays (some ()), fun s => .lines ((List.range 48).flatMap (fun b =>
      ([bayCode (s.bay b).state, (lampShown s (bayLed s b)).number] ++ chanFields s b).map (fun v => (b, v)))) true),
   (.consort (some ()), fun s => .lines ((List.range 4).map (fun p => (p, (s.port p).lanes)) ++ [(4, s.pair.mode), (5, (roleCode s).toNat)
      , (6, s.pair.partnerRole.toNat)] ++ s.ctxs.map (fun (c, k) => (16 + c, k.securing.code))) true),
   (.ctx (some ()), fun s => .lines (s.ctxs.flatMap (fun (c, k) =>
      let t := runningStep s c
      [(c, k.part.val), (c, t.elim 0xFFFFFFFF (fun x => x.2.number.toNat)), (c, t.elim 0xFFFFFFFF (fun x => if x.2.current.isSome then x.2.op else 0xFFFFFFFF))
      , (c, ctxStateWord s c)])) true),
   (.energy (some none), fun s => .lines (s.ctxs.flatMap (fun (c, k) => (energyTotals k).map (fun v => (c, v)))) true),
   (.settings (some none), fun s => .settings s.settings.rev (settingValues s))] : List (Instr × (State → Answer)))

/-- The operations that do arithmetic or move data, apart from those with an effect beside their writes: the command, which descriptors
it serves, and its work (R174, R187). -/
def operations (p : PartId) (h : List HwFault) : List (Instr × (OpDesc → Bool) × (Env → Work)) :=
  [(.matmul p h, isOp 0x02, matmulWork), (.matmulSkip p h, isOp 0x03, matmulSkipWork),
   (.groupedMatmulPlain p h, isGrouped 0, groupedWork false), (.groupedMatmulCombine p h, isGrouped 1, combineWork),
   (.groupedMatmulGated p h, isGrouped 2, groupedWork true), (.route p h, isOp 0x06, routeWork), (.move p h, isOp 0x08, moveWork),
   (.gather p h, isOp 0x09, gatherWork), (.scatter p h, isOp 0x0A, scatterWork), (.embed p h, isOp 0x0B, embedWork),
   (.attnTrain p h, isOp 0x0F, attnTrainWork), (.attnBackward p h, isOp 0x10, attnBackwardWork),
   (.rmsnorm p h, isKernel 0x01, rmsnormWork), (.rotary p h, isKernel 0x02, rotaryWork false), (.gluSilu p h, isKernel 0x03, gluWork f32Silu),
   (.gluGelu p h, isKernel 0x04, gluWork f32Gelu), (.relu2 p h, isKernel 0x05, fun e => unary e (fun x => f32Mul (relu x) (relu x))),
   (.add p h, isKernel 0x06, fun e => binary e (e.d.tensB e.d.m e.d.n) f32Add),
   (.mul p h, isKernel 0x07, fun e => binary e (e.d.tensB e.d.m e.d.n) f32Mul),
   (.convert p h, isKernel 0x08, fun e => unary e (fun x => f32Mul x e.d.p1)),
   (.softmax p h, isKernel 0x09, softmaxWork), (.topk p h, isKernel 0x0A, topkWork), (.crossEntropy p h, isKernel 0x0B, crossEntropyWork),
   (.rmsnormBwd p h, isKernel 0x0C, rmsnormBwdWork), (.gluSiluBwd p h, isKernel 0x0D, gluBwdWork), (.gluGeluBwd p h, isKernel 0x0E, gluBwdWork),
   (.relu2Bwd p h, isKernel 0x0F, fun e => binary e e.d.dyX (fun x y => f32Mul (f32Mul 0x40000000 (relu x)) y)),
   (.rotaryBwd p h, isKernel 0x10, rotaryWork true), (.attnDelta p h, isKernel 0x11, attnDeltaWork), (.sumsq p h, isKernel 0x12, sumsqWork),
   (.adamw p h, isKernel 0x13, adamwWork)]

end Sys2Proof.Safety
end

