-- ==== Sys2Proof/Certificates/Slice0/Obligations.lean ====
section
/-! DEFINITION. The statements for the provers: what the rules of the spec say each command does, family by family, with every
command’s completion among them; what every step keeps; and what stands at reset. -/
open Sys2Proof Sys2Proof.Machine

/-! ### The Binnacle (R41 to R43, R55) -/

/-- R41 and R42: what a press of the attention button does, by its length from contact to release; a press held to 15 s during a
start is ignored, and one held to 15 s while the module runs is a module reset.
R55: what a change at a connector does.
R39, R40 and R60: WAKE_N, the repeated power-cycle request and the coolant sample.
R59: an input fault powers down all but the always-on domain, and below 40 V that stops as well; an excursion that is too short does nothing.
The model’s own choices among what this states are those of notes/assumptions/23.md (DEDUCED) and notes/assumptions/43.md (DEDUCED) and
notes/assumptions/58.md (DESIGN CHOICE). -/
def Obligations.ButtonCablesAndInputSignalsAct : Prop :=
  (∀ s : State,
      (s.life.aonOn = true → s.bin.press = none →
        exec .attentionButtonContact s = .next { s with bin := { s.bin with press := some s.now, held := false } }) ∧
      (∀ t0, s.bin.press = some t0 → s.bin.held = false →
        (s.since t0 < msTicks 50 →
          exec .attentionButtonRelease s = .next { s with bin := { s.bin with press := none, held := false } }) ∧
        (binnacleServed s = false → exec .attentionButtonRelease s = .next { s with bin := { s.bin with press := none, held := false } }) ∧
        (msTicks 50 ≤ s.since t0 → binnacleServed s = true → ∃ t, exec .attentionButtonRelease s = .next t ∧
          t = { s with bin := t.bin, log := t.log, mgmt := t.mgmt, errs := t.errs } ∧
          t.bin = { s.bin with
            press := none, held := false
            locate := if s.since t0 < msTicks 2000 then !s.bin.locate else s.bin.locate
            lamp := if msTicks 2000 ≤ s.since t0 ∧ s.since t0 < msTicks 8000 then some .green else s.bin.lamp } ∧
          t.log.binnacle.getLast? = some ⟨serviceNow s, 0x01, 0xFF, BitVec.ofNat 16 (s.since t0 / msTicks 10)⟩) ∧
        (msTicks 15000 ≤ s.since t0 → binnacleServed s = true → starting s = true → ∃ t, exec .attentionButtonHeld15s s = .next t ∧
          t.life = s.life ∧ t.bin = { s.bin with held := true }) ∧
        (msTicks 15000 ≤ s.since t0 → binnacleServed s = false → exec .attentionButtonHeld15s s = .next (settle s s)) ∧
        (msTicks 15000 ≤ s.since t0 → binnacleServed s = true → s.life.phase = .running → s.life.power ≠ .off → s.life.entering = none → s.update.phase = .idle →
          ∃ t, exec .attentionButtonHeld15s s = .next t ∧ t.life.phase = .warm .sitesDown ∧ t.life.ready = false ∧
            t.life.resetting = true ∧ t.life.resetAt = some s.now ∧ t.bin.held = true)) ∧
      exec .lampTestStep s = .next { s with bin := { s.bin with lamp := match s.bin.lamp with
        | some .green => some .amber
        | some .amber => some .blue
        | some .blue => none
        | none => none } }) ∧
  (∀ (s : State) (p : Port) (w : W64),
      (∃ t, exec (.cablePresenceChange .pcie true w) s = .next t ∧ t.bin.pcieCable = true ∧
        t.link.training = (s.life.stageDone10 && !s.life.perstOn) ∧ t.link.up = s.link.up ∧ t.parts = s.parts) ∧
      (∃ t, exec (.cablePresenceChange .pcie false w) s = .next t ∧ t.bin.pcieCable = false ∧ t.link.up = false ∧ t.link.training = false) ∧
      (∃ t, exec (.cablePresenceChange (.consort p) true w) s = .next t ∧ t.bin.consortCables.find p.val = some w ∧ t.parts = s.parts) ∧
      (∃ t, exec (.cablePresenceChange (.consort p) false w) s = .next t ∧ t.bin.consortCables.find p.val = none ∧
        (t.port p.val).lanes = 0 ∧ (t.port p.val).training = false) ∧
      (∀ up, s.bin.ethernet ≠ up → ∃ t, exec (.ethernetLinkChange up) s = .next t ∧ t.bin.ethernet = up ∧ t.parts = s.parts ∧ t.ctxs = s.ctxs)) ∧
  (∀ (s : State) (us : Nat) (r : Coolant),
      (1000 ≤ us → s.life.power = .off →
        exec (.wakeNLow us) s = .next { s with life := { s.life with orders := s.life.orders ++ [⟨.on, false⟩] } }) ∧
      (∀ o, 1000 ≤ us → s.life.entering = some o → o.state = .off →
        exec (.wakeNLow us) s = .next { s with life := { s.life with orders := s.life.orders ++ [⟨.on, false⟩] } }) ∧
      (us < 1000 → exec (.wakeNLow us) s = .next s) ∧
      (s.life.power ≠ .off → s.life.entering = none → exec (.wakeNLow us) s = .next s) ∧
      (s.life.cycleReason ≠ none → ∃ t, exec .pwrCycleReqRepeat s = .next t ∧
        t = { s with life := { s.life with cyclePulses := s.life.cyclePulses + 1 }, mgmt := t.mgmt } ∧
        (s.mgmt.active ≠ none → t.mgmt.notes.length = s.mgmt.notes.length + 1)) ∧
      (∃ t, exec (.coolantSample r) s = .next t ∧ t.power = { s.power with coolant := r, coolantBad := t.power.coolantBad } ∧
        t = { s with power := t.power, mgmt := t.mgmt } ∧
        (s.mgmt.active ≠ none → r.inlet < 1500 ∨ 4000 < r.inlet ∨ r.inlet < r.dewPoint + 200 ∨ r.flow < 16 * s.setting .pwrCap ∨ r.flow < 1500 ∨ 6000 < r.flow →
          t.mgmt.notes.getLast? = some (.note .coolantOutside r.inlet.toNat r.flow)))) ∧
  (∀ (s : State) (mv us : Nat),
      (s.life.inputOk = true → (mv < 46000 ∧ 10000 < us) ∨ (59000 < mv ∧ 1000 < us) → ∃ t, exec (.inputFault mv us) s = .next t ∧
        t.life.phase = .unpowered ∧ t.life.inputOk = false ∧ t.life.aonOn = s.life.aonOn ∧ t.life.ready = false ∧ t.life.resetting = true ∧
        t.parts = [] ∧ t.ctxs = [] ∧ t.seqs = [] ∧ t.mem = [] ∧ t.dimm = [] ∧ t.sq = [] ∧ t.cq = [] ∧ t.tq = [] ∧ t.marks = [] ∧
        t.link.up = false ∧ t.mgmt.active = none ∧ t.pair.formed = false ∧ t.flash0 = s.flash0 ∧ t.flash1 = s.flash1 ∧ t.settings = s.settings) ∧
      (46000 ≤ mv → mv ≤ 59000 → exec (.inputFault mv us) s = .next (settle s s)) ∧
      (mv < 40000 → s.life.aonOn = true → ∃ t, exec (.aonStop mv) s = .next t ∧
        t.life.aonOn = false ∧ t.life.inputOk = false ∧ t.life.meshLocked = false ∧ t.reck.now = 0 ∧ t.bin.locate = false ∧ t.flash0 = s.flash0) ∧
      (40000 ≤ mv → exec (.aonStop mv) s = .next (settle s s)))

/-! ### Pads, bays, latches and cables (R43 to R55) -/

/-- R43, R48 and R49: contacts of a pad, and what a registered touch does by the state of the bay.
R46: a touch on a bay in service starts its removal, or queues it behind another, unless it is refused; more than four channels out
of service, or a state other than fully on, refuse it.
The model’s own choices among what this states are those of notes/assumptions/23.md (DEDUCED) and notes/assumptions/43.md (DEDUCED) and
notes/assumptions/58.md (DESIGN CHOICE). -/
def Obligations.PadTouchActsByBayState : Prop :=
  (∀ (s : State) (b : Chan),
      (s.life.aonOn = true → (s.pad b.val).contact = none → ∃ t, exec (.padContact b) s = .next t ∧
        t = { s with bin := { s.bin with pads := t.bin.pads } } ∧
        (t.pad b.val).contact = some s.now ∧ (t.pad b.val).registered = false ∧
        (∀ t1, (s.pad b.val).armed = false → (s.pad b.val).released = some t1 →
          ((t.pad b.val).armed = true ↔ msTicks 500 ≤ s.since t1))) ∧
      ((s.pad b.val).contact ≠ none → ∃ t, exec (.padContactRelease b) s = .next t ∧
        t = { s with bin := { s.bin with pads := t.bin.pads } } ∧
        t.pad b.val = { s.pad b.val with contact := none, released := some s.now, registered := false }) ∧
      (∀ t0, (s.pad b.val).contact = some t0 → s.since t0 < msTicks 500 → exec (.padTouch b) s = .next (settle s s)) ∧
      (∀ t0, (s.pad b.val).contact = some t0 → msTicks 500 ≤ s.since t0 → (s.pad b.val).registered = false → (s.pad b.val).armed = true →
        chanEnabled s b.val = true → binnacleServed s = true → ∃ t, exec (.padTouch b) s = .next t ∧
          (t.pad b.val).registered = true ∧ (t.pad b.val).armed = false ∧
          (∃ e ∈ t.log.binnacle, e = ⟨serviceNow s, 0x02, BitVec.ofNat 8 b.val, 0⟩) ∧
          ((s.bay b.val).state = .queued → (t.bay b.val).state = .inService ∧ b.val ∉ t.bin.removals) ∧
          ((s.bay b.val).state = .migrating → (s.chan b.val).state ≠ .out → (t.bay b.val).state = .inService ∧ b.val ∉ t.bin.removals) ∧
          ((s.bay b.val).state = .safe → (t.bay b.val).state = .bringUp) ∧
          ((s.bay b.val).state = .mappedOut → (t.bay b.val).state = .faulted) ∧
          ((s.bay b.val).state = .empty ∨ (s.bay b.val).state = .unpowered ∨ (s.bay b.val).state = .faulted →
            (t.bay b.val).state = (s.bay b.val).state)) ∧
      (chanEnabled s b.val = false ∨ binnacleServed s = false → exec (.padTouch b) s = .next (settle s s))) ∧
  (∀ (s : State) (b : Chan), (s.bay b.val).state = .inService →
      (removalRefused s b.val = false → (touch b.val s).bin.removals = s.bin.removals ++ [b.val] ∧
        ((touch b.val s).bay b.val).state = (if s.bin.removals = [] then .migrating else .queued)) ∧
      (removalRefused s b.val = true → (touch b.val s).bin = { s.bin with bays := s.bin.bays.update b.val {} (fun r => { r with blinks := true }) } ∧
        (touch b.val s).chans = s.chans ∧ (touch b.val s).dimmWork = s.dimmWork) ∧
      (4 < outAfter s b.val ∨ s.life.power ≠ .on ∨ starting s = true ∨ chanEnabled s b.val = false → removalRefused s b.val = true))

/-- R47: a removal's stages: its migration begins in touch order, its supplies go off once the channel has stopped, and blue follows.
R50 to R53: a latch that opens on a powered bay takes its supply and every block of its channel; one that closes on a seated DIMM
for 2 s has its SPD judged; and an accepted DIMM that has been trained, tested and zero-filled enters service.
R51 and R307: when a DIMM is accepted.
The model’s own choices among what this states are those of notes/assumptions/23.md (DEDUCED) and notes/assumptions/43.md (DEDUCED) and
notes/assumptions/58.md (DESIGN CHOICE). -/
def Obligations.BaysAreEmptiedAndFilled : Prop :=
  (∀ (s : State) (b : Chan),
      (s.bin.removals.head? = some b.val → (s.bay b.val).state = .queued → (s.chan b.val).state = .inService → b.val ∉ s.dimmWork.requests →
        ∃ t, exec (.bayMigrationStart b) s = .next t ∧ (t.bay b.val).state = .migrating ∧
          t.dimmWork = { s.dimmWork with requests := s.dimmWork.requests ++ [b.val] } ∧ t.bin.removals = s.bin.removals) ∧
      (s.bin.removals.head? ≠ some b.val → exec (.bayMigrationStart b) s = .next (settle s s)) ∧
      ((s.bay b.val).state = .migrating → (s.chan b.val).state = .out →
        ∃ t, exec (.bayPowerOff b) s = .next t ∧ (t.bay b.val).state = .emptied ∧ b.val ∉ t.bin.removals ∧ (t.chan b.val).trained = false) ∧
      ((s.bay b.val).state = .emptied → ∃ t, exec (.baySafeBlue b) s = .next t ∧ t = { s with bin := { s.bin with bays := t.bin.bays } } ∧
        t.bay b.val = { s.bay b.val with state := .safe }) ∧
      ((s.bay b.val).state ≠ .emptied → exec (.baySafeBlue b) s = .next s)) ∧
  (∀ (s : State) (b : Chan),
      ((s.bay b.val).state.powered = true → chanEnabled s b.val = true → ∃ t, exec (.latchOpen b false) s = .next t ∧
        (t.bay b.val).state = .faulted ∧ (t.bay b.val).latchClosed = false ∧ (t.chan b.val).state = .fault ∧ b.val ∉ t.bin.removals) ∧
      ((s.bay b.val).state.powered = false → ∃ t, exec (.latchOpen b false) s = .next t ∧
        (t.bay b.val) = { s.bay b.val with latchClosed := false, closedAt := none } ∧ t.chans = s.chans ∧ t.ctxs = s.ctxs ∧ t.dimm = s.dimm) ∧
      (∃ t, exec (.latchOpen b true) s = .next t ∧ (t.bay b.val).present = false ∧ (t.bay b.val).dimm = none ∧ (t.chan b.val).marks = [] ∧
        (t.bay b.val).state = (if (s.bay b.val).state.powered ∧ chanEnabled s b.val then .faulted else .empty)) ∧
      (s.life.aonOn = true → (s.bay b.val).latchClosed = false → ∃ t, exec (.latchSwitchClose b) s = .next t ∧
        t = { s with bin := { s.bin with bays := t.bin.bays }, log := t.log, mgmt := t.mgmt, errs := t.errs } ∧
        t.bay b.val = { s.bay b.val with latchClosed := true, closedAt := some s.now }) ∧
      (∀ (t0 : W64) (d : Spd), (s.bay b.val).closedAt = some t0 → msTicks 2000 ≤ s.since t0 → (s.bay b.val).latchClosed = true →
        (s.bay b.val).present = true → (s.bay b.val).state.powered = false → s.life.phase = .running → s.life.power = .on → s.life.entering = none →
        binnacleServed s = true → chanEnabled s b.val = true → chanUsable s b.val = true ∨ (s.bay b.val).state = .safe →
        ∃ t, exec (.latchClosed b d) s = .next t ∧
          (t.bay b.val).dimm = some d ∧ (t.bay b.val).state = (if dimmAccepted s d then .bringUp else .rejected) ∧
          (dimmAccepted s d = true → (∀ o, (s.bay b.val).dimm = some o → o.identity ≠ d.identity) →
            (t.chan b.val).ce = 0 ∧ (t.chan b.val).ue = 0 ∧ (t.chan b.val).retrains = 0 ∧ (t.chan b.val).marks = [])) ∧
      ((s.bay b.val).state = .bringUp → ∃ t, exec (.dimmEnterService b) s = .next t ∧
        (t.bay b.val).state = .inService ∧ (t.chan b.val).state = .inService ∧ (t.chan b.val).trained = true ∧
        (t.chan b.val).ce = (s.chan b.val).ce ∧ (t.chan b.val).ue = (s.chan b.val).ue ∧ (t.chan b.val).retrains = (s.chan b.val).retrains)) ∧
  (∀ (s : State) (d : Spd), dimmAccepted s d = true ↔
      d.readsWell = true ∧ d.mrdimm = true ∧ 8800 ≤ d.speed ∧ d.capGb ∈ [64, 96, 128, 256] ∧
        s.build.channelSpeed ≤ d.speed ∧ s.build.channelGb ≤ d.capGb)

/-! ### Input power, starts and resets of the module (R38 to R40, R59, R60, R402 to R414) -/

/-- R38, R402 and R404: a cold start begins only on its causes; the position is read only where the always-on domain starts.
R404 to R407 and R413: a start goes from stage to stage in order, and its last stage sets READY and clears RESETTING.
R412, R414 and R486: a module reset through GLB_MODULE_RESET needs the key and the physical function; it is ignored during a start; and one
that has not set READY in time makes the module ask for a power cycle.
The model’s own choices among what this states are those of notes/assumptions/23.md (DEDUCED) and notes/assumptions/42.md (DEDUCED). -/
def Obligations.StartsRunStageByStage : Prop :=
  (∀ (s : State) (c : ColdCause) (pos : BitVec 4),
      (coldMayBegin c s = true → ∃ t, exec (.coldStart c pos) s = .next t ∧
        t.life.phase = .cold .serviceBoot ∧ t.life.aonOn = true ∧ t.life.inputOk = true ∧ t.life.meshLocked = true ∧
        t.life.ready = false ∧ t.life.resetting = true ∧ t.life.power = .on ∧ t.life.abandoned = [] ∧
        t.life.pos = (if s.life.aonOn then s.life.pos else pos) ∧
        t.reck.now = (if s.life.aonOn then s.reck.now else 0) ∧ t.build.volatile = [] ∧ t.flash0 = { s.flash0 with works := t.flash0.works } ∧
        t.flash1 = { s.flash1 with works := t.flash1.works }) ∧
      (coldMayBegin c s = false → exec (.coldStart c pos) s = .next (settle s s)) ∧
      (coldMayBegin .inputQualified s = true ↔ s.life.inputOk = false ∧ s.life.aonOn = false) ∧
      (coldMayBegin .wake s = true ↔ s.life.power = .off ∧ ∃ o ∈ s.life.orders, o.state = .on)) ∧
  (∀ (s : State) (r : StageReport),
      (s.life.phase = .cold .segments → ∃ t, exec (.coldStartStage r) s = .next t ∧ t.life.phase = .cold .sites) ∧
      (s.life.phase = .cold .mapReady → s.life.orders = [] → ∃ t, exec (.coldStartStage r) s = .next t ∧
        t.life.phase = .running ∧ t.life.ready = true ∧ t.life.resetting = false) ∧
      (s.life.phase = .running → exec (.coldStartStage r) s = .next (settle s s) ∧ exec (.warmStartStage r) s = .next (settle s s)) ∧
      (s.life.phase = .cold .heater → ∀ b, (b = true → diesInBand s = true) → ∃ t, exec (.heaterEnd b) s = .next t ∧
        t.life = { s.life with phase := .cold .training, heaterTimeout := !b } ∧
        t.log.heaterTimeouts = (if b then s.log.heaterTimeouts else s.log.heaterTimeouts + 1) ∧
        t = { s with life := t.life, log := t.log, mgmt := t.mgmt }) ∧
      (s.life.phase = .cold .heater → diesInBand s = false → exec (.heaterEnd true) s = .next s) ∧
      (s.life.phase = .warm .sitesDown → ∃ t, exec (.warmStartStage r) s = .next t ∧ t.life.phase = .warm .scrub ∧
        ∀ i, i < 100 → (t.site i).power = .dark) ∧
      (s.life.phase = .warm .mapReady → s.life.orders = [] → ∃ t, exec (.warmStartStage r) s = .next t ∧
        t.life.phase = .running ∧ t.life.ready = true ∧ t.life.resetting = false ∧ t.life.resetAt = none) ∧
      exec .perstDeassert s = .next { s with life := { s.life with perstOn := false }, link := { s.link with training := s.life.stageDone10 } } ∧
      (∃ t, exec .perstAssert s = .next t ∧ t.life.perstOn = true ∧ t.link.up = false)) ∧
  (∀ (s : State) (f : Fn) (v : W32),
      (s.link.up = true → s.life.phase = .running → s.life.power ≠ .off → s.life.entering = none → s.update.phase = .idle →
        ∃ t, exec (.glbModuleReset 0 0x4D525354) s = .next t ∧ t.life.phase = .warm .sitesDown ∧ t.life.ready = false ∧ t.life.resetting = true ∧
          t.life.resetAt = some s.now ∧ t.parts = [] ∧ t.ctxs = [] ∧ t.seqs = [] ∧ t.mem = [] ∧ t.dimm = [] ∧ t.marks = [] ∧ t.pair.formed = false ∧
          t.build.record = s.build.record ∧ t.build.chart = s.build.chart ∧ t.settings = s.settings ∧
          t.reck = { s.reck with slew := 0, slewTick := 0 }) ∧
      (f ≠ 0 ∨ v ≠ 0x4D525354 → exec (.glbModuleReset f v) s = .next (settle s s)) ∧
      (starting s = true → ∃ t, exec (.glbModuleReset 0 0x4D525354) s = .next t ∧ t.life = s.life ∧ t.parts = s.parts ∧ t.mem = s.mem) ∧
      (s.life.resetAt ≠ none → s.life.ready = false → s.mgmt.active ≠ none → ∃ t, exec .moduleResetReadyTimeout s = .next t ∧
        t.life.resetAt = none ∧ t.life.cycleReason = some 0x01 ∧ t.life.cyclePulses = s.life.cyclePulses + 1))

/-! ### Matrix cores and on-chip memory (R90 to R160) -/

/-- R95 to R98: a weight-tile load fills the shadow registers of the selected arrays and of no other, and is held, counted as slip, while one of
them has not used its shadow tile; a WS pass makes them active. A cluster that has stopped issues nothing (R110), and a pass of no tokens or of
more than 2,048 is none (R101, R103).
R100 and R133: a pass releases the read ranges of its instruction.
R103 to R106 and R114: an OS pass leaves the weight registers alone and sends its rows where it says.
R107, R111, R120 and R145: a row's conversion, and the filling of the capture entry.
R92 and R93: a substitution takes an array's unused spare once no operation is in flight on the cluster, waits until then, and no stored bit changes.
The model’s own choices among what this states are those of notes/assumptions/13.md (DEDUCED) and notes/assumptions/58.md (DESIGN CHOICE). -/
def Obligations.ArraysLoadPassAndDrain : Prop :=
  (∀ (s : State) (c : Cluster) (m : Fin 4) (arrays : List (Fin 4)) (l : TileLoad),
      ((s.cluster c.val).stopped = false → readable l.tile = true → (s.core c.val m.val).waiting = [] →
        (coreReady s c.val m.val (.weightTileLoad c m arrays l) = true → l.parity = false → l.differs = false →
          (s.coreStore c.val m.val).bad (linearWords l.tile.line 0 (weightTileBytes l.tile.fmt.toNat l.tile.scale.toNat)) = [] →
          ∃ t, exec (.weightTileLoad c m arrays l) s = .next t ∧ t = { s with clusters := t.clusters } ∧
            (∀ a ∈ arrays, (t.array c.val m.val a.val).fresh = true ∧ ∃ w, (t.array c.val m.val a.val).shadow = w ∧
              w.rows = storedTile (s.coreStore c.val m.val) l.tile 0 ∧
              w.sums = w.rows.map (rowSum (isInteger l.tile.fmt.toNat && l.tile.scale == 0)) ∧ w.fmt = l.tile.fmt ∧ w.scale = l.tile.scale) ∧
            (∀ a : Fin 4, a ∉ arrays → t.array c.val m.val a.val = s.array c.val m.val a.val) ∧
            (∀ a : Fin 4, (t.array c.val m.val a.val).active = (s.array c.val m.val a.val).active ∧
              (t.array c.val m.val a.val).acc = (s.array c.val m.val a.val).acc)) ∧
        ((∃ a ∈ arrays, (s.array c.val m.val a.val).fresh = true) → ∃ t, exec (.weightTileLoad c m arrays l) s = .next t ∧
          (t.core c.val m.val).waiting = [.weightTileLoad c m arrays l] ∧ t.mem = s.mem ∧ t.parts = s.parts ∧
          (∀ a : Fin 4, t.array c.val m.val a.val = s.array c.val m.val a.val) ∧
          (s.site (s.siteOf c.val)).slip < (t.site (s.siteOf c.val)).slip)) ∧
      ((s.cluster c.val).stopped = true → exec (.weightTileLoad c m arrays l) s = .next s ∧
        ∀ a p u, exec (.wsPass c m a p u) s = .next s ∧ ∀ o d, exec (.osPass c m a p o d u) s = .next s) ∧
      (∀ (a : Fin 4) (p : PassArgs) (u : List Upset),
        (p.rows = 0 ∨ 2048 < p.rows → exec (.wsPass c m a p u) s = .next s) ∧
        (p.rows = 0 ∨ 128 < p.rows ∨ p.kLen = 0 ∨ 2048 < p.kLen ∨ p.kBase % 32 ≠ 0 → ∀ o, exec (.osPass c m a p o .accumulator u) s = .next s) ∧
        ((s.cluster c.val).stopped = false → wsFits p = true → (s.core c.val m.val).waiting = [] → (s.coreStore c.val m.val).waiting = [] →
          coreReady s c.val m.val (.wsPass c m a p u) = true → p.parity = false → p.errors = [] → leftBad (leftRows (s.coreStore c.val m.val) p 128) = [] →
          ∃ t, exec (.wsPass c m a p u) s = .next t ∧
            (t.array c.val m.val a.val).active = (s.array c.val m.val a.val).shadow ∧ (t.array c.val m.val a.val).fresh = false ∧
            (t.array c.val m.val a.val).soft = (s.array c.val m.val a.val).soft ∧ t.mem = s.mem ∧ t.dimm = s.dimm ∧ t.owners = s.owners ∧
            (t.coreStore c.val m.val).cells = (s.coreStore c.val m.val).cells ∧
            (t.coreStore c.val m.val).board = (s.coreStore c.val m.val).board.filter (fun h => !(p.owner == some h.owner && !h.write)) ∧
            ∀ i, i < p.rows → ((t.array c.val m.val a.val).acc.find (p.baseRow + i)).isSome = true))) ∧
  (∀ (s : State) (c : Cluster) (m a : Fin 4) (p : PassArgs) (top : OperandRef) (u : List Upset) (k : Nat) (ml : Bool),
      (s.cluster c.val).stopped = false → (s.core c.val m.val).waiting = [] → (s.coreStore c.val m.val).waiting = [] → p.errors = [] →
      (osPassFits p top (.finish k ml) = true → coreReady s c.val m.val (.osPass c m a p top (.finish k ml) u) = true →
        ∃ t, exec (.osPass c m a p top (.finish k ml) u) s = .next t ∧ t.array c.val m.val a.val = s.array c.val m.val a.val ∧
          t.mem = s.mem ∧ t.owners = s.owners) ∧
      (osPassFits p top .accumulator = true → coreReady s c.val m.val (.osPass c m a p top .accumulator u) = true →
        p.parity = false → p.differs = false → leftBad (leftRows (s.coreStore c.val m.val) p p.kLen) = [] →
        (s.coreStore c.val m.val).bad (linearWords top.line (topBytes p top).1 (topBytes p top).2) = [] →
        ∃ t, exec (.osPass c m a p top .accumulator u) s = .next t ∧ t.mem = s.mem ∧ t.owners = s.owners ∧
          (t.coreStore c.val m.val).cells = (s.coreStore c.val m.val).cells ∧
          (t.array c.val m.val a.val).shadow = (s.array c.val m.val a.val).shadow ∧
          (t.array c.val m.val a.val).active = (s.array c.val m.val a.val).active ∧
          (t.array c.val m.val a.val).soft = (s.array c.val m.val a.val).soft ∧
          ∀ i, i < p.rows → ((t.array c.val m.val a.val).acc.find (p.baseRow + i)).isSome = true)) ∧
  (∀ (s : State) (c : Cluster) (m a : Fin 4) (row : Nat) (d : ConvertArgs),
      ((s.cluster c.val).stopped = false → row < accRows → writable d = true → d.error = none →
        ((s.core c.val m.val).waiting = [] → ((s.array c.val m.val a.val).acc.getD row {}).poison = false → ∃ t, exec (.accumulatorConvert c m a row d) s = .next t ∧
          t = { s with clusters := t.clusters, parts := t.parts, stores := t.stores } ∧
          t.array c.val m.val a.val = { s.array c.val m.val a.val with
            acc := (s.array c.val m.val a.val).acc.put row { (s.array c.val m.val a.val).acc.getD row {} with counted := true } } ∧
          t.coreStore c.val m.val = (writeConverted c.val m.val d d.row
            (((s.array c.val m.val a.val).acc.getD row {}).words.map (accValue ((s.array c.val m.val a.val).acc.getD row {}).int32)) s).coreStore c.val m.val) ∧
        ((s.core c.val m.val).waiting = [] → ((s.array c.val m.val a.val).acc.getD row {}).poison = true →
          exec (.accumulatorConvert c m a row d) s = .next s) ∧
        ((s.core c.val m.val).waiting.any (sameOrder (.accumulatorConvert c m a row d)) = true → ∃ t, exec (.accumulatorConvert c m a row d) s = .next t ∧
          (t.core c.val m.val).waiting = (s.core c.val m.val).waiting ++ [.accumulatorConvert c m a row d] ∧
          t.array c.val m.val a.val = s.array c.val m.val a.val ∧ t.mem = s.mem ∧ t.parts = s.parts ∧ t.stores = s.stores)) ∧
      (accRows ≤ row ∨ writable d = false → exec (.accumulatorConvert c m a row d) s = .next s) ∧
      (∀ e x, (s.core c.val m.val).capture = some e → e.filled = false → x ≠ some .uncorrectable → ∃ t, exec (.faultCaptureFill c m x) s = .next t ∧
        t = { s with clusters := t.clusters } ∧ ∃ f, (t.core c.val m.val).capture = some f ∧ f.filled = true ∧
          f.step = e.step ∧ f.op = e.op ∧ f.row = e.row ∧ f.results = e.results ∧ f.diff = e.diff ∧ f.bound = e.bound) ∧
      (∀ e x, (s.core c.val m.val).capture = some e → e.filled = true → x ≠ some .uncorrectable → ∃ t, exec (.faultCaptureFill c m x) s = .next t ∧
        (t.core c.val m.val).capture = some e) ∧
      (∃ t, exec (.faultCaptureFill c m (some .uncorrectable)) s = .next t ∧ (t.core c.val m.val).capture = none ∧ t.mem = s.mem)) ∧
  (∀ (s : State) (c : Cluster) (m a : Fin 4) (i : Nat),
      (clusterBusy s c.val = false → (s.cluster c.val).subs = [] → i < 128 → (s.array c.val m.val a.val).spareRow = none →
        ∃ t, exec (.arraySpareSubstitute c m a false i) s = .next t ∧
        t.array c.val m.val a.val = { s.array c.val m.val a.val with spareRow := some i } ∧ t.sites = s.sites ∧ t.mem = s.mem ∧
        (s.mgmt.active ≠ none → s.build.chart.length < chartCapacity → ∃ e, t.build.chart = s.build.chart ++ [e] ∧ e.unit.unit = 0x06 ∧ e.action = 0x01)) ∧
      (clusterBusy s c.val = false → (s.cluster c.val).subs = [] → i < 65 → (s.array c.val m.val a.val).spareCol = none →
        ∃ t, exec (.arraySpareSubstitute c m a true i) s = .next t ∧
        t.array c.val m.val a.val = { s.array c.val m.val a.val with spareCol := some i } ∧ t.sites = s.sites ∧ t.mem = s.mem) ∧
      (clusterBusy s c.val = true → i < 128 → ∃ t, exec (.arraySpareSubstitute c m a false i) s = .next t ∧
        (t.cluster c.val).subs = (s.cluster c.val).subs ++ [{ core := m.val, array := a.val, column := false, index := i }] ∧ t.array c.val m.val a.val = s.array c.val m.val a.val) ∧
      (128 ≤ i → exec (.arraySpareSubstitute c m a false i) s = .next (settle s s)) ∧
      (65 ≤ i → exec (.arraySpareSubstitute c m a true i) s = .next (settle s s)))

/-- R131 to R133: an instruction whose ranges are free issues and holds them; one whose ranges conflict waits, and the wait counts as slip, until
finished ranges make way for it; one of more than four ranges is none.
R135 and R155: a transfer out of a core store writes the words it names and no other byte of the shared store, and one that is not open
to the step's context writes nothing and fails the step.
R142, R147, R149, R152: the write-back queue, patrol scrub and row mapping.
R154 and R157: a fenced granule that has been scrubbed is free and reads as zero, nothing outside it changes, and a scrub whose granules are
all done is reported to the host.
The model’s own choices among what this states are those of notes/assumptions/13.md (DEDUCED) and notes/assumptions/14.md (DESIGN CHOICE) and
notes/assumptions/58.md (DESIGN CHOICE). -/
def Obligations.OnChipMemoryActs : Prop :=
  (∀ (s : State) (c : Cluster) (k : Fin 7) (i : EngineInstr),
      (s.cluster c.val).stopped = false → (s.core c.val k.val).waiting = [] → (∃ ws, i.work = .compute ws) → i.errors = [] → i.storeErrors = [] →
      ((s.coreStore c.val k.val).waiting = [] → i.finished = [] → mayIssue (s.coreStore c.val k.val).board i = true →
        (s.coreStore c.val k.val).bad (instrReads i) = [] →
        ∃ t, exec (.engineInstructionIssue c k i) s = .next t ∧
          (t.coreStore c.val k.val).board = (s.coreStore c.val k.val).board ++ i.ranges.map (fun r => ⟨i.owner, r.base, r.count, r.write⟩) ∧
          (t.coreStore c.val k.val).waiting = [] ∧ (t.coreStore c.val k.val).cells = (s.coreStore c.val k.val).cells ∧ t.mem = s.mem ∧ t.sites = s.sites) ∧
      ((s.coreStore c.val k.val).waiting = [] → i.finished = [] → 4 < i.ranges.length → ∃ t, exec (.engineInstructionIssue c k i) s = .next t ∧
        (t.coreStore c.val k.val).board = (s.coreStore c.val k.val).board ∧ (t.coreStore c.val k.val).waiting = [] ∧ t.mem = s.mem) ∧
      (∀ j, (s.coreStore c.val k.val).waiting = [j] → (∃ ws, j.work = .compute ws) → j.errors = [] → j.storeErrors = [] → i.ranges = [] →
        mayIssue ((s.coreStore c.val k.val).board.filter (fun h => !i.finished.contains (h.owner, h.write))) j = true →
        (s.coreStore c.val k.val).bad (instrReads j) = [] →
        ∃ t, exec (.engineInstructionIssue c k i) s = .next t ∧ (t.coreStore c.val k.val).waiting = [] ∧
          (t.coreStore c.val k.val).board = (s.coreStore c.val k.val).board.filter (fun h => !i.finished.contains (h.owner, h.write))
            ++ j.ranges.map (fun r => ⟨j.owner, r.base, r.count, r.write⟩) ∧ t.mem = s.mem ∧ t.sites = s.sites) ∧
      ((s.coreStore c.val k.val).waiting = [] → i.finished = [] → i.ranges.length ≤ 4 → mayIssue (s.coreStore c.val k.val).board i = false →
        ∃ t, exec (.engineInstructionIssue c k i) s = .next t ∧
        (t.coreStore c.val k.val).board = (s.coreStore c.val k.val).board ∧ (t.coreStore c.val k.val).waiting = [i] ∧
        (s.site (s.siteOf c.val)).slip < (t.site (s.siteOf c.val)).slip ∧ t.mem = s.mem)) ∧
  (∀ (s : State) (n k line ss words columns p : Nat) (st : Step) (er : List (Nat × WordFlips)),
      partOf s n = some p → s.stepOf p = some st → ss % 64 = 0 → ss + 64 * words ≤ 100 * segmentBytes →
      (openTo s st.ctx ss (64 * words) = true → ∀ b, b < ss ∨ ss + 64 * words ≤ b →
        Memory.read (engineWork n k (.transferOut line ss words columns) er s).mem b = Memory.read s.mem b) ∧
      (openTo s st.ctx ss (64 * words) = true → (∀ i, i < words → granuleWord line columns i ∉ (s.coreStore n k).poison) →
        ∀ i j, i < words → j < 64 →
          Memory.read (engineWork n k (.transferOut line ss words columns) er s).mem (ss + 64 * i + j) = (s.coreStore n k).byte (64 * granuleWord line columns i + j)) ∧
      (openTo s st.ctx ss (64 * words) = false → st.failed = none →
        (engineWork n k (.transferOut line ss words columns) er s).mem = s.mem ∧
        ∃ u, (engineWork n k (.transferOut line ss words columns) er s).stepOf p = some u ∧ u.failed.map (·.1) = some stAccess ∧
          u.counts.accessDenied = satAdd st.counts.accessDenied 1)) ∧
  (∀ (s : State) (m : StoreRef) (row w : Nat) (cause : Byte),
      (∀ q, (s.store m).queue = w :: q → w ∉ (s.store m).written → ∃ t, exec (.ceWriteback m) s = .next t ∧
        t = { s with stores := t.stores } ∧ t.store m = { s.store m with queue := q, written := (s.store m).written ++ [w] }) ∧
      (∀ found, (∃ c a b, m = .accumulator c a b) → exec (.patrolScrub m row found) s = .next (settle s s)) ∧
      ((∀ c a b, m ≠ .accumulator c a b) → (s.store m).queue.length < queueSize m → 64 * row + w % 64 ∉ (s.store m).queue →
        64 * row + w % 64 ∉ (s.store m).written → ∀ flips, wordFinds flips = some .correctable → ∃ t, exec (.patrolScrub m row [(w, flips)]) s = .next t ∧
          (t.store m).queue = (s.store m).queue ++ [64 * row + w % 64] ∧ (t.store m).counters.ce = satAdd (s.store m).counters.ce (wordErrors flips).1 ∧
          t.mem = s.mem ∧ t.clusters = s.clusters) ∧
      (∀ k, (s.store m).remap.all (fun e => e.1 != row) = true → nextSpare s m row = some k → isPrimary s = false → isSecondary s = false →
        ∃ t, exec (.rowMapCopy m row cause) s = .next t ∧ (t.store m).remap = (s.store m).remap ++ [(row, k)] ∧
          t.mem = s.mem ∧ t.clusters = s.clusters ∧ t.owners = s.owners)) ∧
  (∀ (s : State) (g : GranuleId),
      (s.owner g.val = 0x41 → ∃ t, exec (.granuleScrubDone g) s = .next t ∧ t.owner g.val = 0x40 ∧
        (∀ a, g.val * granuleBytes ≤ a → a < (g.val + 1) * granuleBytes → Memory.read t.mem a = 0) ∧
        (∀ a, a < g.val * granuleBytes ∨ (g.val + 1) * granuleBytes ≤ a → Memory.read t.mem a = Memory.read s.mem a) ∧
        (∀ h, h ≠ g.val → t.owner h = s.owner h)) ∧
      (s.owner g.val ≠ 0x41 → exec (.granuleScrubDone g) s = .next s) ∧
      ((∃ r ∈ s.scrubs, r.granules = []) → ∃ t, exec .scrubComplete s = .next t ∧ (t.fnr 0).event.getLsbD evScrub = true ∧
        t.scrubs = s.scrubs.filter (fun r => !r.granules.isEmpty) ∧ t = { s with scrubs := t.scrubs, mgmt := t.mgmt, fns := t.fns, hostOut := t.hostOut }))

/-! ### Step programs (R161 to R167, R184 to R186) -/

/-- R161, R162, R163, R184, R285 and R294: the next descriptor is fetched and checked, its mark translated (R296); with no operation running it
starts on every S-core; each cluster arrives once, its ranges free (R133); the arrivals that reach the unit complete a generation of the
barrier's firmware mark; after the release the operation ends; and while routes change arrivals and releases wait.
The model’s own choices among what this states are those of notes/assumptions/21.md (DEDUCED) and notes/assumptions/24.md (DESIGN CHOICE). -/
def Obligations.OperationsRunOneAtATime : Prop :=
  ∀ (s : State) (p : PartId) (q : Partition) (t : Step) (k : Context), s.part p.val = some q → q.step = some t → s.ctx t.ctx.val = some k →
    t.failed = none →
    (∀ (g : Program) (i : Nat), t.fetched = none → t.fetchBad = none → t.phase ≠ .compared → t.phase ≠ .ended →
      t.current.all (fun d => d.opcode != 0x01) = true → i = (if t.current.isSome then t.op + 1 else t.op) → k.programs.find t.program = some g →
      (g.count ≤ i → ∃ u, exec (.descriptorFetch p) s = .next (settle s u) ∧ u = { s with parts := u.parts } ∧
        u.stepOf p.val = some { t with fetchBad := some stOpcode }) ∧
      (i < g.count → (g.base + 64 * i) / 64 ∉ s.memPoison → ∀ d, d = decodeDesc t.rowCount t.seqCount (s.ssRead (g.base + 64 * i) 64) →
        ∃ u, exec (.descriptorFetch p) s = .next (settle s u) ∧ u = { s with parts := u.parts } ∧
          u.stepOf p.val = some (match checkDesc { t := t, cl := q.clusters, ctx := k, s := s, held := heldFor t } d with
            | some st => { t with fetchBad := some st }
            | none => { t with fetched := some (d.translated s t.ctx) }))) ∧
    (∀ d, t.phase = .between → t.fetchBad = none → t.fetched = some d → s.wafer.stopped = false → ∃ u, exec (.operationStart p) s = .next u ∧
      u = { s with parts := u.parts, sites := u.sites } ∧ u.stepOf p.val = some { t with
        current := some d, fetched := none, phase := .running, done := false, arrived := [], combined := [], portHeld := [], complete := false,
        released := false, counts := t.counts.add t.engine, engine := {} }) ∧
    (∀ st, t.phase = .between → t.fetchBad = some st → s.wafer.stopped = false → ∃ u, exec (.operationStart p) s = .next u ∧
      u = { s with parts := u.parts, sites := u.sites } ∧ u.stepOf p.val = some { t with failed := some (st, BitVec.ofNat 32 t.op), held := none }) ∧
    (t.phase ≠ .between → t.current.isSome = true → exec (.operationStart p) s = .next s) ∧
    (s.wafer.stopped = true → ∃ u, exec (.operationStart p) s = .next u ∧ u = { s with parts := u.parts, sites := u.sites } ∧ u.stepOf p.val = some t) ∧
    (∃ u, exec (.operationStart p) s = .next u ∧ ∀ i, u.site i = s.site i ∨ u.site i = { s.site i with cover := none }) ∧
    (∀ c : Cluster, t.phase = .running → t.done = true → t.complete = false → q.clusters.contains c.val = true →
      (t.arrived.contains c.val = true → exec (.barrierArrival p c) s = .next (settle s s)) ∧
      (t.arrived.contains c.val = false → s.wafer.stopped = true → ∃ u, exec (.barrierArrival p c) s = .next (settle s u) ∧
        u = { s with parts := u.parts } ∧ u.stepOf p.val = some { t with portHeld := union t.portHeld [c.val] }) ∧
      (t.arrived.contains c.val = false → (combinedAt (arrivalTree s p.val q) (t.arrived ++ [c.val]) c.val).all (fun a =>
          pathOpen s 0 [a, nextHop s.wafer.routesFor 0 a (unitAt (barrierMark s p.val / 128))]) = false → ∃ u, exec (.barrierArrival p c) s = .next (settle s u) ∧
        u = { s with parts := u.parts } ∧ u.stepOf p.val = some { t with portHeld := union t.portHeld [c.val] }) ∧
      (t.arrived.contains c.val = false → s.wafer.stopped = false → (s.cluster c.val).subs = [] →
        (∀ k, (s.core c.val k).waiting = [] ∧ (s.coreStore c.val k).waiting = []) →
        (combinedAt (arrivalTree s p.val q) (t.arrived ++ [c.val]) c.val).all (fun a =>
          pathOpen s 0 [a, nextHop s.wafer.routesFor 0 a (unitAt (barrierMark s p.val / 128))]) = true →
        let all := t.arrived ++ [c.val]
        let tree := arrivalTree s p.val q
        let combined := t.combined ++ combinedAt tree all c.val
        ∃ u, exec (.barrierArrival p c) s = .next u ∧ u.mem = s.mem ∧ u.dimm = s.dimm ∧ u.seqs = s.seqs ∧ u.owners = s.owners ∧ u.sq = s.sq ∧
        u.stepOf p.val = some { t with arrived := all, combined := combined, complete := decide (q.clusters.length ≤ arrivedAtUnit tree all combined) } ∧
        (∀ k, k < 7 → (u.coreStore c.val k).board = []) ∧
        (u.mark (barrierMark s p.val)).value = (s.mark (barrierMark s p.val)).value
          + (if arrivedAtUnit tree t.arrived t.combined ≠ arrivedAtUnit tree all combined ∧ q.clusters.length ≤ arrivedAtUnit tree all combined then 1 else 0) ∧
        (arrivedAtUnit tree t.arrived t.combined ≠ arrivedAtUnit tree all combined →
          (u.mark (barrierMark s p.val)).target = BitVec.ofNat 32 q.clusters.length ∧
          (u.mark (barrierMark s p.val)).count = (if q.clusters.length ≤ arrivedAtUnit tree all combined then 0
            else BitVec.ofNat 32 (arrivedAtUnit tree all combined)) ∧
          (u.mark (barrierMark s p.val)).last = { time := markNow s (barrierMark s p.val), source := 0xFD, op := 2 }) ∧
        ∀ j, j ≠ barrierMark s p.val → u.mark j = s.mark j)) ∧
    (t.complete = true → t.released = false → s.wafer.stopped = false →
      (treeLinks (arrivalTree s p.val q)).all (fun x => pathOpen s 0 [x.2, x.1]) = true → ∃ u, exec (.barrierRelease p) s = .next u ∧
      u = { s with parts := u.parts, wafer := u.wafer } ∧ u.stepOf p.val = some { t with released := true }) ∧
    (t.complete = true → s.wafer.stopped = true ∨ (treeLinks (arrivalTree s p.val q)).all (fun x => pathOpen s 0 [x.2, x.1]) = false →
      exec (.barrierRelease p) s = .next s) ∧
    (t.complete = false → exec (.barrierRelease p) s = .next s) ∧
    (∀ (d : OpDesc) (ms : List Measure), t.current = some d → d.opcode ≠ 0x01 → t.phase = .running →
      (t.released = true → ∃ u, exec (.operationEnd p ms) s = .next u ∧ u = { s with parts := u.parts, ctxs := u.ctxs, power := u.power } ∧
        (∃ v, u.stepOf p.val = some v ∧ v.phase = .between ∧ v.op = t.op + 1 ∧ v.current = none ∧ v.fetched = t.fetched ∧ v.counts = t.counts ∧
          v.held = t.held) ∧ (u.ctx t.ctx.val).map (·.opsEnded) = some (satAdd k.opsEnded 1)) ∧
      (t.released = false → exec (.operationEnd p ms) s = .next s))

/-- R164, R174, R175, R185 and R271: a step ends by END with DONE, or by its first failure with that status and its operation's index; its
completion record says so; a failed step's sequences do not advance. NOP does nothing.
R384: a difference of the sequence engine's copies fails the step that would have committed.
R218, R303, R313 and R450: summaries are copied into the partition's share of the cache, and one that cannot be read is not delivered; and a step held for its gang or for its partner goes
to its S-cores once the Navigator's Reckoner has reached the start time.
The model’s own choices among what this states are those of notes/assumptions/37.md (DEDUCED). -/
def Obligations.StepsEndWithOneRecord : Prop :=
  (∀ (s : State) (p : PartId) (q : Partition) (t : Step) (k : Context), s.part p.val = some q → q.step = some t → s.ctx t.ctx.val = some k →
      lockedStep s = false →
      (∀ d, t.current = some d → d.opcode = 0x01 → t.phase = .running → t.done = false → t.failed = none → recordsFree stDone t s = true →
        ∃ u, exec (.endStep p none) s = .next u ∧ u.stepOf p.val = none ∧ (u.part p.val).bind (·.lastCtx) = some t.ctx ∧ u.mem = s.mem ∧ u.dimm = s.dimm ∧
          (u.ctx t.ctx.val).map (·.stepsDone) = some (satAdd k.stepsDone 1) ∧
          Safety.Recorded s u t.ring.val (fun c => c.status = stDone ∧ c.type = 0x01 ∧ c.op = 0xFFFFFFFF ∧ c.tag = t.tag ∧ c.result = t.number)) ∧
      (∀ d n, t.current = some d → d.opcode = 0x01 → t.phase = .running → t.done = false → t.failed = none → s.errs.seqCopyOff = false →
        ∃ u, exec (.endStep p (some n)) s = .next u ∧ (∃ v, u.stepOf p.val = some v ∧ v.failed = some (stChecksum, BitVec.ofNat 32 t.op)) ∧
          u.mem = s.mem ∧ u.dimm = s.dimm ∧ u.seqs = s.seqs ∧ u.cq = s.cq ∧ u.tq = s.tq) ∧
      (∀ n, s.errs.seqCopyOff = true → exec (.endStep p (some n)) s = exec (.endStep p none) s) ∧
      (∀ st op, t.failed = some (st, op) → t.phase ≠ .compared → t.phase ≠ .ended → st ≠ stDone → recordsFree st t s = true →
        ∃ u, exec (.operationFail p) s = .next u ∧ u.stepOf p.val = none ∧ u.mem = s.mem ∧ u.dimm = s.dimm ∧
          (u.ctx t.ctx.val).map (·.stepsDone) = some (satAdd k.stepsDone 1) ∧
          (∀ n, (u.seqs.find n).map (fun x => (x.length, x.prefilled, x.generated, x.lastToken)) =
            (s.seqs.find n).map (fun x => (x.length, x.prefilled, x.generated, x.lastToken)) ∨ u.seqs.find n = none) ∧
          (∀ y, s.sq.find t.ring.val = some y → y.ctx = t.ctx → halting 0x01 st = true → (u.ctx t.ctx.val).map (·.halted) = some true) ∧
          Safety.Recorded s u t.ring.val (fun c => c.status = st ∧ c.type = 0x01 ∧ c.op = op ∧ c.tag = t.tag ∧ c.result = t.number)) ∧
      (t.failed = none → exec (.operationFail p) s = .next (settle s s)) ∧
      (∀ d, t.current = some d → d.opcode = 0x00 → t.phase = .running → t.done = false → t.failed = none →
        ∃ u, exec (.nop p) s = .next u ∧ u = { s with parts := u.parts } ∧ u.stepOf p.val = some { t with done := true })) ∧
  (∀ (s : State) (p : PartId) (q : Partition) (t : Step), s.part p.val = some q → q.step = some t →
      (∀ (n : Nat) (k : Context) (c : KvConfig), t.kind = .decode → s.ctx t.ctx.val = some k → k.kv = some c →
        let all := sealedSummaries s t c t.cacheLayer
        let used := min (t.cacheUsed + n) (min t.cacheCap all.length)
        let page (x : Nat × Nat × Nat) : Option Nat := (s.seqs.find x.1).bind (fun y => (s.dir.find (y.entry c t.cacheLayer x.2.1 x.2.2)).map (·.page))
        let bad := ((all.take used).drop t.cacheUsed).filter (fun x => !(page x).any (summaryReads s k))
        ∃ u, exec (.summaryCacheCopy p n) s = .next u ∧ u.stepOf p.val = some { t with cacheUsed := used, cacheBad := t.cacheBad ++ bad } ∧
          u.mem = s.mem ∧ u.dimm = s.dimm ∧ (bad = [] → u = { s with parts := u.parts })) ∧
      (∀ n, t.kind ≠ .decode → exec (.summaryCacheCopy p n) s = .next s) ∧
      (∀ w, t.phase = .gangHold w → navigatorAt p.val w s = true → ∃ u, exec (.gangStart p) s = .next u ∧ u = { s with parts := u.parts } ∧
        u.stepOf p.val = some { t with phase := .between }) ∧
      (∀ w, t.phase = .gangHold w → navigatorAt p.val w s = false → exec (.gangStart p) s = .next s) ∧
      (∀ w, t.phase = .lockedHold w → navigatorAt p.val w s = false → exec (.lockedStepStartAtS p) s = .next s) ∧
      (∀ w, t.phase = .lockedHold w → navigatorAt p.val w s = true → ∃ u, exec (.lockedStepStartAtS p) s = .next u ∧ u = { s with parts := u.parts } ∧
        u.stepOf p.val = some { t with phase := .between }) ∧
      (t.phase = .running → exec (.gangStart p) s = .next s ∧ exec (.lockedStepStartAtS p) s = .next s))

/-! ### Operations and kernels (R155, R164, R172 to R191, R207 to R250) -/

/-- R155, R164, R174 and R176: each operation and kernel that only reads and writes the shared store carries out its work, or fails the step
with nothing written; one with zero work writes nothing and is counted.
R163: a command of an operation whose descriptor is of another opcode or kernel, or that no running operation awaits, does nothing.
The model’s own choices among what this states are those of notes/assumptions/13.md (DEDUCED) and notes/assumptions/14.md (DESIGN CHOICE) and
notes/assumptions/16.md (DESIGN CHOICE) and notes/assumptions/18.md (DESIGN CHOICE). -/
def Obligations.OperationsCarryOutTheirWork : Prop :=
  (∀ (s : State) (p : PartId) (h : List HwFault) (q : Partition) (t : Step) (d : OpDesc), Safety.Running s p q t d →
      ∀ x ∈ Safety.operations p h, x.2.1 d = true →
        (zeroWork d = false → Safety.CarriesOut s p h t (x.2.2 ⟨s, q.clusters, t, d⟩) (exec x.1 s)) ∧
        (zeroWork d = true → ∃ u, exec x.1 s = .next (settle s u) ∧ u = { s with parts := u.parts } ∧
          ∃ v, u.stepOf p.val = some v ∧ v.done = true ∧ v.zeroOps = t.zeroOps + 1 ∧ v.failed = none ∧ v.counts = t.counts ∧ v.op = t.op)) ∧
  (∀ (s : State) (p : PartId) (h : List HwFault), ∀ x ∈ Safety.operations p h,
      (∀ q t d, Safety.Running s p q t d → x.2.1 d = false → exec x.1 s = .next (settle s s)) ∧
      (s.part p.val = none ∨ (∃ q, s.part p.val = some q ∧ q.step = none) ∨
          (∃ q t, s.part p.val = some q ∧ q.step = some t ∧ (t.phase ≠ .running ∨ t.done = true ∨ t.current = none ∨ t.failed ≠ none)) →
        exec x.1 s = .next (settle s s)))

/-- R181: MOVE copies N bytes as through a buffer, on each segment of the partition for a striped tensor, and changes no other byte.
The model’s own choices among what this states are those of notes/assumptions/13.md (DEDUCED). -/
def Obligations.MoveCopiesAsThroughABuffer : Prop :=
  ∀ (s : State) (p : PartId) (q : Partition) (t : Step) (d : OpDesc), Safety.Running s p q t d → isOp 0x08 d = true → d.n ≠ 0 → 64 ∣ d.n →
    Safety.Open s t (moveWork ⟨s, q.clusters, t, d⟩) → poisonedWords s (moveWork ⟨s, q.clusters, t, d⟩).reads = [] → d.layA = 0 →
    ∃ u, exec (.move p []) s = .next u ∧
      (∀ i, i < d.n → Memory.read u.mem (wordAddr d.addrD + i) = Memory.read s.mem (wordAddr d.addrA + i)) ∧
      (∀ a, a < wordAddr d.addrD ∨ wordAddr d.addrD + d.n ≤ a → Memory.read u.mem a = Memory.read s.mem a)

/-- R203 to R209, R211 and R213: KV_APPEND writes DIMM memory and no shared store; the paged attentions read pages and write only D; PREDICT
writes its outputs and notes its audit; SAMPLE selects for the FINAL sequences and writes nothing.
The model’s own choices among what this states are those of notes/assumptions/13.md (DEDUCED) and notes/assumptions/14.md (DESIGN CHOICE). -/
def Obligations.SequenceOperationsCarryOut : Prop :=
  ∀ (s : State) (p : PartId) (h : List HwFault) (q : Partition) (t : Step) (d : OpDesc) (k : Context) (c : KvConfig),
    Safety.Running s p q t d → zeroWork d = false → s.ctx t.ctx.val = some k → k.kv = some c → c.perPage ≤ 7 →
    (isOp 0x0C d = true →
      let e : Env := ⟨s, q.clusters, t, d⟩
      let a := appendAll e k c
      let w : Work := { reads := (d.tensA d.m (256 * c.heads)).reads s q.clusters, counts := a.counts, page := a.lost }
      (Safety.Open s t w → poisonedWords s w.reads = [] → a.lost = none →
        (∀ x ∈ a.filled, ∀ y, pageAddr k x.2.1 = some y → keysRead (a.writes.foldl (fun s w => dimmWrite w.1 w.2 s) s) c y x.2.2.2.1 = true) → ∃ u, exec (.kvAppend p []) s = .next u ∧
        u.mem = s.mem ∧ u.seqs = s.seqs ∧ u.dir = s.dir ∧ u.marks = s.marks ∧
        (∃ v, u.stepOf p.val = some v ∧ v.done = true ∧ v.failed = none ∧ d.layer ∈ v.kvLayers ∧ v.counts = t.counts.add a.counts) ∧
        ∀ b, (∀ x ∈ a.writes, b < x.1 ∨ x.1 + x.2.length ≤ b) →
          (∀ x ∈ a.filled, ∀ y, summaryAddr k x.2.1 = some y → b < y ∨ y + 1024 ≤ b) → Memory.read u.dimm b = Memory.read s.dimm b) ∧
      (Safety.Open s t w → poisonedWords s w.reads = [] → (∀ f ∈ h, f.word = none) → ∀ g, a.lost = some g → ∃ u, exec (.kvAppend p h) s = .next u ∧ u.mem = s.mem ∧
        u.dimm = s.dimm ∧ ∃ v, u.stepOf p.val = some v ∧ v.failed = some (stMemory, BitVec.ofNat 32 t.op))) ∧
    (isOp 0x0D d = true → Safety.CarriesOut s p h t (pagedWork true ⟨s, q.clusters, t, d⟩ k c) (exec (.attnDecode p h) s)) ∧
    (isOp 0x0E d = true → Safety.CarriesOut s p h t (pagedWork false ⟨s, q.clusters, t, d⟩ k c) (exec (.attnPrefill p h) s)) ∧
    (isOp 0x05 d = true →
      let x := prediction ⟨s, q.clusters, t, d⟩
      Safety.CarriesOut s p h t x.work (exec (.predict p h) s) ∧
      (Safety.Open s t x.work → poisonedWords s x.work.reads = [] → x.work.page = none → x.work.bad = [] → h = [] → x.rows ≠ 0 →
        ∃ u v, exec (.predict p h) s = .next u ∧ u.stepOf p.val = some v ∧
          v.auditHits.getD d.auditSlot (0, 0) = ((t.auditHits.getD d.auditSlot (0, 0)).1 + x.rows, (t.auditHits.getD d.auditSlot (0, 0)).2 + x.misses))) ∧
    (isOp 0x11 d = true →
      let a := d.tensA d.m d.n
      let finals := (t.seqs.zipIdx.take d.m).filter (fun x => x.1.final)
      let w : Work := { reads := finals.flatMap (fun x => a.rowReads s q.clusters x.2) }
      Safety.Open s t w → poisonedWords s w.reads = [] → ∃ u v, exec (.sample p []) s = .next u ∧ u.stepOf p.val = some v ∧ v.done = true ∧
        v.samples = finals.filterMap (fun (sq, i) => sampleOne s sq.slot (kRow (a.row s q.clusters i))) ∧
        u.mem = s.mem ∧ u.dimm = s.dimm ∧ u.seqs = s.seqs ∧ u.hostOut.length ≥ s.hostOut.length ∧ u.tq = s.tq) ∧
    (∀ i : Instr × Nat, i ∈ [(.kvAppend p h, 0x0C), (.attnDecode p h, 0x0D), (.attnPrefill p h, 0x0E), (.predict p h, 0x05), (.sample p h, 0x11)] →
      isOp i.2 d = false → exec i.1 s = .next (settle s s))

/-! ### Marks (R174, R290 to R306) -/

/-- R174, R175 and R293: MARK_SIGNAL sends its message and MARK_WAIT its wait, with the next number of their source and destination (R285), each
holds the operation, and the operation ends at the acknowledgement or the wake; a virtual mark that was not mapped fails the step.
The model’s own choices among what this states are those of notes/assumptions/24.md (DESIGN CHOICE) and notes/assumptions/35.md (DEDUCED). -/
def Obligations.MarkOpcodesWaitForTheirUnit : Prop :=
  ∀ (s : State) (p : PartId) (q : Partition) (t : Step),
    (∀ d k, Safety.Running s p q t d → isOp 0x12 d = true → d.mark = some k → ∃ u, exec (.markSignal p) s = .next u ∧
      u = { s with parts := u.parts, net := u.net } ∧ u.stepOf p.val = some { t with phase := .signalling } ∧
      ∃ m ∈ u.net.fabric ++ u.net.ports, m.part = p ∧ m.unit = k.val / 128 ∧ m.seq = s.net.sent.getD (m.key s) 0 ∧
        m.body = .signal k (BitVec.ofNat 8 d.markMode) (if d.markMode = 0 ∨ d.markMode = 1 then d.p1 else 0)) ∧
    (∀ d k, Safety.Running s p q t d → isOp 0x13 d = true → d.mark = some k → ∃ u, exec (.markWait p) s = .next u ∧
      u = { s with parts := u.parts, net := u.net, ctxs := u.ctxs } ∧ u.stepOf p.val = some { t with phase := .waiting } ∧
      (u.ctx t.ctx.val).map (·.quietSince) = (s.ctx t.ctx.val).map (fun _ => s.now) ∧
      ∃ m ∈ u.net.fabric ++ u.net.ports, m.part = p ∧ m.unit = k.val / 128 ∧ m.seq = s.net.sent.getD (m.key s) 0 ∧
        m.body = .signal k (BitVec.ofNat 8 (16 + d.markMode)) (if d.markMode = 1 then 0 else d.p1)) ∧
    (∀ d, Safety.Running s p q t d → isOp 0x12 d = true → d.mark = none → ∃ u, exec (.markSignal p) s = .next u ∧
      u = { s with parts := u.parts } ∧ u.stepOf p.val = some { t with failed := some (stMark, BitVec.ofNat 32 t.op) }) ∧
    (∀ d, Safety.Running s p q t d → isOp 0x13 d = true → d.mark = none → ∃ u, exec (.markWait p) s = .next u ∧
      u = { s with parts := u.parts } ∧ u.stepOf p.val = some { t with failed := some (stMark, BitVec.ofNat 32 t.op) }) ∧
    (s.part p.val = some q → q.step = some t → t.phase = .waiting → ∀ m, s.net.fabric.find? (fun x => x.part == p && x.body == .wake && x.mayCross s) = some m →
      ∃ u, exec (.markWakeDelivered p) s = .next u ∧ u = { s with parts := u.parts, net := u.net, wafer := u.wafer } ∧
      u.stepOf p.val = some { t with phase := .running, done := true } ∧ u.net.got.getD (m.key s) 0 = m.seq + 1 ∧
      (s.net.ports = [] → u.net.fabric = s.net.fabric.filter (· ≠ m))) ∧
    (s.part p.val = some q → q.step = some t → t.phase = .signalling → ∀ m, s.net.fabric.find? (fun x => x.part == p && x.body == .ack && x.mayCross s) = some m →
      ∃ u, exec (.markAckDelivered p) s = .next u ∧ u = { s with parts := u.parts, net := u.net, wafer := u.wafer } ∧
      u.stepOf p.val = some { t with phase := .running, done := true } ∧ u.net.got.getD (m.key s) 0 = m.seq + 1 ∧
      (s.net.ports = [] → u.net.fabric = s.net.fabric.filter (· ≠ m))) ∧
    ((∀ m ∈ s.net.fabric, m.part ≠ p ∨ m.body ≠ .wake ∨ m.mayCross s = false) → exec (.markWakeDelivered p) s = .next s) ∧
    ((∀ m ∈ s.net.fabric, m.part ≠ p ∨ m.body ≠ .ack ∨ m.mayCross s = false) → exec (.markAckDelivered p) s = .next s)

/-- R291, R292 and R301: what each operation does to a mark with no waiter, and what of it is recorded; an operation that the mark's kind does not
permit, or whose sender cannot name the mark, does nothing; no other mark changes; and a context's message is acknowledged (R293).
R292: a wait that is satisfied when it arrives is woken at once, and a TAKE takes its amount; one that is not is registered behind the
others; AT_LEAST compares modulo 2^32.
R384: an uncorrectable error of a mark's state fails the steps of the contexts that map it, and the mark changes no more.
The model’s own choices among what this states are those of notes/assumptions/24.md (DESIGN CHOICE) and notes/assumptions/35.md (DEDUCED). -/
def Obligations.MarkOperationsAct : Prop :=
  (∀ (s : State) (k : MarkId) (v : W32) (src : MarkSrc) (e : Option EccKind), (s.mark k.val).waiters = [] → (s.mark k.val).bad = false →
      e ≠ some .uncorrectable →
      ((s.mark k.val).kind = .counter →
        (sends s k.val 0 src = true → sourceWaits k.val 0 src s = false → ∃ u, exec (.markAdd k v src e) s = .next u ∧
          u = { s with marks := u.marks, net := u.net, wafer := u.wafer } ∧
          u.mark k.val = { s.mark k.val with value := (s.mark k.val).value + v, last := changeOf s k.val src 0 } ∧ (∀ j, j ≠ k.val → u.mark j = s.mark j) ∧
          ∀ c p t m, src = .context c → runningStep s c.val = some (p.val, t) → m ∈ s.net.fabric → m.part = p → m.body = .signal k 0 v →
            ∃ a ∈ u.net.fabric ++ u.net.ports, a.part = p ∧ a.body = .ack) ∧
        (sends s k.val 1 src = true → sourceWaits k.val 1 src s = false → ∃ u, exec (.markSet k v src e) s = .next u ∧
          u = { s with marks := u.marks, net := u.net, wafer := u.wafer } ∧
          u.mark k.val = { s.mark k.val with value := v, last := changeOf s k.val src 1 } ∧ ∀ j, j ≠ k.val → u.mark j = s.mark j) ∧
        exec (.markArrive k src e) s = .next s) ∧
      ((s.mark k.val).kind = .barrier →
        (sends s k.val 2 src = true → sourceWaits k.val 2 src s = false → ∃ u, exec (.markArrive k src e) s = .next u ∧
          u = { s with marks := u.marks, net := u.net, wafer := u.wafer } ∧
          u.mark k.val = (if (s.mark k.val).count + 1 = (s.mark k.val).target
            then { s.mark k.val with count := 0, value := (s.mark k.val).value + 1, last := changeOf s k.val src 2 }
            else { s.mark k.val with count := (s.mark k.val).count + 1, last := changeOf s k.val src 2 })) ∧
        exec (.markAdd k v src e) s = .next s ∧ exec (.markSet k v src e) s = .next s) ∧
      ((s.mark k.val).kind ≠ .gang → sends s k.val 3 src = true → sourceWaits k.val 3 src s = false → ∃ u, exec (.markReset k src e) s = .next u ∧
        u = { s with marks := u.marks, net := u.net, wafer := u.wafer } ∧
        u.mark k.val = { s.mark k.val with value := 0, count := 0, last := changeOf s k.val src 3 } ∧ ∀ j, j ≠ k.val → u.mark j = s.mark j) ∧
      ((s.mark k.val).kind = .gang → exec (.markAdd k v src e) s = .next s ∧ exec (.markSet k v src e) s = .next s ∧
        exec (.markReset k src e) s = .next s) ∧
      (sends s k.val 0 src = false → exec (.markAdd k v src e) s = .next s) ∧ (sends s k.val 1 src = false → exec (.markSet k v src e) s = .next s) ∧
      (sends s k.val 3 src = false → exec (.markReset k src e) s = .next s) ∧
      ((changeOf s k.val .host 0).source = 0xFE ∧ (changeOf s k.val .firmware 0).source = 0xFD ∧
        ∀ c : CtxId, (changeOf s k.val (.context c) 0).source = BitVec.ofNat 8 c.val)) ∧
  (∀ (s : State) (k : MarkId) (c : CtxId) (w : W32) (p : PartId) (t : Step) (e : Option EccKind), mapsMark s c.val k.val = true →
      runningStep s c.val = some (p.val, t) → (s.mark k.val).waiters = [] → (s.mark k.val).bad = false → e ≠ some .uncorrectable →
      (sourceWaits k.val 16 (.context c) s = false →
        (reached (s.mark k.val).value w = true → ∃ u, exec (.markWaitAtLeast k w c e) s = .next u ∧
          u = { s with marks := u.marks, net := u.net, ctxs := u.ctxs, wafer := u.wafer } ∧
          (∃ m ∈ u.net.fabric ++ u.net.ports, m.part = p ∧ m.body = .wake) ∧ u.mark k.val = s.mark k.val) ∧
        (reached (s.mark k.val).value w = false → ∃ u, exec (.markWaitAtLeast k w c e) s = .next u ∧
          u = { s with marks := u.marks, net := u.net, ctxs := u.ctxs, wafer := u.wafer } ∧
          (∀ m ∈ u.net.fabric ++ u.net.ports, m ∈ s.net.fabric ++ s.net.ports) ∧
          u.mark k.val = { s.mark k.val with waiters := [{ ctx := c, mode := .atLeast, target := w, since := markNow s k.val }] })) ∧
      (sourceWaits k.val 18 (.context c) s = false →
        ((s.mark k.val).kind = .counter → w ≤ (s.mark k.val).value → ∃ u, exec (.markWaitTake k w c e) s = .next u ∧
          u = { s with marks := u.marks, net := u.net, ctxs := u.ctxs, wafer := u.wafer } ∧
          (∃ m ∈ u.net.fabric ++ u.net.ports, m.part = p ∧ m.body = .wake) ∧ (u.mark k.val).value = (s.mark k.val).value - w ∧
          (u.mark k.val).waiters = [] ∧ ∀ j, j ≠ k.val → u.mark j = s.mark j) ∧
        ((s.mark k.val).kind = .counter → (s.mark k.val).value < w → ∃ u, exec (.markWaitTake k w c e) s = .next u ∧
          (∀ m ∈ u.net.fabric ++ u.net.ports, m ∈ s.net.fabric ++ s.net.ports) ∧
          u.mark k.val = { s.mark k.val with waiters := [{ ctx := c, mode := .take, target := w, since := markNow s k.val }] })) ∧
      ((s.mark k.val).kind ≠ .counter → exec (.markWaitTake k w c e) s = .next s) ∧
      (sourceWaits k.val 17 (.context c) s = false →
        ((s.mark k.val).kind = .barrier → (s.mark k.val).count + 1 ≠ (s.mark k.val).target → ∃ u, exec (.markWaitArrive k c e) s = .next u ∧
          u = { s with marks := u.marks, net := u.net, ctxs := u.ctxs, wafer := u.wafer } ∧
          (∀ m ∈ u.net.fabric ++ u.net.ports, m ∈ s.net.fabric ++ s.net.ports) ∧ (u.mark k.val).count = (s.mark k.val).count + 1 ∧
          (u.mark k.val).waiters = [{ ctx := c, mode := .arrive, target := (s.mark k.val).value + 1, since := markNow s k.val }]) ∧
        ((s.mark k.val).kind = .barrier → (s.mark k.val).count + 1 = (s.mark k.val).target → ∃ u, exec (.markWaitArrive k c e) s = .next u ∧
          (∃ m ∈ u.net.fabric ++ u.net.ports, m.part = p ∧ m.body = .wake) ∧ (u.mark k.val).count = 0 ∧
          (u.mark k.val).value = (s.mark k.val).value + 1 ∧ (u.mark k.val).waiters = [])) ∧
      ((s.mark k.val).kind ≠ .barrier → exec (.markWaitArrive k c e) s = .next s) ∧
      (∀ x y : W32, reached x y = true ↔ (x - y).toNat < 2 ^ 31)) ∧
  (∀ (s : State) (k : MarkId) (v : W32) (src : MarkSrc) (e : Option EccKind), (s.mark k.val).bad = true ∨ e = some .uncorrectable →
      ∃ u, exec (.markAdd k v src e) s = .next u ∧ u.mark k.val = { s.mark k.val with bad := true } ∧ (∀ j, j ≠ k.val → u.mark j = s.mark j) ∧
        u.mem = s.mem ∧ u.dimm = s.dimm ∧
        ∀ (p : PartId) q t, s.part p.val = some q → q.step = some t → runningStep s t.ctx.val = some (p.val, t) → mapsMark s t.ctx.val k.val = true →
          t.failed = none → ∃ x, u.stepOf p.val = some x ∧ x.failed = some (stMemory, BitVec.ofNat 32 t.op))

/-- R303 to R306: the last arrival of a gang releases every member for one start time, the first multiple of PERIOD at least 1 µs later; and a
context that has waited quietly for its window has one record made in an episode.
The model’s own choices among what this states are those of notes/assumptions/35.md (DEDUCED). -/
def Obligations.GangsReleaseTogetherAndQuietWaitsAreRecorded : Prop :=
  ∀ (s : State) (k : MarkId) (c : CtxId),
    (∀ p t e, (s.mark k.val).kind = .gang → runningStep s c.val = some (p, t) → t.phase = .gangWait → c ∈ (s.mark k.val).members →
      c ∉ (s.mark k.val).arrived → (s.mark k.val).count + 1 = (s.mark k.val).target → (s.mark k.val).target ≠ 0 →
      (∀ w ∈ (s.mark k.val).waiters, w.mode = .gang) → (s.mark k.val).bad = false → e ≠ some .uncorrectable → s.wafer.stopped = false →
      ∃ u, exec (.markArrive k (.context c) e) s = .next u ∧ (u.mark k.val).value = (s.mark k.val).value + 1 ∧ (u.mark k.val).count = 0 ∧
        (u.mark k.val).arrived = [] ∧ (u.mark k.val).waiters = [] ∧ (∀ j, (u.ctx j).map (·.gang) = (s.ctx j).map (·.gang)) ∧ u.mem = s.mem ∧
        ∀ n q x, s.part n = some q → q.step = some x → x.ctx ∈ (s.mark k.val).members → x.phase = .gangWait →
          u.stepOf n = some { x with phase := .gangHold (gangStartTime s k.val (s.mark k.val).period) }) ∧
    (∀ p t e, (s.mark k.val).kind = .gang → runningStep s c.val = some (p, t) → (s.mark k.val).bad = false → e ≠ some .uncorrectable →
      t.phase ≠ .gangWait ∨ c ∉ (s.mark k.val).members ∨ s.wafer.stopped = true → exec (.markArrive k (.context c) e) s = .next s) ∧
    (∀ n : Nat, n ≠ 0 → (markNow s k.val).toNat + 4000 + n < 2 ^ 64 → (gangStartTime s k.val n).toNat % n = 0 ∧
      (markNow s k.val).toNat + 4000 ≤ (gangStartTime s k.val n).toNat ∧ (gangStartTime s k.val n).toNat < (markNow s k.val).toNat + 4000 + n) ∧
    (∀ p t x, runningStep s c.val = some (p, t) → s.ctx c.val = some x → waitingEngines s c ≠ [] → x.episode = false → x.lookout = none →
      msTicks x.lookoutMs ≤ s.since x.quietSince →
      ∃ u r, exec (.lookoutRecord c) s = .next u ∧ (u.ctx c.val).bind (·.lookout) = some r ∧ r.step = t.number ∧ r.op = BitVec.ofNat 32 t.op ∧
        r.missed = 0 ∧ r.quietSince = x.quietSince ∧ r.recorded = instanceNow s (sitePos (leadSite s p)) ∧ r.entries = (waitingEngines s c).take 100 ∧
        (u.fnr 0).event.getLsbD evLookout = true ∧ (u.ctx c.val).map (·.episode) = some true ∧ (u.ctx c.val).map (·.lookoutOn) = some true) ∧
    (∀ p t x, runningStep s c.val = some (p, t) → s.ctx c.val = some x → waitingEngines s c ≠ [] → x.episode = false → x.lookout ≠ none →
      msTicks x.lookoutMs ≤ s.since x.quietSince →
      ∃ u, exec (.lookoutRecord c) s = .next u ∧ u.ctx c.val = some { x with overdue := true }) ∧
    (∀ x, s.ctx c.val = some x → s.since x.quietSince < msTicks x.lookoutMs ∨ x.episode = true → exec (.lookoutRecord c) s = .next (settle s s)) ∧
    (waitingEngines s c = [] → exec (.lookoutRecord c) s = .next (settle s s))

/-! ### The host interface: doorbells, registers, timers and the link (R251 to R258, R264 to R266, R275 to R281, R344) -/

/-- R266: a doorbell of a ring that the function reaches is refused, with the ring unchanged and HIF_ERR.DOORBELL_RANGE set, exactly when
its index lies out of range on the signed difference; otherwise it is accepted. -/
def Obligations.DoorbellsOutOfRangeAreRefused : Prop :=
  ∀ (s : State) (f : Fn) (n : RingId) (v : W32) (r : Ring), s.link.up = true → isSecondary s = false → reaches s f r.ctx = true →
    (s.sq.find n.val = some r → (2 ^ r.log2 < (v - r.cons).toInt ∨ (v - r.prod).toInt < 0) →
      exec (.ringSqTail f n v) s = .next (setErr f.val errRange s)) ∧
    (s.cq.find n.val = some r → (0 < (v - r.prod).toInt ∨ (v - r.cons).toInt < 0) →
      exec (.ringCqHead f n v) s = .next (setErr f.val errRange s)) ∧
    (s.tq.find n.val = some r → (0 < (v - r.prod).toInt ∨ (v - r.cons).toInt < 0) →
      exec (.ringTqHead f n v) s = .next (setErr f.val errRange s)) ∧
    (s.sq.find n.val = some r → (v - r.cons).toInt ≤ 2 ^ r.log2 → 0 ≤ (v - r.prod).toInt →
      exec (.ringSqTail f n v) s = .next { s with sq := s.sq.put n.val { r with prod := v } }) ∧
    (s.cq.find n.val = some r → (v - r.prod).toInt ≤ 0 → 0 ≤ (v - r.cons).toInt →
      exec (.ringCqHead f n v) s = .next { s with cq := s.cq.put n.val { r with cons := v } }) ∧
    (s.tq.find n.val = some r → (v - r.prod).toInt ≤ 0 → 0 ≤ (v - r.cons).toInt → s.heldRecs.getD n.val [] = [] →
      ∃ u, exec (.ringTqHead f n v) s = .next u ∧ (u.tq.find n.val) = some { r with cons := v } ∧ u.hostOut = s.hostOut ∧
        (∀ m q, s.sq.find m = some q → u.sq.find m = some (if q.waitsFor.contains n.val then { q with waitsFor := [] } else q))) ∧
    ((setErr f.val errRange s).sq = s.sq ∧ (setErr f.val errRange s).cq = s.cq ∧ (setErr f.val errRange s).tq = s.tq ∧
      ((setErr f.val errRange s).fnr f.val).err.getLsbD errRange = true)

/-- R254 and R266: a doorbell of a ring that does not exist or that the function does not reach changes no ring and sets
HIF_ERR.DOORBELL_UNOWNED.
R251, R252, R255, R257, R258 and R344: the next state after a write to each register of BAR0, to the BAR registers of the header and of the SR-IOV capability (log entry 61), to CLK_PTM_CTRL's FAILED and to PTM Enable, in a module
whose grade is up to date; any size or alignment but an aligned word ignores the write and sets HIF_ERR.BAD_ACCESS; the doorbell page ignores
writes at offsets that name no ring, and a register that is not listed is not changed. The MSI-X table's layout is the model's (log entry 25).
The model’s own choices among what this states are those of notes/assumptions/25.md (DESIGN CHOICE) and notes/assumptions/61.md (PRESUMED). -/
def Obligations.RegisterWritesAct : Prop :=
  (∀ (s : State) (f : Fn) (n : RingId) (v : W32), s.link.up = true →
      ((∀ r, s.sq.find n.val = some r → reaches s f r.ctx = false) → exec (.ringSqTail f n v) s = .next (setErr f.val errUnowned s)) ∧
      ((∀ r, s.cq.find n.val = some r → reaches s f r.ctx = false) → exec (.ringCqHead f n v) s = .next (setErr f.val errUnowned s)) ∧
      ((∀ r, s.tq.find n.val = some r → reaches s f r.ctx = false) → exec (.ringTqHead f n v) s = .next (setErr f.val errUnowned s)) ∧
      (∀ c, reaches s 0 c = true) ∧
      (∀ c k, f ≠ 0 → s.ctx c.val = some k → (reaches s f c = true ↔ k.part.val + 1 = f.val))) ∧
  (∀ (s : State) (f : Fn) (bar off size : Nat) (v : W32), s.link.up = true → Safety.Settled s →
      (bar = barRegisters ∨ bar = barDoorbells → ¬ (size = 4 ∧ off % 4 = 0) →
        exec (.registerWrite f bar off size v) s = .next (setErr f.val errBadAccess s)) ∧
      exec (.registerWrite f barRegisters 0x020 4 v) s = .next (updFn f.val (fun r => { r with event := r.event &&& ~~~(v.setWidth 6) }) s) ∧
      exec (.registerWrite f barRegisters 0x024 4 v) s = .next (updFn f.val (fun r => { r with mask := v.setWidth 6 }) s) ∧
      exec (.registerWrite f barRegisters 0x104 4 v) s = .next (updFn f.val (fun r => { r with err := r.err &&& ~~~(v.setWidth 6) }) s) ∧
      exec (.registerWrite f barRegisters 0x108 4 v) s = .next (updFn f.val (fun r => { r with sbLo := v &&& 0xFFFFF001 }) s) ∧
      exec (.registerWrite f barRegisters 0x10C 4 v) s = .next (updFn f.val (fun r => { r with sbHi := v }) s) ∧
      exec (.registerWrite f barRegisters 0x110 4 v) s = .next (updFn f.val (fun r => { r with setupLo := v &&& 0xFFFFFFC0 }) s) ∧
      exec (.registerWrite f barRegisters 0x114 4 v) s = .next (updFn f.val (fun r => { r with setupHi := v }) s) ∧
      exec (.registerWrite f barRegisters 0x124 4 v) s = .next (updFn f.val (fun r => { r with eventVec := v.setWidth 11 }) s) ∧
      (off % 4 = 0 → off ∉ [0x020, 0x024, 0x104, 0x108, 0x10C, 0x110, 0x114, 0x124] →
        exec (.registerWrite f barRegisters off 4 v) s = .next s) ∧
      (off % 4 = 0 → exec (.registerWrite f barDoorbells off 4 v) s = .next s) ∧
      exec (.registerWrite 0 barDvsec 0x10 4 v) s =
        .next (if v.getLsbD 1 then { s with link := { s.link with ptmFailed := false } } else s) ∧
      exec (.registerWrite 0 barPtm 0 4 v) s = .next { s with link := { s.link with ptmEnable := v.getLsbD 0 } } ∧
      (off % 4 = 0 → exec (.registerWrite 0 barHeader off 4 v) s = .next (updFn 0 (fun r => { r with bars := writeBars 0 headerBars off v r.bars }) s) ∧
        exec (.registerWrite 0 barSriov off 4 v) s = .next { s with link := { s.link with vfBars := writeBars 1 sriovBars off v s.link.vfBars } }) ∧
      (f ≠ 0 → exec (.registerWrite f barDvsec off size v) s = .next s ∧ exec (.registerWrite f barPtm off size v) s = .next s) ∧
      (∀ n, n < vectorsOf f → (s.fnr f.val).pba = [] →
        exec (.registerWrite f barMsix (16 * n + 8) 4 v) s =
          .next (updFn f.val (fun r => { r with vectors := r.vectors.update n {} (fun e => { e with data := v }) }) s) ∧
        exec (.registerWrite f barMsix (16 * n + 12) 4 v) s =
          .next (updFn f.val (fun r => { r with vectors := r.vectors.update n {} (fun e => { e with masked := v.getLsbD 0 }) }) s)) ∧
      (∀ n, vectorsOf f ≤ n → exec (.registerWrite f barMsix (16 * n) 4 v) s = .next s)) ∧
  (∀ (s : State) (f : Fn) (n : Nat) (v : W32) (e : MsixVector), s.link.up = true → n < vectorsOf f → (s.fnr f.val).vectors.getD n {} = e →
      (s.fnr f.val).msixOn = true → (s.fnr f.val).msixMask = false → (s.fnr f.val).bme = true → (s.fnr f.val).pba = [n] → v.getLsbD 0 = false →
      ∃ u, exec (.registerWrite f barMsix (16 * n + 12) 4 v) s = .next (settle s u) ∧ u = { s with fns := u.fns, hostOut := u.hostOut } ∧
        u.hostOut = s.hostOut ++ [.interrupt f n e.addr e.data] ∧ (u.fnr f.val).pba = []) ∧
  (∀ (s : State) (f : Fn) (bar off size : Nat) (v : W32),
      (s.link.up = false → exec (.registerWrite f bar off size v) s = .next (settle s s)) ∧
      ∃ u, exec (.registerWrite f bar off size v) s = .next (settle s u) ∧ u = { s with fns := u.fns, link := u.link, hostOut := u.hostOut } ∧
        u.link = { s.link with ptmFailed := u.link.ptmFailed, ptmEnable := u.link.ptmEnable, aspm := u.link.aspm, vfBars := u.link.vfBars } ∧
        ∀ g, g ≠ f.val → u.fnr g = s.fnr g)

/-- R251, R256, R261, R272, R275 to R277 and R437: Bus Master Enable, the status block, coalescing and completion time-outs.
R340, R344 and R345: PTM dialogues, their registers and the Reckoner's read.
The model’s own choices among what this states are those of notes/assumptions/23.md (DEDUCED) and notes/assumptions/37.md (DEDUCED) and
notes/assumptions/61.md (PRESUMED). -/
def Obligations.HostTimersAndPtmAct : Prop :=
  (∀ (s : State) (f : Fn), s.link.up = true →
      ((s.fnr f.val).bme = false → (s.fnr f.val).unread = none → (∀ p t, s.stepOf p = some t → t.phase ≠ .ended) →
        ∃ u, exec (.busMasterEnableSet f) s = .next (settle s u) ∧ u.hostOut = s.hostOut ++ (s.fnr f.val).held ∧
          u.fnr f.val = { s.fnr f.val with bme := true, held := [] } ∧ u = { s with hostOut := u.hostOut, fns := u.fns }) ∧
      ((s.fnr f.val).bme = true → exec (.busMasterEnableSet f) s = .next (settle s s)) ∧
      ((s.fnr f.val).sbLo.toNat % 2 = 1 → (s.fnr f.val).bme = true → ∃ u, exec (.statusBlockWrite f true) s = .next u ∧
        u = { s with fns := u.fns, hostOut := u.hostOut } ∧ (u.fnr f.val).heartbeat = (s.fnr f.val).heartbeat + 1 ∧
        ∃ b, u.hostOut = s.hostOut ++ [.statusBlock f (BitVec.ofNat 64 ((s.fnr f.val).sbHi.toNat * 2 ^ 32 + (s.fnr f.val).sbLo.toNat / 4096 * 4096)) b] ∧
          b.getLast? = some (0, (s.fnr f.val).heartbeat + 1)) ∧
      ((s.fnr f.val).sbLo.toNat % 2 = 1 → ∃ u, exec (.statusBlockWrite f false) s = .next u ∧ u.hostOut = s.hostOut ∧
        (u.fnr f.val).err.getLsbD errStatusBlock = true ∧ u = { s with fns := u.fns }) ∧
      ((s.fnr f.val).sbLo.toNat % 2 = 0 → ∀ b, exec (.statusBlockWrite f b) s = .next s) ∧
      (∀ (n : RingId) r v, s.cq.find n.val = some r → r.vector = some v → r.unsignalled ≠ 0 → r.coalUs ≠ 0 → (s.fnr r.fn.val).msixOn = true →
        let e := (s.fnr r.fn.val).vectors.getD v {}
        ((s.fnr r.fn.val).bme = true → (s.fnr r.fn.val).msixMask = false → e.masked = false → ∃ u, exec (.coalesceTimeout false n) s = .next u ∧
          u.hostOut = s.hostOut ++ [.interrupt r.fn v e.addr e.data] ∧
          u.cq.find n.val = some { r with unsignalled := 0 } ∧ u = { s with hostOut := u.hostOut, cq := u.cq }) ∧
        ((s.fnr r.fn.val).msixMask = true ∨ e.masked = true → ∃ u, exec (.coalesceTimeout false n) s = .next u ∧ u.hostOut = s.hostOut ∧
          v ∈ (u.fnr r.fn.val).pba ∧ u.cq.find n.val = some { r with unsignalled := 0 } ∧ u = { s with fns := u.fns, cq := u.cq })) ∧
      (∀ (n : RingId) r v, s.tq.find n.val = some r → r.vector = some v → r.unsignalled ≠ 0 → r.coalUs ≠ 0 → (s.fnr r.fn.val).msixOn = true →
        let e := (s.fnr r.fn.val).vectors.getD v {}
        ((s.fnr r.fn.val).bme = true → (s.fnr r.fn.val).msixMask = false → e.masked = false → ∃ u, exec (.coalesceTimeout true n) s = .next u ∧
          u.hostOut = s.hostOut ++ [.interrupt r.fn v e.addr e.data] ∧
          u.tq.find n.val = some { r with unsignalled := 0 } ∧ u = { s with hostOut := u.hostOut, tq := u.tq }) ∧
        ((s.fnr r.fn.val).msixMask = true ∨ e.masked = true → ∃ u, exec (.coalesceTimeout true n) s = .next u ∧ u.hostOut = s.hostOut ∧
          v ∈ (u.fnr r.fn.val).pba ∧ u.tq.find n.val = some { r with unsignalled := 0 } ∧ u = { s with fns := u.fns, tq := u.tq })) ∧
      ((s.fnr f.val).bme = true → (s.fnr f.val).pending = none → ∃ u, exec (.completionTimeout f none) s = .next u ∧
        (u.fnr f.val).status = stHostRead ∧ (u.fnr f.val).event.getLsbD evSetup = true ∧ (u.fnr f.val).err.getLsbD errHostRead = true ∧
        u.parts = s.parts ∧ u.ctxs = s.ctxs ∧ u.mem = s.mem) ∧
      (∀ (n : RingId) q k, takeable s n.val = some (q, k) → q.fn = f → ∃ u, exec (.completionTimeout f (some n)) s = .next u ∧ u.mem = s.mem ∧
        (u.sq.find n.val).map (·.cons) = some (q.cons + 1) ∧ (u.fnr f.val).err.getLsbD errHostRead = true ∧
        Safety.Recorded s u n.val (fun c => c.status = stHostRead ∧ c.index = q.cons.setWidth 16))) ∧
  (∀ (s : State) (v : W32) (m : W64) (d : W32), s.link.up = true →
      (s.link.ptmEnable = true → v.getLsbD 0 = true → s.link.ptmOpen = none →
        exec (.clkPtmCtrlRequest v) s = .next { s with link := { s.link with ptmOpen := some (instanceNow s hostPos) } }) ∧
      (s.link.ptmEnable = false ∨ v.getLsbD 0 = false → exec (.clkPtmCtrlRequest v) s = .next s) ∧
      (s.link.ptmEnable = true → exec (.ptmDialogue m d) s = .next { s with link := { s.link with
        ptmHost := m, ptmReck := s.link.ptmOpen.getD (instanceNow s hostPos) + BitVec.ofNat 64 (4 * d.toNat), ptmDelay := d, ptmValid := true
        ptmSeq := s.link.ptmSeq + 1, ptmOpen := none } }) ∧
      (s.link.ptmEnable = true → exec .ptmTimeout s = .next { s with link := { s.link with ptmFailed := true, ptmOpen := none } }) ∧
      (s.link.ptmEnable = false → exec (.ptmDialogue m d) s = .next s ∧ exec .ptmTimeout s = .next s) ∧
      (∃ u, exec .clkReckNowLoRead s = .next u ∧ u = { s with link := { s.link with nowLo := u.link.nowLo, nowHi := u.link.nowHi } } ∧
        u.link.nowHi ++ u.link.nowLo = instanceNow s hostPos))

/-- R280, R281 and R405: the link trains only with PERST_N deasserted and the wire groups done; while it goes down, and on a reset of the physical
function, every function's status-block setting is cleared, every ring is destroyed and every context halts; a virtual function's reset
leaves the others.
The model’s own choices among what this states are those of notes/assumptions/38.md (DEDUCED) and notes/assumptions/61.md (PRESUMED). -/
def Obligations.LinkAndFunctionResetsAct : Prop :=
  ∀ (s : State),
    (∀ w v b, s.life.stageDone10 = true → s.life.perstOn = false → (s.die hostDie).failed = false → min w (hostWidth s.link.lanesOut) ∈ [1, 2, 4, 8, 16] →
      1 ≤ v → v ≤ 7 → ∃ u, exec (.linkTrained w v b) s = .next u ∧
      u.link = { s.link with
        up := true, width := min w (hostWidth s.link.lanesOut), speed := v, flit := b || decide (6 ≤ v), training := false } ∧
      (u.link ≠ s.link → (u.fnr 0).event.getLsbD evLink = true) ∧ u.parts = s.parts ∧ u.ctxs = s.ctxs ∧ u.mem = s.mem) ∧
    (∀ w v b, s.life.perstOn = true ∨ v = 0 ∨ 7 < v ∨ w ∉ [1, 2, 4, 8, 16] ∧ w < hostWidth s.link.lanesOut → exec (.linkTrained w v b) s = .next (settle s s)) ∧
    (s.link.up = true → (∀ p, s.stepOf p = none) → ∃ u, exec .surpriseLinkDown s = .next u ∧ u.link.up = false ∧ u.link.ptmValid = false ∧
      u.link.ptmSeq = s.link.ptmSeq ∧ u.sq = [] ∧ u.cq = [] ∧ u.tq = [] ∧ u.mem = s.mem ∧ u.owners = s.owners ∧ u.marks = s.marks ∧
      u.hostOut = s.hostOut ∧ (∀ f : Fn, (u.fnr f.val).msixOn = false ∧ (u.fnr f.val).vectors = [] ∧ (u.fnr f.val).held = []) ∧
      (∀ f : Fn, (u.fnr f.val).sbLo = 0 ∧ (u.fnr f.val).sbHi = 0 ∧ (u.fnr f.val).bme = (s.fnr f.val).bme ∧ (u.fnr f.val).setupLo = (s.fnr f.val).setupLo) ∧
      (∀ c k, s.ctx c = some k → (u.ctx c).map (·.halted) = some true)) ∧
    (s.link.up = false → exec .surpriseLinkDown s = .next (settle s s)) ∧
    (s.link.up = true → (∀ p, s.stepOf p = none) → ∃ u, exec (.functionLevelReset 0) s = .next u ∧ u.link.up = true ∧ u.sq = [] ∧ u.cq = [] ∧
      u.tq = [] ∧ u.mem = s.mem ∧ (∀ c k, s.ctx c = some k → (u.ctx c).map (·.halted) = some true)) ∧
    (∀ f : Fn, f ≠ 0 → s.link.up = true → (∀ p, s.stepOf p = none) → Tab.wf s.sq → Tab.wf s.cq → Tab.wf s.ctxs →
      ∃ u, exec (.functionLevelReset f) s = .next u ∧
      (∀ n r, s.sq.find n = some r → u.sq.find n = (if r.fn = f then none else some r)) ∧
      (∀ n r, s.cq.find n = some r → u.cq.find n = (if r.fn = f then none else some r)) ∧
      (∀ c k, s.ctx c = some k → k.part.val + 1 = f.val → (u.ctx c).map (·.halted) = some true) ∧
      (∀ c k, s.ctx c = some k → k.part.val + 1 ≠ f.val → u.ctx c = some k) ∧ (u.fnr f.val).sbLo = 0 ∧ (u.fnr f.val).sbHi = 0 ∧ u.mem = s.mem)

/-! ### Submission descriptors (R194 to R196, R202, R264 to R273, R278) -/

/-- R264, R265, R267, R271 and R272: a descriptor that may be taken is read, acts and completes with one record; NOP does nothing, a reserved
type completes with DESC_INVALID, a read of host memory that fails with HOST_READ_ERROR; and one that may not be taken stays.
The model’s own choices among what this states are those of notes/assumptions/29.md (DEDUCED) and notes/assumptions/30.md (DEDUCED). -/
def Obligations.DescriptorsCompleteWithOneRecord : Prop :=
  ∀ (s : State) (n : RingId) (h : DescHdr) (q : Ring) (k : Context), takeable s n.val = some (q, k) → lockedStep s = false →
    (h.read = .ok → ∃ u, exec (.nopDescriptor n h) s = .next u ∧ u.mem = s.mem ∧ u.parts = s.parts ∧ u.seqs = s.seqs ∧
      (u.sq.find n.val).map (fun r => (r.cons, r.begun)) = some (q.cons + 1, none) ∧
      (u.ctx q.ctx.val).map (·.descDone) = some (satAdd k.descDone 1) ∧ (u.ctx q.ctx.val).map (·.halted) = some false ∧
      Safety.Recorded s u n.val (fun c => c.status = 0 ∧ c.type = 0x00 ∧ c.tag = h.tag ∧ c.index = q.cons.setWidth 16 ∧ c.time = dieNow s hostDie)) ∧
    (h.read = .failed → ∃ u, exec (.nopDescriptor n h) s = .next u ∧ (u.fnr q.fn.val).err.getLsbD errHostRead = true ∧ u.mem = s.mem ∧
      Safety.Recorded s u n.val (fun c => c.status = stHostRead ∧ c.index = q.cons.setWidth 16)) ∧
    (∀ ty, h.read = .ok → ∃ u, exec (.descReservedType n h ty) s = .next u ∧ u.mem = s.mem ∧ u.parts = s.parts ∧ u.seqs = s.seqs ∧
      Safety.Recorded s u n.val (fun c => c.status = stDesc ∧ c.type = ty)) ∧
    (∀ (pr : W16) (cnt : W32), h.read = .ok → pr.toNat > 63 → ∃ u, exec (.stepTraining n h pr cnt) s = .next u ∧ u.parts = s.parts ∧
      Safety.Recorded s u n.val (fun c => c.status = stDesc ∧ c.type = 0x01)) ∧
    (k.halted = false ∧ q.cons ≠ q.prod ∧ s.link.up = true ∧ (s.fnr q.fn.val).bme = true) ∧
    (∀ s2 : State, takeable s2 n.val = none → exec (.nopDescriptor n h) s2 = .next (settle s2 s2) ∧
      (∀ pr, exec (.stepDecode n h pr) s2 = .next (settle s2 s2) ∧ exec (.programUnload n h pr) s2 = .next (settle s2 s2)) ∧
      (∀ a, exec (.seqAdmit n h a) s2 = .next (settle s2 s2)) ∧ (∀ a, exec (.seqCancel n h a) s2 = .next (settle s2 s2)))

/-- R155, R197, R203, R268, R269 and R386: a STEP that the Navigator finds alone begins in the partition of its context with its batch, the next step
number and the program named; a training step has COUNT rows and takes no sequence; one whose token rings lack room waits for them, and one
whose step table is not open to its context fails with ACCESS_DENIED.
R384: a difference of the sequence engine's copies as the step forms fails it before its first operation.
The model’s own choices among what this states are those of notes/assumptions/29.md (DEDUCED). -/
def Obligations.StepDescriptorsBeginSteps : Prop :=
  ∀ (s : State) (n : RingId) (h : DescHdr) (q : Ring) (k : Context) (part : Partition) (pr : W16) (cnt : W32),
    takeable s n.val = some (q, k) → h.read = .ok → pr.toNat ≤ 63 → cnt.toNat ≤ 262144 → s.part k.part.val = some part → q.waitsFor = [] →
    mayBegin s part q.ctx k = true → pairKeeps s k = false → k.gang = none → s.pair.formed = false → (k.programs.find pr.toNat).isSome = true →
    (∀ m ∈ ringsWithStep s k.part.val, m = n.val) → Tab.wf s.sq → h.seqCopy = none →
    let read (kind : Byte) (c : W32) : State := { s with sq := s.sq.modify n.val (fun r => { r with step := some ⟨h, kind, pr, c⟩ }) }
    let dec := formBatch q.ctx .decode 0 h.errors (read 0 0)
    let pre := formBatch q.ctx .prefill cnt.toNat h.errors (read 1 cnt)
    let shown (b : Batch) : Bool := (stepTable b.st q.ctx b.rows b.seqs).all (wrOpen b.st q.ctx)
    (∃ u t, exec (.stepTraining n h pr cnt) s = .next u ∧ u.stepOf k.part.val = some t ∧ t.phase = .between ∧ t.kind = .training ∧
      t.program = pr.toNat ∧ t.number = BitVec.ofNat 32 k.begun ∧ t.rowCount = cnt.toNat ∧ t.seqCount = 0 ∧ t.ctx = q.ctx ∧ t.tag = h.tag ∧ t.op = 0 ∧
      t.audit = (k.auditNext || k.begun % s.setting .errAuditInterval == 0) ∧ u.mem = s.mem ∧ u.seqs = s.seqs ∧
      (u.ctx q.ctx.val).map (·.begun) = some (k.begun + 1) ∧ (u.sq.find n.val).map (·.cons) = some (q.cons + 1)) ∧
    (ringsLacking q.ctx dec = [] → shown dec = true → Tab.wf s.seqs →
      ∃ u t, exec (.stepDecode n h pr) s = .next u ∧ u.stepOf k.part.val = some t ∧ t.kind = .decode ∧
        t.rows = dec.rows ∧ t.seqs = dec.seqs ∧ t.rowCount = t.rows.length ∧
        (∀ r ∈ t.rows, ∃ x, s.seqs.find r.slot = some x ∧ x.ctx = q.ctx ∧ x.state = .decode ∧ r.pos = x.length ∧ r.token = x.lastToken)) ∧
    (ringsLacking q.ctx pre = [] → shown pre = true → s.memPoison = [] → h.errors = [] → ∃ u t, exec (.stepPrefill n h pr cnt) s = .next u ∧
      u.stepOf k.part.val = some t ∧ t.kind = .prefill ∧ t.rows = pre.rows ∧ t.rows.length ≤ cnt.toNat) ∧
    (ringsLacking q.ctx dec ≠ [] → ∃ u, exec (.stepDecode n h pr) s = .next u ∧
      (u.sq.find n.val).map (fun r => (r.cons, r.waitsFor)) = some (q.cons, ringsLacking q.ctx dec) ∧ tokenWait u q.ctx.val = true ∧ u.mem = s.mem) ∧
    (ringsLacking q.ctx dec = [] → shown dec = false → (∀ r, s.cq.find q.compRing = some r → mayWrite s r.fn.val = true) →
      ∃ u, exec (.stepDecode n h pr) s = .next u ∧ u.stepOf k.part.val = none ∧ (u.ctx q.ctx.val).map (·.halted) = some true ∧
        Safety.Recorded s u n.val (fun c => c.status = stAccess ∧ c.type = 0x01 ∧ c.op = 0xFFFFFFFF)) ∧
    (∀ x, s.errs.seqCopyOff = false → (∀ r, s.cq.find q.compRing = some r → mayWrite s r.fn.val = true) →
      ∃ u, exec (.stepTraining n { h with seqCopy := some x } pr cnt) s = .next u ∧ u.stepOf k.part.val = none ∧
        (u.ctx q.ctx.val).map (·.halted) = some true ∧ u.seqs = s.seqs ∧
        Safety.Recorded s u n.val (fun c => c.status = stChecksum ∧ c.type = 0x01 ∧ c.op = 0xFFFFFFFF))

/-- R194 to R196, R202, R224, R269 and R270: admission takes the lowest free slot or is refused with its reason; a cancel stops a sequence that is in
no running step; a retire frees one.
The model’s own choices among what this states are those of notes/assumptions/29.md (DEDUCED) and notes/assumptions/33.md (DEDUCED). -/
def Obligations.SequenceDescriptorsAct : Prop :=
  ∀ (s : State) (n : RingId) (h : DescHdr) (q : Ring) (k : Context), takeable s n.val = some (q, k) → h.read = .ok → lockedStep s = false →
    (∀ a : AdmitArgs, a.promptLen ≠ 0 → admitReason s q.ctx k a = 0 → ∃ u slot e, exec (.seqAdmit n h a) s = .next u ∧
      Tab.lowestFree s.seqs 32768 = some slot ∧ u.seqs.find slot = some e ∧ (∀ j, j ≠ slot → u.seqs.find j = s.seqs.find j) ∧
      e.state = .prefill ∧ e.ctx = q.ctx ∧ e.promptLen = a.promptLen.toNat ∧ e.maxLen = a.maxLen.toNat ∧ e.seed = a.seed ∧ e.hostTag = a.hostTag ∧
      e.length = 0 ∧ e.generated = 0 ∧ u.mem = s.mem ∧
      Safety.Recorded s u n.val (fun c => c.status = 0 ∧ c.type = 0x04 ∧ c.result = BitVec.ofNat 32 slot)) ∧
    (∀ a : AdmitArgs, a.promptLen ≠ 0 → admitReason s q.ctx k a ≠ 0 → ∃ u, exec (.seqAdmit n h a) s = .next u ∧ u.seqs = s.seqs ∧
      Safety.Recorded s u n.val (fun c => c.status = stAdmit ∧ c.result = BitVec.ofNat 32 (admitReason s q.ctx k a))) ∧
    (∀ a : AdmitArgs, a.promptLen = 0 → ∃ u, exec (.seqAdmit n h a) s = .next u ∧ u.seqs = s.seqs ∧
      Safety.Recorded s u n.val (fun c => c.status = 0 ∧ c.zero = true)) ∧
    (∀ (slot : W32) (x : Seq), s.seqs.find slot.toNat = some x → x.ctx = q.ctx → x.state = .prefill ∨ x.state = .decode →
      inRunningStep s slot.toNat = false → ∃ u e, exec (.seqCancel n h slot) s = .next u ∧ u.seqs.find slot.toNat = some e ∧
        e.state = .stopped ∧ e.stopReason = 0x03 ∧ e.length = x.length ∧ Safety.Recorded s u n.val (fun c => c.status = 0 ∧ c.type = 0x05)) ∧
    (∀ (slot : W32) (x : Seq), s.seqs.find slot.toNat = some x → x.ctx = q.ctx → inRunningStep s slot.toNat = true →
      x.state = .prefill ∨ x.state = .decode → (∃ u, exec (.seqCancel n h slot) s = .next u ∧ u.seqs.find slot.toNat = some { x with cancel := true }) ∧
      ∃ u, exec (.seqRetire n h slot) s = .next u ∧ u.seqs.find slot.toNat = some { x with retire := true }) ∧
    (∀ (slot : W32) (x : Seq), s.seqs.find slot.toNat = some x → x.ctx = q.ctx → inRunningStep s slot.toNat = false →
      ∃ u, exec (.seqRetire n h slot) s = .next u ∧ u.seqs.find slot.toNat = none ∧ u.mem = s.mem ∧
        Safety.Recorded s u n.val (fun c => c.status = 0 ∧ c.type = 0x06)) ∧
    (∀ slot : W32, (∀ x, s.seqs.find slot.toNat = some x → x.ctx ≠ q.ctx) →
      (∃ u, exec (.seqCancel n h slot) s = .next u ∧ u.seqs = s.seqs ∧ Safety.Recorded s u n.val (fun c => c.status = stSlot)) ∧
      ∃ u, exec (.seqRetire n h slot) s = .next u ∧ u.seqs = s.seqs ∧ Safety.Recorded s u n.val (fun c => c.status = stSlot))

/-- R145, R155, R269, R278 and R417: WRITE changes the bytes it names and no other; READ sends them and changes none; both are refused with nothing moved
where a granule is not open to the context; one that passes a 4 KiB boundary of the shared store goes on piece by piece, and completes with the
last of them; programs are loaded and unloaded.
The model’s own choices among what this states are those of notes/assumptions/14.md (DESIGN CHOICE) and notes/assumptions/36.md (DEDUCED). -/
def Obligations.TransfersAndProgramsAct : Prop :=
  (∀ (s : State) (n : RingId) (q : Ring) (m : Moving) (i : W32), s.sq.find n.val = some q → q.moving = some m → q.begun = some i →
    m.moved < m.length → m.bytes.length = m.length - m.moved → transferBad s q.ctx (m.ss + m.moved) m.piece = none →
    (∀ w ∈ wordsOf (m.ss + m.moved) m.piece, w ∉ s.memPoison) →
    let u := movePiece n.val s
    (m.type = 0x07 → ∀ b, Memory.read u.mem b =
      if m.ss + m.moved ≤ b ∧ b < m.ss + m.moved + m.piece then m.bytes.getD (b - (m.ss + m.moved)) 0 else Memory.read s.mem b) ∧
    (m.type = 0x08 → u.mem = s.mem ∧ (s.link.up = true → (s.fnr q.fn.val).bme = true →
      .data q.fn (m.host + BitVec.ofNat 64 m.moved) ((List.range m.piece).map (fun j => Memory.read s.mem (m.ss + m.moved + j))) ∈ u.hostOut)) ∧
    (m.moved + m.piece < m.length → (m.ss + m.moved + m.piece) % 4096 = 0 ∧
      (u.sq.find n.val).bind (·.moving) = some { m with moved := m.moved + m.piece, bytes := m.bytes.drop m.piece }) ∧
    (m.length ≤ m.moved + m.piece → (u.sq.find n.val).map (fun r => (r.moving, r.begun)) = some (none, none) ∧
      Safety.Recorded s u n.val (fun c => c.status = 0 ∧ c.type = m.type ∧ c.tag = m.tag ∧ c.index = i.setWidth 16 ∧ c.result = BitVec.ofNat 32 m.length))) ∧
  ∀ (s : State) (n : RingId) (h : DescHdr) (q : Ring) (k : Context), takeable s n.val = some (q, k) → h.read = .ok → h.errors = [] → lockedStep s = false →
    (∀ (host : W64) (a : BitVec 36) (l : W64) (bs : List Byte), l ≠ 0 → a.toNat % 4096 + l.toNat ≤ 4096 → bs.length = l.toNat → transferBad s q.ctx a.toNat l.toNat = none →
      (∀ w ∈ wordsOf a.toNat l.toNat, w ∉ s.memPoison) → ∃ u, exec (.write n h host a l bs .ok) s = .next u ∧
        (∀ i, i < bs.length → Memory.read u.mem (a.toNat + i) = bs.getD i 0) ∧
        (∀ b, b < a.toNat ∨ a.toNat + bs.length ≤ b → Memory.read u.mem b = Memory.read s.mem b) ∧ u.dimm = s.dimm ∧ u.seqs = s.seqs ∧
        Safety.Recorded s u n.val (fun c => c.status = 0 ∧ c.type = 0x07 ∧ c.result = BitVec.ofNat 32 l.toNat)) ∧
    (∀ (host : W64) (a : BitVec 36) (l : W64), l ≠ 0 → a.toNat % 4096 + l.toNat ≤ 4096 → transferBad s q.ctx a.toNat l.toNat = none →
      (∀ w ∈ wordsOf a.toNat l.toNat, w ∉ s.memPoison) → ∃ u, exec (.read n h host a l) s = .next u ∧ u.mem = s.mem ∧ u.dimm = s.dimm ∧
        .data q.fn host ((List.range l.toNat).map (fun i => Memory.read s.mem (a.toNat + i))) ∈ u.hostOut ∧
        Safety.Recorded s u n.val (fun c => c.status = 0 ∧ c.type = 0x08 ∧ c.result = BitVec.ofNat 32 l.toNat)) ∧
    (∀ (host : W64) (a : BitVec 36) (l : W64) (bs : List Byte), 4096 < a.toNat % 4096 + l.toNat → l.toNat ≤ segmentBytes → bs.length = l.toNat →
      transferBad s q.ctx a.toNat l.toNat = none → (∀ w ∈ wordsOf a.toNat (4096 - a.toNat % 4096), w ∉ s.memPoison) →
      let edge := a.toNat / 4096 * 4096 + 4096
      (∃ u m, exec (.write n h host a l bs .ok) s = .next u ∧ (u.sq.find n.val).bind (·.moving) = some m ∧
        (m.type, m.tag, m.ss, m.length) = ((0x07 : Byte), h.tag, a.toNat, l.toNat) ∧ m.moved = edge - a.toNat ∧ m.bytes = bs.drop (edge - a.toNat) ∧
        (u.sq.find n.val).map (fun r => (r.cons, r.begun)) = some (q.cons + 1, some q.cons) ∧
        (∀ b, a.toNat ≤ b → b < edge → Memory.read u.mem b = bs.getD (b - a.toNat) 0) ∧
        ∀ b, b < a.toNat ∨ edge ≤ b → Memory.read u.mem b = Memory.read s.mem b) ∧
      ∃ u m, exec (.read n h host a l) s = .next u ∧ (u.sq.find n.val).bind (·.moving) = some m ∧
        (m.type, m.tag, m.host, m.ss, m.length) = ((0x08 : Byte), h.tag, host, a.toNat, l.toNat) ∧ m.moved = edge - a.toNat ∧ u.mem = s.mem ∧
        .data q.fn host ((List.range (edge - a.toNat)).map (fun i => Memory.read s.mem (a.toNat + i))) ∈ u.hostOut) ∧
    (∀ (host : W64) (a : BitVec 36) (l : W64) (bs : List Byte) (st : Byte), l ≠ 0 → l.toNat ≤ segmentBytes →
      transferBad s q.ctx a.toNat l.toNat = some st →
      (∃ u, exec (.write n h host a l bs .ok) s = .next u ∧ u.mem = s.mem ∧ Safety.Recorded s u n.val (fun c => c.status = st)) ∧
      ∃ u, exec (.read n h host a l) s = .next u ∧ u.mem = s.mem ∧ Safety.Recorded s u n.val (fun c => c.status = st)) ∧
    (∀ (pr : W16) (cnt : W32) (host : W64) (bs : List Byte), cnt ≠ 0 → pr.toNat ≤ 63 → cnt.toNat ≤ 65536 → host.toNat % 64 = 0 → handleInUse s q.ctx pr.toNat = false →
      (∀ v, placeProgram q.ctx.val pr.toNat cnt.toNat bs (readEntry n.val q s) = some v → s.pair.formed = false →
        ∃ u g, exec (.programLoad n h pr cnt host bs .ok) s = .next u ∧ (u.ctx q.ctx.val).bind (·.programs.find pr.toNat) = some g ∧ g.count = cnt.toNat ∧
          Safety.Recorded s u n.val (fun c => c.status = 0 ∧ c.type = 0x02)) ∧
      (placeProgram q.ctx.val pr.toNat cnt.toNat bs (readEntry n.val q s) = none →
        ∃ u, exec (.programLoad n h pr cnt host bs .ok) s = .next u ∧ u.mem = s.mem ∧ Safety.Recorded s u n.val (fun c => c.status = stProgram))) ∧
    (∀ pr : W16, pr.toNat ≤ 63 → handleInUse s q.ctx pr.toNat = false → ∃ u, exec (.programUnload n h pr) s = .next u ∧
      (u.ctx q.ctx.val).map (·.programs.find pr.toNat) = some none ∧ u.mem = s.mem ∧ Safety.Recorded s u n.val (fun c => c.status = 0 ∧ c.type = 0x03))

/-! ### Resets below the module, and exchanges (R33, R258, R259, R273, R397, R398, R415 to R424) -/

/-- R258, R417 and R420 to R422: an engine reset needs the physical function and an index in range. A cluster's ends its partition's step with
ABORTED, halts the context and leaves its core stores zero and the shared store alone; a memory die's keeps the DIMM contents when it acknowledges
self-refresh, and loses them otherwise; a Consort die's takes its port down.
R424: a reset waits for a pending exchange, unless one that waits covers it.
R33 and R398: a pending exchange of a retired cluster and its replacement is made once no operation of its partition runs; the sites of the two
logical numbers change places and the shared store keeps its contents at its logical addresses.
The model’s own choices among what this states are those of notes/assumptions/38.md (DEDUCED). -/
def Obligations.EngineResetsAndExchangesAct : Prop :=
  (∀ (s : State) (ix : Byte), s.link.up = true → s.pair.formed = false → s.errs.tests = [] →
      (∀ (q : Partition) (p : PartId) (t : Step) (k : Context), ix.toNat < 100 → partOf s ix.toNat = some p.val → s.part p.val = some q → q.step = some t →
        s.ctx t.ctx.val = some k → k.reset = .none → t.phase ≠ .compared → t.phase ≠ .ended → recordsFree stAborted t s = true → partExchanging s q = false →
        (s.site (s.siteOf ix.toNat)).power = .on → ∃ u, exec (.clusterEngineReset 0 ix []) s = .next u ∧ u.stepOf p.val = none ∧
          (u.ctx t.ctx.val).map (·.halted) = some true ∧ u.mem = s.mem ∧ u.dimm = s.dimm ∧ u.owners = s.owners ∧
          (∀ j l b, (u.coreStore ix.toNat j).byte (linearByte l b) = 0) ∧
          Safety.Recorded s u t.ring.val (fun c => c.status = stAborted ∧ c.type = 0x01 ∧ c.op = abortOp t)) ∧
      (∀ (p : PartId) q fs, ix.toNat < 100 → partOf s ix.toNat = some p.val → s.part p.val = some q → partExchanging s q = true →
        ((∀ j ∈ s.life.resetsWait, resetCovers s j (.clusterEngineReset 0 ix fs) = false ∧ resetCovers s (.clusterEngineReset 0 ix fs) j = false) →
          ∃ u, exec (.clusterEngineReset 0 ix fs) s = .next (settle s u) ∧
            u = { s with life := { s.life with resetsWait := s.life.resetsWait ++ [.clusterEngineReset 0 ix fs] } }) ∧
        ((∃ j ∈ s.life.resetsWait, resetCovers s j (.clusterEngineReset 0 ix fs) = true) → exec (.clusterEngineReset 0 ix fs) s = .next (settle s s)) ∧
        resetCovers s (.partReset 0 p 0x50525354 []) (.clusterEngineReset 0 ix fs) = true) ∧
      (∀ a vs, s.build.exchanges ≠ [] →
        (ix.toNat < 12 → (∀ j ∈ s.life.resetsWait, resetCovers s j (.memoryDieEngineReset 0 ix a vs) = false ∧ resetCovers s (.memoryDieEngineReset 0 ix a vs) j = false) →
          ∃ u, exec (.memoryDieEngineReset 0 ix a vs) s = .next (settle s u) ∧
            u = { s with life := { s.life with resetsWait := s.life.resetsWait ++ [.memoryDieEngineReset 0 ix a vs] } }) ∧
        (ix.toNat < 4 → (∀ j ∈ s.life.resetsWait, resetCovers s j (.consortDieEngineReset 0 ix) = false ∧ resetCovers s (.consortDieEngineReset 0 ix) j = false) →
          ∃ u, exec (.consortDieEngineReset 0 ix) s = .next (settle s u) ∧
            u = { s with life := { s.life with resetsWait := s.life.resetsWait ++ [.consortDieEngineReset 0 ix] } })) ∧
      (∀ (f : Fn) fs a vs, f ≠ 0 ∨ 100 ≤ ix.toNat → exec (.clusterEngineReset f ix fs) s = .next (settle s s) ∧
        exec (.memoryDieEngineReset f ix a vs) s = .next (settle s s) ∧ exec (.consortDieEngineReset f ix) s = .next (settle s s)) ∧
      (ix.toNat < 12 → s.build.exchanges = [] → (∀ p, dimmOutstanding s ix.toNat p = false) →
        (∃ u, exec (.memoryDieEngineReset 0 ix true []) s = .next u ∧ u.dimm = s.dimm ∧ u.chans = s.chans ∧ u.parts = s.parts ∧
          (u.fnr 0).event.getLsbD evStatus = true) ∧
        ∃ u, exec (.memoryDieEngineReset 0 ix false []) s = .next u ∧ u.dimm = s.dimm ∧ ix.toNat ∈ u.dimmWork.asked) ∧
      (∀ die : Fin 12, die.val ∈ s.dimmWork.asked → ∃ u, exec (.selfRefreshAckTimeout die) s = .next u ∧ die.val ∉ u.dimmWork.asked ∧ u.mem = s.mem ∧
        (∀ a, a / 2 ^ 38 ∈ dieChans die.val → Memory.read u.dimm a = 0) ∧
        (∀ a, a / 2 ^ 38 ∉ dieChans die.val → Memory.read u.dimm a = Memory.read s.dimm a)) ∧
      (∀ die : Fin 12, die.val ∉ s.dimmWork.asked → exec (.selfRefreshAckTimeout die) s = .next (settle s s)) ∧
      (ix.toNat < 4 → s.build.exchanges = [] → ∃ u, exec (.consortDieEngineReset 0 ix) s = .next u ∧ (u.port ix.toNat).lanes = 0 ∧ (u.port ix.toNat).down = true ∧
        u.parts = s.parts ∧ u.ctxs = s.ctxs ∧ u.mem = s.mem)) ∧
  (∀ (s : State) (n : Cluster) (e : Exchange), s.build.exchanges.find? (fun x => x.n == n.val) = some e →
      (∀ p, partOf s n.val = some p → partIdle s p = true) → n.val < s.build.map.length → e.m < s.build.map.length → e.m ≠ n.val →
      s.life.resetsWait = [] → ∃ u, exec (.segmentExchange n) s = .next u ∧ u.siteOf n.val = s.siteOf e.m ∧ u.siteOf e.m = s.siteOf n.val ∧
        (∀ j, j ≠ n.val → j ≠ e.m → u.siteOf j = s.siteOf j) ∧ u.mem = s.mem ∧ u.dimm = s.dimm ∧ u.seqs = s.seqs ∧ u.owners = s.owners ∧
        u.clusters.find n.val = s.clusters.find e.m ∧ u.clusters.find e.m = s.clusters.find n.val)

/-- R259, R273, R418, R419, R423 and R424: a partition reset needs its key and its function; it leaves the partition ready with every context's
unread descriptors discarded and its halt cleared; a context reset stops the context's step and its transfers (R417), completes once drained, or leaves it halted; a resume
clears a halt.
The model’s own choices among what this states are those of notes/assumptions/38.md (DEDUCED). -/
def Obligations.PartitionAndContextResetsAct : Prop :=
  ∀ (s : State) (p : PartId) (q : Partition), s.link.up = true → s.pair.formed = false → s.errs.tests = [] → s.part p.val = some q →
    (∀ (f : Fn) v fs, v ≠ 0x50525354 ∨ (f ≠ 0 ∧ f.val ≠ p.val + 1) → exec (.partReset f p v fs) s = .next (settle s s)) ∧
    (q.state = .forming → ∀ fs, exec (.partReset 0 p 0x50525354 fs) s = .next (settle s s)) ∧
    (q.state ≠ .forming → (∀ n, s.stepOf n = none) → partExchanging s q = false → partUnmapped s q = false → Tab.wf s.ctxs → ∃ u, exec (.partReset 0 p 0x50525354 []) s = .next u ∧
      (u.part p.val).map (·.state) = some .ready ∧ u.mem = s.mem ∧ u.dimm = s.dimm ∧
      (∀ c k, s.ctx c = some k → k.part = p → c < 64 → (u.ctx c).map (fun x => (x.halted, x.reset)) = some (false, .none)) ∧
      (∀ n r, s.sq.find n = some r → Tab.wf s.sq → (∃ k, s.ctx r.ctx.val = some k ∧ k.part = p) → (u.sq.find n).map (·.cons) = some r.prod)) ∧
    (q.state ≠ .forming → partExchanging s q = true → ∀ fs,
      ((∃ j ∈ s.life.resetsWait, resetCovers s j (.partReset 0 p 0x50525354 fs) = true) → exec (.partReset 0 p 0x50525354 fs) s = .next (settle s s)) ∧
      ((∀ j ∈ s.life.resetsWait, resetCovers s j (.partReset 0 p 0x50525354 fs) = false) → ∃ u, exec (.partReset 0 p 0x50525354 fs) s = .next (settle s u) ∧
        u = { s with life := { s.life with
          resetsWait := s.life.resetsWait.filter (fun j => !resetCovers s (.partReset 0 p 0x50525354 fs) j) ++ [.partReset 0 p 0x50525354 fs] } })) ∧
    (∀ (c : CtxId) k, s.ctx c.val = some k → k.part = p →
      (∀ v : W32, v.toNat / 256 = 0x435458 → v.toNat % 64 = c.val → k.reset = .none →
        ∃ u, exec (.partCtxReset 0 p v) s = .next u ∧ (u.ctx c.val).map (·.reset) = some .draining ∧ u.mem = s.mem ∧
          (∀ m w, w ∈ (u.mark m).waiters → w.ctx ≠ c) ∧
          (∀ t, runningStep s c.val = some (p.val, t) → q.step = some t → t.phase ≠ .compared → t.phase ≠ .ended →
            u.stepOf p.val = some { t with failed := some (stAborted, abortOp t), fetched := none, held := none })) ∧
      (∀ v : W32, v.toNat / 256 ≠ 0x435458 → exec (.partCtxReset 0 p v) s = .next (settle s s)) ∧
      (k.reset = .draining → partExchanging s q = false → partUnmapped s q = false → runningStep s c.val = none →
        ∃ u, exec (.ctxResetComplete c) s = .next u ∧ (u.ctx c.val).map (fun x => (x.halted, x.reset)) = some (false, .none) ∧
          (Tab.wf s.sq → tokenWait u c.val = false) ∧ u.mem = s.mem ∧
          (∀ n r, s.sq.find n = some r → Tab.wf s.sq → r.ctx = c → (u.sq.find n).map (·.cons) = some r.prod) ∧
          ∀ n r m i, s.sq.find n = some r → r.ctx = c → r.moving = some m → r.begun = some i → Tab.wf s.sq →
            (∀ e ∈ s.sq, e.2.ctx = c → e.2.moving ≠ none → e.1 = n) → (u.sq.find n).map (·.moving) = some none ∧ Safety.Recorded s u n (fun x => x.status = stAborted ∧ x.type = m.type ∧
              x.tag = m.tag ∧ x.index = i.setWidth 16 ∧ x.result = BitVec.ofNat 32 m.moved)) ∧
      (k.reset ≠ .draining → exec (.ctxResetComplete c) s = .next (settle s s)) ∧
      (∀ t, k.reset = .draining → runningStep s c.val = some (p.val, t) → ∃ u, exec (.ctxResetDrainTimeout c) s = .next u ∧
        (u.ctx c.val).map (fun x => (x.halted, x.reset)) = some (true, .undrained) ∧ u.parts = s.parts ∧ u.mem = s.mem) ∧
      (∀ v : W32, v.toNat % 64 = c.val → k.reset = .none → k.halted = true → partUnmapped s q = false →
        (k.waitsFor = false → partExchanging s q = false → ∃ u, exec (.partCtxResume 0 p v) s = .next (settle s u) ∧ u = { s with ctxs := u.ctxs } ∧
          u.ctx c.val = some { k with halted := false, resumeDue := false }) ∧
        (k.waitsFor = true → ∃ u, exec (.partCtxResume 0 p v) s = .next (settle s u) ∧ u = { s with ctxs := u.ctxs } ∧
          u.ctx c.val = some { k with resumeDue := true })) ∧
      (∀ v : W32, v.toNat % 64 = c.val → k.halted = false → exec (.partCtxResume 0 p v) s = .next (settle s s)))

/-! ### Set-up commands (R254, R256, R261, R262, R297 to R306, R321, R437) -/

/-- R256, R261, R262 and R437: a set-up command is refused while another is pending, waits to be read while Bus Master Enable is clear, and
otherwise completes with one status: HOST_READ_ERROR when its block cannot be read, RESOURCE_BUSY before the module is ready, PERMISSION on a
secondary, or what it fails with; none of these changes anything but the function's registers.
The model’s own choices among what this states are those of notes/assumptions/31.md (DEDUCED). -/
def Obligations.SetupCommandsAnswerOnce : Prop :=
  ∀ (s : State) (i : Instr) (h : SetupHdr) (eval : State → SetupEnd), setupEval i = some (h, eval) → partCreateWaits i s = false → s.link.up = true →
    ((s.fnr h.fn.val).pending ≠ none ∨ (s.fnr h.fn.val).unread ≠ none → exec i s = .next (settle s (setErr h.fn.val errSetupBusy s))) ∧
    ((s.fnr h.fn.val).pending = none → (s.fnr h.fn.val).unread = none → (s.fnr h.fn.val).bme = false → ∃ u, exec i s = .next (settle s u) ∧
      u = { s with fns := u.fns } ∧ u.fnr h.fn.val = { s.fnr h.fn.val with unread := some i }) ∧
    ((s.fnr h.fn.val).pending = none → (s.fnr h.fn.val).unread = none → (s.fnr h.fn.val).bme = true →
      (h.read = .failed → ∃ u, exec i s = .next u ∧ Safety.HostSide s u ∧ Safety.Answered u h.fn stHostRead ∧
        (u.fnr h.fn.val).err.getLsbD errHostRead = true) ∧
      (h.read = .ok → s.life.ready = false → ∃ u, exec i s = .next u ∧ Safety.HostSide s u ∧ Safety.Answered u h.fn stBusy) ∧
      (h.read = .ok → s.life.ready = true → noServiceDie s = false → isSecondary s = true →
        ∃ u, exec i s = .next u ∧ Safety.HostSide s u ∧ Safety.Answered u h.fn stPermit) ∧
      (h.read = .ok → s.life.ready = true → noServiceDie s = false → isSecondary s = false → ∀ st, eval s = .fail st →
        ∃ u, exec i s = .next u ∧ Safety.HostSide s u ∧ Safety.Answered u h.fn st)) ∧
    (∀ (code op : Byte), (i = .setupReserved h code ∨ i = .markMapReservedOp h op) → Safety.MailboxFree s h.fn → h.read = .ok →
      ∃ u, exec i s = .next u ∧ Safety.HostSide s u ∧ Safety.Answered u h.fn stConfig)

/-- R32, R261, R262 and R354: a partition forms from free placeable groups, is ready once its sites are in service, and is destroyed only empty.
The model’s own choices among what this states are those of notes/assumptions/31.md (DEDUCED). -/
def Obligations.PartitionsAreMadeAndDestroyed : Prop :=
  ∀ (s : State) (p : PartId) (g : Byte), Safety.MailboxFree s 0 → s.pair.formed = false → s.update.phase = .idle →
    (g ≠ 0 → s.part p.val = none → (∀ x ∈ groupList g, groupPlaceable s x = true ∧ ∀ e ∈ s.parts, x ∉ e.2.groups) → s.life.power = .on →
      ∃ u, exec (.partCreate ⟨0, .ok⟩ (BitVec.ofNat 8 p.val) g) s = .next u ∧
        (∃ q, u.part p.val = some q ∧ q.groups = groupList g ∧ q.state = .forming ∧ q.step = none) ∧
        (u.fnr 0).pending = some (.partCreate p) ∧ (∀ j, j ≠ p.val → u.part j = s.part j) ∧ u.mem = s.mem ∧ u.owners = s.owners) ∧
    (g ≠ 0 → s.part p.val ≠ none → ∃ u, exec (.partCreate ⟨0, .ok⟩ (BitVec.ofNat 8 p.val) g) s = .next u ∧ Safety.HostSide s u ∧ Safety.Answered u 0 stBusy) ∧
    (∀ s2 q, s2.part p.val = some q → partFormed s2 q = true → partUnmapped s2 q = false → (s2.fnr 0).pending = some (.partCreate p) → s2.pair.formed = false →
      ∃ u, exec (.partCreateDone p) s2 = .next u ∧ u.part p.val = some { q with state := .ready } ∧ Safety.Answered u 0 stDone ∧ u.mem = s2.mem) ∧
    (∀ s2 q, s2.part p.val = some q → partFormed s2 q = false → q.state ≠ .forming ∨ partUnmapped s2 q = false →
      exec (.partCreateDone p) s2 = .next (settle s2 s2)) ∧
    (∀ s2 q, s2.part p.val = some q → q.state = .forming → partUnmapped s2 q = true → (s2.fnr 0).pending = some (.partCreate p) → Tab.wf s2.parts →
      ∃ u, exec (.partCreateDone p) s2 = .next u ∧ u.part p.val = none ∧ (∀ j, j ≠ p.val → u.part j = s2.part j) ∧ Safety.Answered u 0 stBusy ∧ u.mem = s2.mem) ∧
    (partExists s p.val = true → partHolds s p.val = false → ∃ u, exec (.partDestroy ⟨0, .ok⟩ (BitVec.ofNat 8 p.val)) s = .next u ∧ u.part p.val = none ∧
      (∀ j, j ≠ p.val → u.part j = s.part j) ∧ Safety.Answered u 0 stDone ∧ u.mem = s.mem ∧ u.ctxs = s.ctxs) ∧
    (partExists s p.val = true → partHolds s p.val = true →
      ∃ u, exec (.partDestroy ⟨0, .ok⟩ (BitVec.ofNat 8 p.val)) s = .next u ∧ Safety.HostSide s u ∧ Safety.Answered u 0 stBusy) ∧
    (∀ f : Fn, f ≠ 0 → Safety.MailboxFree s f → ∃ u, exec (.partCreate ⟨f, .ok⟩ (BitVec.ofNat 8 p.val) g) s = .next u ∧ Safety.HostSide s u ∧
      Safety.Answered u f stPermit)

/-- R157, R195, R262, R298, R300 and R515: contexts are made, configured and destroyed; the DEBUG bit is set at creation alone.
The model’s own choices among what this states are those of notes/assumptions/31.md (DEDUCED). -/
def Obligations.ContextsAreMadeConfiguredAndDestroyed : Prop :=
  ∀ (s : State) (c : CtxId) (p : PartId) (fl : Byte) (quota : W32), Safety.MailboxFree s 0 → s.pair.formed = false →
    (partExists s p.val = true → s.ctx c.val = none → (fl.getLsbD 0 = true → quota ≠ 0 ∧ quota.toNat ≤ 32768) →
      ∃ u k, exec (.ctxCreate ⟨0, .ok⟩ (BitVec.ofNat 8 c.val) (BitVec.ofNat 8 p.val) fl quota) s = .next u ∧ u.ctx c.val = some k ∧ k.part = p ∧
        k.usesSeq = fl.getLsbD 0 ∧ k.debug = fl.getLsbD 1 ∧ k.quota = (if fl.getLsbD 0 then quota.toNat else 0) ∧ k.created = serviceNow s ∧
        k.halted = false ∧ k.kv = none ∧ k.programs = [] ∧ k.vmarks = [] ∧ k.gang = none ∧ k.begun = 0 ∧
        (∀ j, j ≠ c.val → u.ctx j = s.ctx j) ∧ Safety.Answered u 0 stDone ∧ u.mem = s.mem ∧ u.owners = s.owners) ∧
    (∀ k, s.ctx c.val = some k → partExists s p.val = true → (fl.getLsbD 0 = true → quota ≠ 0 ∧ quota.toNat ≤ 32768) →
      ∃ u, exec (.ctxCreate ⟨0, .ok⟩ (BitVec.ofNat 8 c.val) (BitVec.ofNat 8 p.val) fl quota) s = .next u ∧ Safety.HostSide s u ∧ Safety.Answered u 0 stBusy) ∧
    (∀ k, s.ctx c.val = some k → (∀ n r, (n, r) ∈ s.sq → r.ctx = c → r.cons = r.prod ∧ r.begun = none) →
      ∃ u, exec (.ctxDestroy ⟨0, .ok⟩ (BitVec.ofNat 8 c.val)) s = .next u ∧ u.ctx c.val = none ∧ Safety.Answered u 0 stDone ∧ u.mem = s.mem ∧
        (∀ n r, (n, r) ∈ u.sq ∨ (n, r) ∈ u.cq ∨ (n, r) ∈ u.tq → r.ctx ≠ c) ∧ (∀ n q, (n, q) ∈ u.seqs → q.ctx ≠ c) ∧
        (∀ g, s.owner g = BitVec.ofNat 8 c.val → u.owner g = 0x41) ∧ (∀ g, s.owner g ≠ BitVec.ofNat 8 c.val → u.owner g = s.owner g) ∧
        (∀ m w, w ∈ (u.mark m).waiters → w.ctx ≠ c)) ∧
    (∀ k n r, s.ctx c.val = some k → (n, r) ∈ s.sq → r.ctx = c → r.begun ≠ none →
      ∃ u, exec (.ctxDestroy ⟨0, .ok⟩ (BitVec.ofNat 8 c.val)) s = .next u ∧ Safety.HostSide s u ∧ Safety.Answered u 0 stBusy) ∧
    (∀ k (b : CtxConfigBlock), s.ctx c.val = some k → b.context = BitVec.ofNat 8 c.val → b.sections.getLsbD 0 = false →
      (b.sections.getLsbD 2 = true → auditBad b = false) → ∃ u v, exec (.ctxConfig ⟨0, .ok⟩ b) s = .next u ∧ u.ctx c.val = some v ∧
        v.kv = k.kv ∧ v.pool = k.pool ∧ v.debug = k.debug ∧ (b.sections.getLsbD 1 = true → v.stopSets = b.stopSets.take 16) ∧
        (b.sections.getLsbD 1 = false → v.stopSets = k.stopSets) ∧ (b.sections.getLsbD 2 = true → v.audit.rate = b.auditRate.toNat ∧ v.audit.window = b.auditWindow.toNat) ∧
        (b.sections.getLsbD 2 = false → v.audit = k.audit) ∧ Safety.Answered u 0 stDone) ∧
    (∀ k (b : CtxConfigBlock) pool, s.ctx c.val = some k → b.context = BitVec.ofNat 8 c.val → b.sections.getLsbD 0 = true → kvBad s c k b = false →
      (b.sections.getLsbD 2 = true → auditBad b = false) → (∀ n q, (n, q) ∈ s.seqs → q.ctx ≠ c) → assignPool s (kvOf b).blocks = some pool →
      ∃ u v, exec (.ctxConfig ⟨0, .ok⟩ b) s = .next u ∧ u.ctx c.val = some v ∧ v.kv = some (kvOf b) ∧ v.pool = pool ∧ v.used = [] ∧
        (∀ e ∈ k.pool, (c.val, e.2) ∈ u.dimmWork.fenced) ∧ Safety.Answered u 0 stDone)

/-- R154, R157 and R262: granules are granted when free, waited for when fenced, refused when owned, and fenced when returned.
R262, R263 and R281: rings are created empty, for a context within reach, and destroyed only when nothing needs them.
The model’s own choices among what this states are those of notes/assumptions/31.md (DEDUCED). -/
def Obligations.GranulesAndRingsAreMadeAndReturned : Prop :=
  (∀ (s : State) (c : CtxId) (k : Context) (gs : List W16), Safety.MailboxFree s 0 → s.pair.formed = false → s.ctx c.val = some k → gs.length ≤ 2040 →
      ((∀ g ∈ gs, g.toNat < 24576 ∧ s.owner g.toNat = 0x40) → ∃ u, exec (.granuleGrant ⟨0, .ok⟩ (BitVec.ofNat 8 c.val) gs) s = .next u ∧
        (∀ g ∈ gs, u.owner g.toNat = BitVec.ofNat 8 c.val) ∧ (∀ n, (∀ g ∈ gs, g.toNat ≠ n) → u.owner n = s.owner n) ∧
        Safety.Answered u 0 stDone ∧ u.mem = s.mem ∧ u.ctxs = s.ctxs) ∧
      ((∀ g ∈ gs, g.toNat < 24576 ∧ (s.owner g.toNat = 0x40 ∨ s.owner g.toNat = 0x41)) → (∃ g ∈ gs, s.owner g.toNat = 0x41) →
        ∃ u, exec (.granuleGrant ⟨0, .ok⟩ (BitVec.ofNat 8 c.val) gs) s = .next u ∧ u.owners = s.owners ∧
          (u.fnr 0).pending = some (.grant c (gs.map (·.toNat)))) ∧
      ((∀ g ∈ gs, g.toNat < 24576) → (∃ g ∈ gs, (s.owner g.toNat).toNat < 64) → (∀ g ∈ gs, s.owner g.toNat ≠ 0x42 ∧ s.owner g.toNat ≠ 0x43) →
        ∃ u, exec (.granuleGrant ⟨0, .ok⟩ (BitVec.ofNat 8 c.val) gs) s = .next u ∧ Safety.HostSide s u ∧ Safety.Answered u 0 stBusy) ∧
      (∀ (s2 : State) l, (s2.fnr 0).pending = some (.grant c l) → s2.pair.formed = false → (∀ n ∈ l, n < 24576 ∧ s2.owner n = 0x40) →
        ∃ u, exec (.granuleGrantResume 0) s2 = .next u ∧ (∀ n ∈ l, u.owner n = BitVec.ofNat 8 c.val) ∧ Safety.Answered u 0 stDone) ∧
      (∀ (s2 : State) l, (s2.fnr 0).pending = some (.grant c l) → (∀ n ∈ l, n < 24576 ∧ (s2.owner n = 0x40 ∨ s2.owner n = 0x41)) →
        (∃ n ∈ l, s2.owner n = 0x41) → exec (.granuleGrantResume 0) s2 = .next (settle s2 s2)) ∧
      (gs ≠ [] → (∀ g ∈ gs, g.toNat < 24576 ∧ s.owner g.toNat = BitVec.ofNat 8 c.val ∧ holdsTable k g.toNat = false) →
        ∃ u, exec (.granuleReturn ⟨0, .ok⟩ (BitVec.ofNat 8 c.val) gs) s = .next u ∧ (∀ g ∈ gs, u.owner g.toNat = 0x41) ∧
          (∀ n, (∀ g ∈ gs, g.toNat ≠ n) → u.owner n = s.owner n) ∧ (∃ r ∈ u.scrubs, r.ctx = c ∧ r.granules = (gs.map (·.toNat)).eraseDups) ∧
          Safety.Answered u 0 stDone ∧ u.mem = s.mem)) ∧
  (∀ (s : State) (b : RingBlock) (c : CtxId) (k : Context) (n : Byte), Safety.MailboxFree s 0 → s.ctx c.val = some k →
      (b.context = BitVec.ofNat 8 c.val → 6 ≤ b.sizeLog2.toNat → b.sizeLog2.toNat ≤ 16 → (b.vector = 0xFFFF ∨ b.vector.toNat < 2048) →
        b.base.toNat % 4096 = 0 → b.wbAddr.toNat % 64 = 0 →
        (b.kind = 0 → (∃ r, s.cq.find b.compRing.toNat = some r ∧ r.ctx = c) → s.sq.find b.ring.toNat = none →
          ∃ u r, exec (.ringCreate ⟨0, .ok⟩ b) s = .next u ∧ u.sq.find b.ring.toNat = some r ∧ r.ctx = c ∧ r.fn = 0 ∧ r.log2 = b.sizeLog2.toNat ∧
            r.base = b.base ∧ r.wb = b.wbAddr ∧ r.compRing = b.compRing.toNat ∧ r.prod = 0 ∧ r.cons = 0 ∧ r.begun = none ∧ u.cq = s.cq ∧ u.tq = s.tq ∧
            Safety.Answered u 0 stDone) ∧
        (b.kind = 1 → b.coalesceUs.toNat ≤ 1000 → s.cq.find b.ring.toNat = none → ∃ u r, exec (.ringCreate ⟨0, .ok⟩ b) s = .next u ∧
          u.cq.find b.ring.toNat = some r ∧ r.ctx = c ∧ r.vector = (if b.vector = 0xFFFF then none else some b.vector.toNat) ∧
          r.coalCount = b.coalesceCount.toNat ∧ r.coalUs = b.coalesceUs.toNat ∧ r.prod = 0 ∧ r.cons = 0 ∧ r.reserved = 0 ∧ u.sq = s.sq ∧
          Safety.Answered u 0 stDone) ∧
        (b.kind = 2 → b.coalesceUs.toNat ≤ 1000 → s.tq.find b.ring.toNat = none → s.heldRecs = [] → s.seqs = [] → ∃ u r,
          exec (.ringCreate ⟨0, .ok⟩ b) s = .next u ∧ u.tq.find b.ring.toNat = some r ∧ r.ctx = c ∧ r.prod = 0 ∧ r.cons = 0 ∧ u.cq = s.cq ∧
          Safety.Answered u 0 stDone)) ∧
      (∀ r, s.sq.find n.toNat = some r → r.cons = r.prod → r.begun = none → ∃ u, exec (.ringDestroy ⟨0, .ok⟩ 0 n) s = .next u ∧
        u.sq.find n.toNat = none ∧ u.cq = s.cq ∧ u.tq = s.tq ∧ Safety.Answered u 0 stDone) ∧
      (∀ r, s.sq.find n.toNat = some r → r.cons ≠ r.prod → ∃ u, exec (.ringDestroy ⟨0, .ok⟩ 0 n) s = .next u ∧ Safety.HostSide s u ∧
        Safety.Answered u 0 stBusy) ∧
      (∀ r, s.cq.find n.toNat = some r → (∃ e ∈ s.sq, e.2.compRing = n.toNat) → ∃ u, exec (.ringDestroy ⟨0, .ok⟩ 1 n) s = .next u ∧ Safety.HostSide s u ∧
        Safety.Answered u 0 stBusy) ∧
      (s.tq.find n.toNat = none → ∃ u, exec (.ringDestroy ⟨0, .ok⟩ 2 n) s = .next u ∧ Safety.HostSide s u ∧ Safety.Answered u 0 stConfig))

/-- R285, R297 to R299, R302 to R306: the operations of MARK_MAP; a host's signal waits while routes change.
R384: one that meets an uncorrectable error of the mark has no effect, and fails.
The model’s own choices among what this states are those of notes/assumptions/31.md (DEDUCED) and notes/assumptions/35.md (DEDUCED). -/
def Obligations.MarkMapOperationsAct : Prop :=
  ∀ (s : State) (c : CtxId) (k : Context) (v : W16), Safety.MailboxFree s 0 → s.pair.formed = false → s.ctx c.val = some k → v.toNat ≤ 2047 →
    ∀ block : W64, block = ((s.fnr 0).setupHi.setWidth 64 <<< 32) + (s.fnr 0).setupLo.setWidth 64 + 0x40 →
    (∀ (kind : Byte) (target value period : W32) n, createBad kind target period = false → k.vmarks.find v.toNat = none → freeMark s k.part.val = some n →
      n < 8192 → ∃ u m, exec (.markCreate ⟨0, .ok⟩ (BitVec.ofNat 8 c.val) v kind target value period) s = .next u ∧
        (u.ctx c.val).bind (·.vmarks.find v.toNat) = some m ∧ m.val = n ∧ (u.mark n).value = (if kind = 0 then value else 0) ∧
        (u.mark n).target = (if kind = 1 then target else 0) ∧ (u.mark n).count = 0 ∧ (u.mark n).waiters = [] ∧ (u.mark n).last.source = 0xFE ∧
        .result 0 block (leBytes 2 n) ∈ u.hostOut ∧ Safety.Answered u 0 stDone) ∧
    (∀ (m : MarkId) (o : CtxId) (ok : Context) (w : W16), s.ctx o.val = some ok → ok.vmarks.find w.toNat = some m → k.vmarks.find v.toNat = none →
      ∃ u, exec (.markShare ⟨0, .ok⟩ (BitVec.ofNat 8 c.val) v (BitVec.ofNat 8 o.val) w) s = .next u ∧
        (u.ctx c.val).bind (·.vmarks.find v.toNat) = some m ∧ u.marks = s.marks ∧ .result 0 block (leBytes 2 m.val) ∈ u.hostOut ∧ Safety.Answered u 0 stDone) ∧
    (∀ m : MarkId, k.vmarks.find v.toNat = some m →
      ((∀ w ∈ (s.mark m.val).waiters, w.ctx ≠ c) → c ∉ (s.mark m.val).members → ∃ u, exec (.markUnmap ⟨0, .ok⟩ (BitVec.ofNat 8 c.val) v) s = .next u ∧
        (u.ctx c.val).map (·.vmarks.find v.toNat) = some none ∧ Safety.Answered u 0 stDone ∧ (∀ j, j ≠ m.val → u.mark j = s.mark j)) ∧
      (c ∈ (s.mark m.val).members → ∃ u, exec (.markUnmap ⟨0, .ok⟩ (BitVec.ofNat 8 c.val) v) s = .next u ∧ Safety.HostSide s u ∧
        Safety.Answered u 0 stBusy) ∧
      (∀ value e, (s.mark m.val).kind = .counter → (s.mark m.val).waiters = [] → s.wafer.stopped = false → (s.mark m.val).bad = false → e ≠ some .uncorrectable →
        ∃ u, exec (.markHostSignal ⟨0, .ok⟩ (BitVec.ofNat 8 c.val) v 0 value e) s = .next u ∧ Safety.Answered u 0 stDone ∧
          (u.mark m.val).value = (s.mark m.val).value + value ∧ (u.mark m.val).last.source = 0xFE) ∧
      (∀ value e, (s.mark m.val).kind = .counter → s.wafer.stopped = true → ∃ u,
        exec (.markHostSignal ⟨0, .ok⟩ (BitVec.ofNat 8 c.val) v 0 value e) s = .next (settle s u) ∧ u = { s with fns := u.fns } ∧
          (u.fnr 0).pending = some (.signal (BitVec.ofNat 8 c.val) v 0 value)) ∧
      (∀ value e, (s.mark m.val).bad = true ∨ e = some .uncorrectable → (∀ j, runningStep s j = none) →
        ((s.mark m.val).kind = .counter → s.wafer.stopped = false → ∃ u, exec (.markHostSignal ⟨0, .ok⟩ (BitVec.ofNat 8 c.val) v 0 value e) s = .next u ∧
          Safety.Answered u 0 stMemory ∧ u.mark m.val = { s.mark m.val with bad := true } ∧ u.mem = s.mem ∧ u.ctxs = s.ctxs) ∧
        ∃ u, exec (.markInspect ⟨0, .ok⟩ (BitVec.ofNat 8 c.val) v e) s = .next u ∧ Safety.Answered u 0 stMemory ∧
          u.mark m.val = { s.mark m.val with bad := true } ∧ u.mem = s.mem ∧ u.ctxs = s.ctxs) ∧
      (∀ e, (s.mark m.val).bad = false → e ≠ some .uncorrectable → ∃ u, exec (.markInspect ⟨0, .ok⟩ (BitVec.ofNat 8 c.val) v e) s = .next u ∧ Safety.HostSide s u ∧ Safety.Answered u 0 stDone ∧
        .result 0 block (inspection s 0 m.val) ∈ u.hostOut) ∧
      ((s.mark m.val).kind = .gang → (∀ x ∈ (s.mark m.val).members, ∀ y, s.ctx x.val = some y → y.part ≠ k.part) → k.gang = none →
        ∃ u, exec (.gangJoin ⟨0, .ok⟩ (BitVec.ofNat 8 c.val) v) s = .next u ∧ (u.ctx c.val).map (·.gang) = some (some m) ∧
          (u.mark m.val).members = (s.mark m.val).members ++ [c] ∧ (u.mark m.val).target = (s.mark m.val).target + 1 ∧ Safety.Answered u 0 stDone) ∧
      (c ∈ (s.mark m.val).members → runningStep s c.val = none → (s.mark m.val).count.toNat < (s.mark m.val).target.toNat - 1 →
        (s.mark m.val).arrived.contains c = false → ∃ u, exec (.gangLeave ⟨0, .ok⟩ (BitVec.ofNat 8 c.val) v) s = .next u ∧
          c ∉ (u.mark m.val).members ∧ (u.mark m.val).target = (s.mark m.val).target - 1 ∧ (u.mark m.val).count = (s.mark m.val).count ∧
          (u.ctx c.val).map (·.gang) = some none ∧ Safety.Answered u 0 stDone)) ∧
    (∀ ms : W32, ms ≠ 0 → ms.toNat ≤ 60000 → ∃ u, exec (.lookoutSet ⟨0, .ok⟩ (BitVec.ofNat 8 c.val) v ms) s = .next u ∧
      u.ctx c.val = some { k with lookoutMs := ms.toNat } ∧ Safety.Answered u 0 stDone) ∧
    (∀ ms : W32, ms = 0 ∨ 60000 < ms.toNat → ∃ u, exec (.lookoutSet ⟨0, .ok⟩ (BitVec.ofNat 8 c.val) v ms) s = .next u ∧ Safety.HostSide s u ∧
      Safety.Answered u 0 stConfig) ∧
    (∀ r, k.lookout = some r → ∃ u, exec (.lookoutRead ⟨0, .ok⟩ (BitVec.ofNat 8 c.val) v) s = .next u ∧
      u.ctx c.val = some { k with lookout := none, overdue := false } ∧ .result 0 block r.bytes ∈ u.hostOut ∧ Safety.Answered u 0 stDone) ∧
    (k.lookout = none → ∃ u, exec (.lookoutRead ⟨0, .ok⟩ (BitVec.ofNat 8 c.val) v) s = .next u ∧ Safety.HostSide s u ∧ .result 0 block [0xFF] ∈ u.hostOut ∧
      Safety.Answered u 0 stDone)

/-! ### The fabric and DIMM memory (R282 to R285, R310 to R326) -/

/-- R283 to R286: a flit that is acknowledged leaves the replay buffer and returns its credit; a retry that fails is counted for its flit, and the
sixteenth in a row takes the link out of service, stops the routers' local ports until new tables are installed, and strands the messages whose route
uses the link; a change of routes installs tables for the links that are left, combines again what has arrived at barriers, and lets the stranded
messages go on.
R310 to R316: polls of a channel's temperatures, its patrol scrub and its retraining.
R320 to R325: a channel leaves service by copying its pages, one at a time, and stops when none can be placed any more; old places are released;
and fenced blocks of a channel with commands are zeroed before they are unassigned.
The model’s own choices among what this states are those of notes/assumptions/23.md (DEDUCED) and notes/assumptions/24.md (DESIGN CHOICE) and
notes/assumptions/41.md (DESIGN CHOICE). -/
def Obligations.LinksAndChannelsFailAndLeave : Prop :=
  (∀ (s : State) (a : Pos) (south back : Bool) (vc : Fin 4) (x y : Nat), x = (if back then (if south then a.val + 12 else a.val + 1) else a.val) →
      y = (if back then a.val else (if south then a.val + 12 else a.val + 1)) → (a.val, south) ∈ linksAt a.val → (a.val, south) ∉ s.wafer.linksOut →
      ∀ nth, let d := s.wafer.dirs.getD (dirKey x y) {}
      ((∀ p t, s.stepOf p = some t → t.portHeld = []) → ∃ u, exec (.flitRetry a south back vc nth .acknowledged) s = .next (settle s u) ∧
        u = { s with wafer := { s.wafer with dirs := u.wafer.dirs } } ∧ (∀ k, k ≠ dirKey x y → u.wafer.dirs.getD k {} = s.wafer.dirs.getD k {}) ∧
        u.wafer.dirs.getD (dirKey x y) {} = (match d.unacknowledged vc nth with
          | some f => { d with replay := d.replay.filter (· ≠ f), credits := d.credits.modify vc.val (· + 1) }
          | none => d)) ∧
      (∀ r, (d.unacknowledged vc nth).elim 0 (·.retries) + 1 < 16 → ∃ u, exec (.flitRetry a south back vc nth (.failed r)) s = .next (settle s u) ∧
        u = { s with wafer := { s.wafer with dirs := u.wafer.dirs } } ∧
        (∀ k, k ≠ dirKey x y → u.wafer.dirs.getD k {} = s.wafer.dirs.getD k {}) ∧
        u.wafer.dirs.getD (dirKey x y) {} = (match d.unacknowledged vc nth with
          | some f => { d with replay := d.replay.map (fun x => if x = f then { x with retries := x.retries + 1 } else x) }
          | none => if d.credits.getD vc.val 0 = 0 then d
            else { seq := d.seq + 1, replay := d.replay ++ [⟨vc, d.seq, 1⟩], credits := d.credits.modify vc.val (· - 1) })) ∧
      (∀ r, 16 ≤ (d.unacknowledged vc nth).elim 0 (·.retries) + 1 → ∃ u, exec (.flitRetry a south back vc nth (.failed r)) s = .next u ∧
        u.wafer.linksOut = s.wafer.linksOut ++ [(a.val, south)] ∧ u.wafer.stopped = true ∧ u.mem = s.mem ∧ u.parts = s.parts ∧ u.marks = s.marks ∧
        (∀ m ∈ s.net.fabric, crosses (m.path s) x y = true ∨ crosses (m.path s) y x = true → m ∈ u.net.stuck) ∧
        (r = false → u.net.fabric = s.net.fabric.filter (fun m => !crosses (m.path s) x y && !crosses (m.path s) y x)) ∧
        (s.mgmt.active ≠ none → ∃ t ∈ u.errs.tests, t.cls = 0x0B ∧ t.unit = linkUnit a.val south))) ∧
  (∀ (s : State) (a : Pos) (south back : Bool) (vc : Fin 4) (nth : Nat) (o : FlitOutcome), (a.val, south) ∉ linksAt a.val ∨ (a.val, south) ∈ s.wafer.linksOut →
      exec (.flitRetry a south back vc nth o) s = .next (settle s s)) ∧
  (∀ s : State, (s.wafer.stopped = true ∨ s.wafer.routesFor ≠ s.wafer.linksOut → ∃ u, exec .routeChange s = .next u ∧
        u.wafer.routesFor = s.wafer.linksOut ∧ u.wafer.linksOut = s.wafer.linksOut ∧ u.wafer.stopped = false ∧ u.net.stuck = [] ∧
        ((∀ p q t, s.part p = some q → q.step = some t → t.portHeld = [] ∧ t.phase ≠ .gangWait) → (∀ e ∈ s.marks, e.2.kind ≠ .gang) →
          (∀ f c v m x, (s.fnr f).pending ≠ some (.signal c v m x)) →
          (Tab.wf s.parts → ∀ p q t, s.part p = some q → q.step = some t → u.stepOf p = some { t with
            combined := ((arrivalTree u p q).flatMap (fun x => x.2.dropLast)).eraseDups.filter
              (fun a => (arrivalTree u p q).all (fun x => !x.2.contains a || t.arrived.contains x.1)) }) ∧
          u.marks = s.marks ∧ u.mem = s.mem ∧ u.dimm = s.dimm ∧ (∀ m ∈ s.net.stuck, m.fresh s = true → m ∈ u.net.fabric) ∧
          (∀ m ∈ s.net.fabric, m ∈ u.net.fabric))) ∧
      (s.wafer.stopped = false → s.wafer.routesFor = s.wafer.linksOut → exec .routeChange s = .next (settle s s))) ∧
  (∀ (s : State) (ch : Chan),
      (∀ t0 t1 : Int, (s.chan ch.val).state = .takingOut ∨ (s.chan ch.val).state = .inService ∧
          (95 < t0 → ∀ h, (s.chan ch.val).hotSince.1 = some h → s.since h < msTicks 1000) ∧
          (95 < t1 → ∀ h, (s.chan ch.val).hotSince.2 = some h → s.since h < msTicks 1000) →
        ∃ u, exec (.dimmTempPoll ch t0 t1) s = .next (settle s u) ∧ u = { s with chans := u.chans } ∧
          u.chan ch.val = { s.chan ch.val with tempMax := max t0 t1, doubled := decide (85 < max t0 t1)
                                               hotSince := (if 95 < t0 then some ((s.chan ch.val).hotSince.1.getD s.now) else none,
                                                            if 95 < t1 then some ((s.chan ch.val).hotSince.2.getD s.now) else none) }) ∧
      (∀ (t0 t1 : Int) (h : W64), (s.chan ch.val).state = .inService → msTicks 1000 ≤ s.since h →
          (95 < t0 ∧ (s.chan ch.val).hotSince.1 = some h) ∨ (95 < t1 ∧ (s.chan ch.val).hotSince.2 = some h) → ch.val ∉ s.dimmWork.requests →
        ∃ u, exec (.dimmTempPoll ch t0 t1) s = .next u ∧ u.dimmWork.requests = s.dimmWork.requests ++ [ch.val] ∧ ch.val ∈ u.dimmWork.forced ∧ (u.chan ch.val).heatOut = true ∧
          (u.chan ch.val).state = .inService ∧ u.dimm = s.dimm ∧ u.ctxs = s.ctxs) ∧
      (∀ a f, (s.chan ch.val).state = .inService ∨ (s.chan ch.val).state = .takingOut → burstRead (s.chan ch.val).marks f = .clean →
        exec (.dimmPatrolScrub ch a f) s = .next (settle s s)) ∧
      (∀ a f ds, (s.chan ch.val).state = .inService ∨ (s.chan ch.val).state = .takingOut → burstRead (s.chan ch.val).marks f = .corrected ds →
        ∃ u, exec (.dimmPatrolScrub ch a f) s = .next u ∧ (u.chan ch.val).ce = satAdd (s.chan ch.val).ce 1 ∧ u.dimm = s.dimm ∧ u.seqs = s.seqs ∧
          u.dimmBad = s.dimmBad) ∧
      (∀ a f, (s.chan ch.val).state = .inService ∨ (s.chan ch.val).state = .takingOut → burstRead (s.chan ch.val).marks f = .uncorrectable →
        ∃ u, exec (.dimmPatrolScrub ch a f) s = .next u ∧ (u.chan ch.val).ue = satAdd (s.chan ch.val).ue 1 ∧
          (ch.val * 2 ^ 38 + a % 2 ^ 38) / 64 ∈ u.dimmBad ∧ u.mem = s.mem ∧
          (s.mgmt.active ≠ none → ∃ t ∈ u.errs.tests, t.cls = 0x09 ∧ t.unit = chanUnit ch.val) ∧
          (pageAt s (ch.val * 2 ^ 38 + a % 2 ^ 38) = none → u.dimm = s.dimm ∧ u.seqs = s.seqs ∧ u.ctxs = s.ctxs ∧ u.parts = s.parts)) ∧
      (∀ c, s.build.trainMode = 0 → (s.chan ch.val).state = .inService → retrainDue s (s.chan ch.val) c = true →
        (∀ d ∈ dieChans (ch.val / 4), (s.chan d).retrain = none) →
        ∃ u, exec (.channelRetrain ch c) s = .next u ∧ u = { s with chans := u.chans } ∧ u.chan ch.val = { s.chan ch.val with retrain := some c }) ∧
      (∀ c, s.build.trainMode ≠ 0 ∨ retrainDue s (s.chan ch.val) c = false ∨ (∃ d ∈ dieChans (ch.val / 4), (s.chan d).retrain ≠ none) →
        exec (.channelRetrain ch c) s = .next s) ∧
      ((s.chan ch.val).retrain ≠ none → (∀ e, (s.chan ch.val).sliceAt = some e → 200000 ≤ s.since e) →
        (∀ b, ∃ u, exec (.retrainSlice ch false b) s = .next (settle s u) ∧ u = { s with chans := u.chans } ∧
          u.chan ch.val = { s.chan ch.val with sliceAt := some s.now }) ∧
        (∃ u, exec (.retrainSlice ch true false) s = .next (settle s u) ∧ u = { s with chans := u.chans } ∧
          u.chan ch.val = { s.chan ch.val with retrain := none, sliceAt := some s.now, retrains := satAdd (s.chan ch.val).retrains 1
                                               tempTrained := (s.chan ch.val).tempMax, trainedAt := s.now }) ∧
        ((s.chan ch.val).state = .inService → ch.val ∉ s.dimmWork.requests → ∃ u, exec (.retrainSlice ch true true) s = .next u ∧
          u.dimmWork.requests = s.dimmWork.requests ++ [ch.val] ∧ ch.val ∈ u.dimmWork.forced ∧ (u.chan ch.val).retrain = none ∧
          (s.mgmt.active ≠ none → ∃ t ∈ u.errs.tests, t.cls = 0x0A ∧ t.unit = chanUnit ch.val))) ∧
      (∀ a b, (s.chan ch.val).retrain = none ∨ (∃ e, (s.chan ch.val).sliceAt = some e ∧ s.since e < 200000) →
        exec (.retrainSlice ch a b) s = .next (settle s s))) ∧
  (∀ (s : State) (ch : Chan),
      (s.dimmWork.active = none → s.dimmWork.requests.head? = some ch.val → (s.bay ch.val).state ≠ .queued ∨ ch.val ∈ s.dimmWork.forced →
        pagesOn s ch.val = [] → ∃ u, exec (.channelTakeOut ch) s = .next u ∧
        (u.chan ch.val).state = (if (s.bay ch.val).state = .migrating then .out else .fault) ∧ u.dimmWork.active = none ∧
        u.dimmWork.requests = (s.dimmWork.requests.drop 1).filter (· ≠ ch.val) ∧ u.dimm = s.dimm ∧ u.seqs = s.seqs) ∧
      (s.dimmWork.active ≠ some ch.val → s.dimmWork.active ≠ none ∨ s.dimmWork.requests.head? ≠ some ch.val ∨
          ((s.bay ch.val).state = .queued ∧ ch.val ∉ s.dimmWork.forced) → exec (.channelTakeOut ch) s = .next (settle s s)) ∧
      (s.dimmWork.active = some ch.val →
        ((∃ x ∈ pagesOn s ch.val, (placePage x.1 x.2 s).isSome = true) → exec (.channelTakeOut ch) s = .next (settle s s)) ∧
        (pagesOn s ch.val = [] → ∃ u, exec (.channelTakeOut ch) s = .next u ∧ u.dimmWork.active = none ∧ ch.val ∉ u.dimmWork.requests ∧
          (u.chan ch.val).state = (if (s.bay ch.val).state = .migrating then .out else .fault) ∧ u.dimm = s.dimm ∧ u.seqs = s.seqs)) ∧
      (∀ (c : CtxId) (k : Context) (page q : Nat) (use : PageUse) (k2 : Context) (g : KvConfig) (a b : Nat), s.dimmWork.active = some ch.val → s.pair.formed = false → s.ctx c.val = some k →
        k.used.find page = some use → (c.val, page) ∈ pagesOn s ch.val → allocPage s k use.entry = some (q, k2) → k.kv = some g → k2.kv = some g →
        pageAddr k page = some a → pageAddr k2 q = some b → (∀ i, summaryAddr k2 q = some i → i + 1024 ≤ b ∨ b + g.stride ≤ i) →
        ∃ u, exec (.pageCopySwitch ch ⟨c, page⟩) s = .next u ∧
          (∀ e, s.dir.find use.entry = some e → (u.dir.find use.entry).map (·.page) = some q) ∧
          (∀ i, i < g.stride → Memory.read u.dimm (b + i) = Memory.read s.dimm (a + i)) ∧ u.mem = s.mem) ∧
      (∀ p : PageRef, s.dimmWork.active ≠ some ch.val → exec (.pageCopySwitch ch p) s = .next (settle s s)) ∧
      (s.dimmWork.active = none → ∃ u, exec (.oldPageRelease ch) s = .next (settle s u) ∧
        u = { s with dimmWork := { s.dimmWork with old := s.dimmWork.old.filter (fun o => o.place.chan ≠ ch.val) } }) ∧
      (∀ c : CtxId, (∃ e ∈ s.dimmWork.fenced, e.1 = c.val) →
        let zeroed (e : Nat × Place) : Prop := e.1 = c.val ∧ ((s.chan e.2.chan).state = .inService ∨ (s.chan e.2.chan).state = .takingOut)
        ∃ u, exec (.dimmZeroFillDone c) s = .next u ∧
        (∀ e ∈ s.dimmWork.fenced, zeroed e → ∀ i, i < 2097152 → Memory.read u.dimm (e.2.addr + i) = 0) ∧
        (∀ e ∈ u.dimmWork.fenced, e.1 ≠ c.val) ∧ (u.fnr 0).event.getLsbD evScrub = true ∧
        (∀ b, (∀ e ∈ s.dimmWork.fenced, zeroed e → b < e.2.addr ∨ e.2.addr + 2097152 ≤ b) → Memory.read u.dimm b = Memory.read s.dimm b)) ∧
      (∀ c : CtxId, (∀ e ∈ s.dimmWork.fenced, e.1 ≠ c.val) → exec (.dimmZeroFillDone c) s = .next (settle s s)))

/-! ### Clocks, the Reckoner and droop (R328 to R341, R352, R374) -/

/-- R328: the anchor follows the choice of the references that are good, and moves without stopping a clock.
R329, R339 and R340: a node out of lock takes its position's links and router out of service; from an epoch on an instance is slewed, by a tick in
eight, to within a tick of the anchor, and its reads never decrease; one that is further than 16 ns away is faulty, and the nearest in service is read
in its place.
The model’s own choices among what this states are those of notes/assumptions/39.md (DEDUCED) and notes/assumptions/48.md (DEDUCED). -/
def Obligations.ReferencesNodesAndInstancesFail : Prop :=
  (∀ (s : State), s.mgmt.active ≠ none →
      (∀ b, ∃ u, exec (.referenceLost b) s = .next u ∧ u.power.ownBad = (if b then s.power.ownBad else true) ∧
        u.power.partnerBad = (if b then true else s.power.partnerBad) ∧ u.power.source = chooseRef u ∧ u.power.regions = s.power.regions ∧
        u.reck = s.reck ∧ u.parts = s.parts ∧ u.ctxs = s.ctxs ∧ u.mem = s.mem ∧
        (u.power.source ≠ s.power.source → .note .referenceState u.power.source.code 0 ∈ u.mgmt.notes)) ∧
      ((s.die resonatorDie).failed = false → ∃ u, exec (.referenceRegained true) s = .next u ∧ u.power.ownBad = false ∧ u.power.source = chooseRef u ∧
        u.power.partnerBad = s.power.partnerBad ∧ u.reck = s.reck) ∧
      (∃ u, exec (.referenceRegained false) s = .next u ∧ u.power.partnerBad = false ∧ u.power.source = chooseRef u ∧ u.power.ownBad = s.power.ownBad) ∧
      (s.pair.formed = false → s.power.ownBad = false → chooseRef s = .own) ∧ (s.power.ownBad = true → s.power.partnerBad = true → chooseRef s = .holdover)) ∧
  (∀ (s : State) (a : Pos),
      (a.val ∉ s.wafer.nodesOut → s.pair.formed = false → (∀ i, posCompute a.val ≠ some i) → ∃ u, exec (.meridianOutOfLock a) s = .next u ∧
        a.val ∈ u.wafer.nodesOut ∧ a.val ∈ u.wafer.routersOut ∧ (∀ l ∈ linksAt a.val, l ∈ u.wafer.linksOut) ∧ u.wafer.stopped = true ∧
        u.parts = s.parts ∧ u.mem = s.mem) ∧
      (a.val ∈ s.wafer.nodesOut → exec (.meridianOutOfLock a) s = .next (settle s s)) ∧
      (∀ d : Int, a.val ∉ s.reck.faulty →
        let u := instanceEpoch s a.val d
        u.reck.now = s.reck.now ∧
        (-64 ≤ d ∧ d ≤ 64 → u.reck.faulty = s.reck.faulty ∧ instanceNow u a.val =
          (if s.now + BitVec.ofInt 64 d < instanceNow s a.val then instanceNow s a.val else s.now + BitVec.ofInt 64 d)) ∧
        (d < -64 ∨ 64 < d → a.val ∈ u.reck.faulty ∧ instanceNow u a.val = instanceReads u (nearestInstance u a.val) ∧
          ∀ p, p < 144 → p ∉ u.reck.faulty → nearestInstance u a.val ∉ u.reck.faulty ∧
            hops (posSite a.val) (posSite (nearestInstance u a.val)) ≤ hops (posSite a.val) (posSite p))) ∧
      (∀ (x : Drift) (n : W64), (x.left n - x.d).natAbs ≤ (n - x.at_).toNat / 8 ∧
        (-64 ≤ x.d → x.d ≤ 64 → 504 ≤ (n - x.at_).toNat → -1 ≤ x.left n ∧ x.left n ≤ 1)) ∧
      (∀ ds : List Int, s.life.meshLocked = true → s.pair.formed = false → ds.length = 144 → ∃ u, exec (.reckonerEpoch ds) s = .next u ∧
        u.reck.now = s.reck.now ∧ u.mem = s.mem ∧ u.parts = s.parts ∧
        ∀ (i : Nat) (d : Int), ds[i]? = some d → i ∉ s.reck.faulty → (d < -64 ∨ 64 < d → i ∈ u.reck.faulty) ∧
          (-64 ≤ d → d ≤ 64 → instanceNow s i ≤ instanceNow u i ∧ s.now + BitVec.ofInt 64 d ≤ instanceNow u i)) ∧
      (∀ ds, s.life.meshLocked = false → exec (.reckonerEpoch ds) s = .next (settle s s)))

/-- R29, R331, R333, R335, R338 and R355: a region's frequency changes in three steps, a request, a stop and a resume, keeps within the range of the part and the
limits of its powered sites, waits while a site of it is being powered up or asked before it, and for 20 µs after a change; its voltage rises ahead of a
rise in frequency and falls after a fall; one without a powered site stands still; and one that is to be realigned stops and resumes at the frequency it
has. The voltage that its monitors ask for is a free value (the model's choice: notes/assumptions/42.md).
The model’s own choices among what this states are those of notes/assumptions/3.md (DESIGN CHOICE) and notes/assumptions/23.md (DEDUCED) and
notes/assumptions/40.md (DEDUCED). -/
def Obligations.RegionsChangeFrequencyByAStop : Prop :=
  ∀ (s : State) (r : Region),
    (regionRuns s r.val = true →
      (∀ f, (s.region r.val).stopped = false → ∃ u, exec (.frequencyChangeRequest r f) s = .next u ∧ u = { s with power := { s.power with regions := u.power.regions } } ∧
        u.region r.val = { s.region r.val with
          want := some (regionFreq s r.val f)
          behind := if (s.region r.val).want.isSome then (s.region r.val).behind else powersUp s r.val } ∧ ∀ j, j ≠ r.val → u.region j = s.region j) ∧
      (∀ f, (s.region r.val).stopped = true → ∃ u, exec (.frequencyChangeRequest r f) s = .next u ∧ u = { s with power := { s.power with regions := u.power.regions } } ∧
        u.region r.val = { s.region r.val with next := some (regionFreq s r.val f) } ∧ ∀ j, j ≠ r.val → u.region j = s.region j)) ∧
    (regionRuns s r.val = false → ∀ f, exec (.frequencyChangeRequest r f) s = .next s) ∧
    ((s.region r.val).realign = true →
      (∃ u, exec (.regionStop r) s = .next u ∧ u = { s with power := { s.power with regions := u.power.regions } } ∧
        u.region r.val = { s.region r.val with stopped := true } ∧ ∀ j, j ≠ r.val → u.region j = s.region j) ∧
      ((s.region r.val).stopped = false → exec (.regionResume r) s = .next s) ∧
      ((s.region r.val).stopped = true → ∃ u, exec (.regionResume r) s = .next u ∧ u = { s with power := { s.power with regions := u.power.regions } } ∧
        (u.region r.val).stopped = false ∧ (u.region r.val).realign = false ∧ (u.region r.val).freq = (s.region r.val).freq ∧
        (u.region r.val).alignedAt = some s.now ∧ (u.region r.val).pllA = !(s.region r.val).pllA ∧ (u.region r.val).vdd = (s.region r.val).vdd ∧
        ((s.region r.val).next = none → (u.region r.val).want = (s.region r.val).want) ∧ ∀ j, j ≠ r.val → u.region j = s.region j)) ∧
    ((s.region r.val).realign = false →
    (∀ f, (s.region r.val).want = some f → (s.region r.val).stopped = false → regionRuns s r.val = true →
      (∀ i ∈ regionSites r.val, (s.site i).power ≠ .admitted) →
      ((s.region r.val).behind = true → ∀ i ∈ regionSites r.val, (s.site i).requested = false) → (f = (s.region r.val).freq ∨ changedLately s r.val = false) →
      ∃ u, exec (.regionStop r) s = .next u ∧ u = { s with freeIx := u.freeIx, power := { s.power with regions := u.power.regions } } ∧
        u.region r.val = { s.region r.val with stopped := true, vdd := (u.region r.val).vdd } ∧ (s.region r.val).vdd ≤ (u.region r.val).vdd ∧
        (f ≤ (s.region r.val).freq → (u.region r.val).vdd = (s.region r.val).vdd) ∧ ∀ j, j ≠ r.val → u.region j = s.region j) ∧
    ((s.region r.val).want = none ∨ (s.region r.val).stopped = true ∨ regionRuns s r.val = false ∨ (∃ i ∈ regionSites r.val, (s.site i).power = .admitted) ∨
      ((s.region r.val).behind = true ∧ ∃ i ∈ regionSites r.val, (s.site i).requested = true) ∨
      ((∀ f, (s.region r.val).want = some f → f ≠ (s.region r.val).freq) ∧ changedLately s r.val = true) → exec (.regionStop r) s = .next s) ∧
    (∀ f, (s.region r.val).want = some f → (s.region r.val).stopped = true → ∃ u, exec (.regionResume r) s = .next u ∧
      u = { s with freeIx := u.freeIx, power := { s.power with regions := u.power.regions } } ∧
      u.region r.val = { s.region r.val with
        freq := regionFreq s r.val f, want := (s.region r.val).next, next := none, behind := (s.region r.val).next.isSome && powersUp s r.val
        stopped := false, pllA := !(s.region r.val).pllA, vdd := (u.region r.val).vdd, alignedAt := some s.now
        changedAt := if regionFreq s r.val f = (s.region r.val).freq then (s.region r.val).changedAt else some s.now } ∧
      (u.region r.val).vdd ≤ (s.region r.val).vdd ∧ ((s.region r.val).freq ≤ regionFreq s r.val f → (u.region r.val).vdd = (s.region r.val).vdd) ∧
      ∀ j, j ≠ r.val → u.region j = s.region j) ∧
    ((s.region r.val).stopped = false ∨ (s.region r.val).want = none → exec (.regionResume r) s = .next s)) ∧
    (∀ f, 24 ≤ regionFreq s r.val f ∧ ∀ i ∈ regionSites r.val, (s.site i).power ≠ .dark → regionFreq s r.val f ≤ max 24 (clockLimit s i)) ∧
    (s.mgmt.active ≠ none → ∃ u, exec (.guardBandBreach (.region r)) s = .next u ∧ .note .guardBand r.val 0 ∈ u.mgmt.notes ∧
      ((s.region r.val).want = none → (s.region r.val).stopped = false →
        u.region r.val = { s.region r.val with want := some (s.region r.val).freq, behind := powersUp s r.val })) ∧
    (∀ (a : Pos) south, s.mgmt.active ≠ none → ∃ u n, exec (.guardBandBreach (.link a south)) s = .next u ∧ u = { s with
      mgmt := u.mgmt, wafer := { s.wafer with realigned := u.wafer.realigned } } ∧ n = 2 * a.val + (if south then 1 else 0) ∧
      .note .guardBand (25 + n) 0 ∈ u.mgmt.notes ∧ u.wafer.realigned.find n = some s.now)

/-- R374: more than eight droop alarms of a region within 1 ms lower it by one step and hold it there until the hold ends; the learned table keeps what
it held.
The model’s own choices among what this states are those of notes/assumptions/23.md (DEDUCED). -/
def Obligations.DroopHoldLowersARegion : Prop :=
  ∀ (s : State) (x : SiteId) (v : Nat), (s.site x.val).power = .on →
    (8 ≤ ((s.region (siteRegion x.val)).alarms.filter (fun t => decide (s.since t < 4000000))).length → (s.region (siteRegion x.val)).stopped = false →
      ∃ u, exec (.droopAlarm x v) s = .next u ∧ (u.region (siteRegion x.val)).holdAt = some (max 24 ((s.region (siteRegion x.val)).freq - 1)) ∧
        (u.region (siteRegion x.val)).want = some (regionFreq u (siteRegion x.val) ((s.region (siteRegion x.val)).freq - 1)) ∧
        (∀ w, (u.region (siteRegion x.val)).want = some w → w ≤ max 24 ((s.region (siteRegion x.val)).freq - 1)) ∧ u.power.learned = s.power.learned) ∧
    (((s.region (siteRegion x.val)).alarms.filter (fun t => decide (s.since t < 4000000))).length < 8 → ∃ u, exec (.droopAlarm x v) s = .next u ∧
      (u.region (siteRegion x.val)).holdAt = (s.region (siteRegion x.val)).holdAt ∧ (u.region (siteRegion x.val)).want = (s.region (siteRegion x.val)).want ∧
      (u.region (siteRegion x.val)).halved = true ∧ u.power.learned = s.power.learned) ∧
    (∀ r : Region, ∃ u, exec (.droopHoldEnd r) s = .next u ∧ u = { s with power := { s.power with regions := u.power.regions } } ∧
      u.region r.val = { s.region r.val with holdAt := none })

/-- R337 and R352: an alarm halves the region's rate until the alarms of all its sites have cleared, and its sample is recorded, at most once a millisecond.
The model’s own choices among what this states are those of notes/assumptions/23.md (DEDUCED). -/
def Obligations.DroopAlarmsAreRecorded : Prop :=
  ∀ (s : State) (x : SiteId) (v : Nat),
    ((s.site x.val).power ≠ .on → exec (.droopAlarm x v) s = .next s) ∧
    ((s.site x.val).power = .on → ∃ u, exec (.droopAlarm x v) s = .next u ∧ (u.region (siteRegion x.val)).halved = true ∧
      x.val ∈ (u.region (siteRegion x.val)).alarming ∧ (u.die x.val).droops = (s.die x.val).droops + 1 ∧ u.parts = s.parts ∧ u.mem = s.mem ∧
      ((s.die x.val).vMin = 0 ∨ v < (s.die x.val).vMin → (u.die x.val).vMin = v ∧ (u.die x.val).tMin = dieNow s x.val ∧
        (u.die x.val).vSet = (s.region (siteRegion x.val)).vdd) ∧
      ((s.die x.val).alarmAt = none → v + 60 < (s.region (siteRegion x.val)).vdd → (u.die x.val).alarmAt = some s.now) ∧
      (∀ t, (s.die x.val).alarmAt = some t → s.since t < 4000000 → u.mgmt = s.mgmt)) ∧
    (∃ u, exec (.droopClear x) s = .next u ∧ u = { s with power := { s.power with regions := u.power.regions } } ∧
      (x.val ∉ (s.region (siteRegion x.val)).alarming → u.region (siteRegion x.val) = s.region (siteRegion x.val)) ∧
      (x.val ∈ (s.region (siteRegion x.val)).alarming → u.region (siteRegion x.val) = { s.region (siteRegion x.val) with
        alarming := (s.region (siteRegion x.val)).alarming.filter (· ≠ x.val)
        halved := !((s.region (siteRegion x.val)).alarming.filter (· ≠ x.val)).isEmpty }))

/-! ### Power delivery (R29, R346 to R357) -/

/-- R349 to R353: a last stage that loses one sense pair regulates at the other; a phase that is off lowers the site's power in proportion, and a seventh
loses its cluster; a region converter takes its four sites dark, a base converter none; a crack loop warns at 10 % and opens at tenfold resistance.
The model’s own choices among what this states are those of notes/assumptions/4.md (DESIGN CHOICE). -/
def Obligations.PowerPathFaultsAct : Prop :=
  ∀ (s : State) (x : SiteId), s.pair.formed = false → s.siteOf (s.logicalAt x.val) = x.val → s.mgmt.active ≠ none →
    ((s.site x.val).primaryOpen = false → (s.site x.val).duplicateOpen = false → ∃ u, exec (.sensePairSwitch x false) s = .next u ∧ (u.site x.val) = { s.site x.val with primaryOpen := true } ∧
      .note .sensePair x.val 0 ∈ u.mgmt.notes ∧ u.parts = s.parts ∧ u.mem = s.mem) ∧
    (∀ b : Bool, (s.site x.val).bothOpen = false → b = true ∨ (s.site x.val).duplicateOpen = true → ∃ u, exec (.sensePairSwitch x b) s = .next u ∧
      (u.site x.val).bothOpen = true ∧ (u.site x.val).lost = true ∧ (u.site x.val).retired = true ∧ u.mem = s.mem) ∧
    (∀ (k : Fin 24) kind, k.val ∉ (s.site x.val).phasesOff → (s.site x.val).phasesOff.length < 6 → ∃ u, exec (.phaseFault x k kind) s = .next u ∧
      (u.site x.val).phasesOff = (s.site x.val).phasesOff ++ [k.val] ∧
      (u.site x.val).powerW = some (powerLimit s x.val * (24 - ((s.site x.val).phasesOff.length + 1)) / 24) ∧
      (u.site x.val).power = (s.site x.val).power ∧ (∃ t ∈ u.errs.tests, t.cls = 0x0D) ∧ u.parts = s.parts) ∧
    (∀ (k : Fin 24) kind, k.val ∉ (s.site x.val).phasesOff → (s.site x.val).phasesOff.length = 6 → ∃ u, exec (.phaseFault x k kind) s = .next u ∧
      (u.site x.val).power = .dark ∧ (u.site x.val).lost = true ∧ (u.site x.val).retired = true) ∧
    (∀ (k : Fin 24) kind, k.val ∈ (s.site x.val).phasesOff → exec (.phaseFault x k kind) s = .next (settle s s)) ∧
    (∀ r : Region, r.val ∉ s.wafer.firstStageOut → ∃ u, exec (.firstStageFail (.region r)) s = .next u ∧ r.val ∈ u.wafer.firstStageOut ∧
      (∀ i ∈ regionSites r.val, (u.site i).power = .dark) ∧ .note .converterOff r.val 0 ∈ u.mgmt.notes) ∧
    (∀ k : Fin 4, 25 + k.val ∉ s.wafer.firstStageOut → ∃ u, exec (.firstStageFail (.base k)) s = .next u ∧ 25 + k.val ∈ u.wafer.firstStageOut ∧
      u.sites = s.sites ∧ u.parts = s.parts ∧ .note .converterOff (25 + k.val) 0 ∈ u.mgmt.notes) ∧
    (∀ (l : CrackLoop) n, 11 * Config.crackFactory (crackIndex l) < 10 * n → n ≤ 10 * Config.crackFactory (crackIndex l) →
      crackIndex l ∉ s.wafer.crackWarn → ∃ u, exec (.crackLoopMeasure l n) s = .next u ∧ crackIndex l ∈ u.wafer.crackWarn ∧ u.sites = s.sites ∧
        u.parts = s.parts ∧ .note .crackWarning (crackIndex l) n ∈ u.mgmt.notes) ∧
    (∀ n, 10 * Config.crackFactory (crackIndex (.package x)) < n → crackIndex (.package x) ∉ s.wafer.crackOpen →
      ∃ u, exec (.crackLoopMeasure (.package x) n) s = .next u ∧ (u.site x.val).power = .dark ∧ (u.site x.val).retired = true ∧
        crackIndex (.package x) ∈ u.wafer.crackOpen) ∧
    (∀ (l : CrackLoop) n, 10 * n ≤ 11 * Config.crackFactory (crackIndex l) → exec (.crackLoopMeasure l n) s = .next (settle s s))

/-- R29, R335, R338 and R354 to R358: a site is admitted when its regulator group and the module have room, after the sites that asked before it; it comes into service
with its core stores zero; and one that no partition places is switched off; a change of its region that was asked for first comes first.
The model’s own choices among what this states are those of notes/assumptions/40.md (DEDUCED). -/
def Obligations.SitesPowerUpAndDown : Prop :=
  ∀ (s : State) (x : SiteId),
    (∀ i, groupHead s x.val = true → darkState s = false → coolEnough s x.val = true → i + 30 ≤ 150 → s.update.phase = .idle → tooFast s x.val = false →
      ∃ u, exec (.sitePowerUpRequest x i true) s = .next u ∧ (u.site x.val).power = .admitted ∧ (u.site x.val).powerW = some (allotment s x.val) ∧
        x.val ∉ u.power.admission ∧ x.val ∉ u.power.waves ∧ (∀ j, j ≠ x.val → u.site j = s.site j) ∧
        ((∀ j ∈ regionSites (siteRegion x.val), (s.site j).power = .dark) → (u.region (siteRegion x.val)).freq = 24) ∧
        ((∃ j ∈ regionSites (siteRegion x.val), (s.site j).power ≠ .dark) → u.region (siteRegion x.val) = { s.region (siteRegion x.val) with
          realign := decide (s.life.power = .on) })) ∧
    (∀ i, groupHead s x.val = true → darkState s = false → coolEnough s x.val = true → i + 30 ≤ 150 → s.update.phase = .idle → tooFast s x.val = true → (s.region (siteRegion x.val)).stopped = false →
      ∃ u, exec (.sitePowerUpRequest x i true) s = .next u ∧ u.sites = s.sites ∧ u.power.admission = s.power.admission ∧
        u.region (siteRegion x.val) = { s.region (siteRegion x.val) with
          want := some (regionFreq s (siteRegion x.val) (clockLimit s x.val)), behind := (u.region (siteRegion x.val)).behind }) ∧
    (∀ i b, 150 < i + 30 ∨ b = false ∨ groupHead s x.val = false ∨ s.update.phase ≠ .idle ∨ darkState s = true ∨ coolEnough s x.val = false → exec (.sitePowerUpRequest x i b) s = .next (settle s s)) ∧
    (∀ n, groupHead s x.val = true → darkState s = false → s.update.phase = .idle → regionRuns s (siteRegion x.val) = true →
      n < (s.region (siteRegion x.val)).freq → (s.region (siteRegion x.val)).stopped = false →
      ∃ u, exec (.siteAdmissionTimeout x n) s = .next u ∧ (u.region (siteRegion x.val)).want = some (regionFreq s (siteRegion x.val) n) ∧ u.sites = s.sites) ∧
    ((s.site x.val).power = .admitted → ∃ u, exec (.siteInService x) s = .next u ∧
      u.site x.val = { s.site x.val with power := .on, cover := (u.site x.val).cover, hotSince := none, slip := 0, clockGated := false, clamped := false } ∧
      (u.region (siteRegion x.val)).realign = false ∧ (u.region (siteRegion x.val)).alignedAt ≠ none ∧
      (u.site x.val).cover = (if ((partOf s (s.logicalAt x.val)).bind s.stepOf).any (·.current.isSome) then (s.site x.val).cover else none) ∧
      (∀ j, j ≠ x.val → u.site j = s.site j) ∧
      (∀ k l b, (u.coreStore (s.logicalAt x.val) k).byte (linearByte l b) = 0) ∧ u.mem = s.mem) ∧
    ((s.site x.val).power ≠ .admitted → exec (.siteInService x) s = .next (settle s s)) ∧
    (∀ w : Fin 10, w.val = s.power.nextWave → darkState s = false → s.power.waves = [x.val] → (siteX x.val + 2 * siteY x.val) % 10 = w.val →
      (s.site x.val).power = .dark →
      (tooFast s x.val = false → changeFirst s (siteRegion x.val) = false → ∃ u, exec (.powerUpWave w) s = .next u ∧ (u.site x.val).power = .admitted ∧
        u.power.waves = [] ∧ u.power.nextWave = w.val + 1) ∧
      (changeFirst s (siteRegion x.val) = true → (s.site x.val).requested = false → coolEnough s x.val = true → ∃ u, exec (.powerUpWave w) s = .next u ∧
        (u.site x.val).power = .dark ∧ (u.site x.val).requested = true ∧ u.power.admission = s.power.admission ++ [x.val] ∧ u.power.waves = [])) ∧
    (∀ w : Fin 10, w.val = s.power.nextWave → darkState s = false → (∀ i ∈ s.power.waves, (siteX i + 2 * siteY i) % 10 ≠ w.val) → ∃ u, exec (.powerUpWave w) s = .next u ∧
      u.sites = s.sites ∧ u.power = { s.power with nextWave := w.val + 1 }) ∧
    (∀ w : Fin 10, w.val ≠ s.power.nextWave ∨ darkState s = true → exec (.powerUpWave w) s = .next (settle s s)) ∧
    ((s.site x.val).power ≠ .dark → (sitePlaced s x.val = false ∨ darkState s = true) → starting s = false →
      changeBefore s (siteRegion x.val) = false → ∃ u, exec (.sitePowerDown x) s = .next u ∧
      (u.site x.val).power = .dark ∧ (u.site x.val).cover = none ∧ (u.site x.val).clockGated = true ∧ (u.site x.val).clamped = true ∧ (∀ j, j ≠ x.val → u.site j = s.site j) ∧ u.mem = s.mem ∧ u.parts = s.parts) ∧
    ((sitePlaced s x.val = true ∧ darkState s = false) ∨ changeBefore s (siteRegion x.val) = true → exec (.sitePowerDown x) s = .next (settle s s))

/-- R359 to R362: heat lowers a region, marks a site at 105 °C, switches it off at an operation boundary with a cover, and trips it at 115 °C; it returns when
cool.
The model’s own choices among what this states are those of notes/assumptions/40.md (DEDUCED). -/
def Obligations.HeatSwitchesSitesOff : Prop :=
  ∀ (s : State) (x : SiteId), s.pair.formed = false →
    (∀ (d : DieId) (l : List Int), ∃ u, exec (.thermalSample d l) s = .next u ∧ (u.die d.val).temps = l ∧ u.parts = s.parts ∧ u.mem = s.mem ∧
      (∀ j, (u.site j).power = (s.site j).power)) ∧
    (∀ (h : Int), (s.site x.val).power = .on → (s.site x.val).heat = .normal → (s.region (siteRegion x.val)).freq = 24 → (s.die x.val).sensorsOut = [] →
      1050 ≤ h → ∃ u, exec (.thermalSample ⟨x.val, by omega⟩ [h]) s = .next u ∧ (u.region (siteRegion x.val)).heatCap = some 24 ∧
        (u.site x.val).hotSince = some ((s.site x.val).hotSince.getD s.now) ∧
        ((∃ t, (s.site x.val).hotSince = some t ∧ msTicks 10 ≤ s.since t) → (u.site x.val).heat = .marked) ∧
        ((∀ t, (s.site x.val).hotSince = some t → s.since t < msTicks 10) → (u.site x.val).heat = .normal)) ∧
    ((s.site x.val).heat = .marked → (s.site x.val).power = .on → changeBefore s (siteRegion x.val) = false → partOf s (s.logicalAt x.val) = none → s.mgmt.active ≠ none →
      ∃ u, exec (.siteHeatOff x) s = .next u ∧ (u.site x.val).power = .dark ∧ (u.site x.val).heat = .off ∧ .note .heatOff x.val 0 ∈ u.mgmt.notes) ∧
    (∀ p q, (s.site x.val).heat = .marked → (s.site x.val).power = .on → changeBefore s (siteRegion x.val) = false → partOf s (s.logicalAt x.val) = some p → s.part p = some q → atBoundary s p = true →
      hostsNavigator q (s.logicalAt x.val) = false → (coverFor s q (s.logicalAt x.val)).isSome = true →
      (∀ m ∈ q.clusters, m ≠ s.logicalAt x.val → s.siteOf m ≠ x.val) → s.siteOf (s.logicalAt x.val) = x.val →
      ∃ u, exec (.siteHeatOff x) s = .next u ∧ (u.site x.val).power = .dark ∧ (u.site x.val).heat = .off ∧ (u.site x.val).cover ≠ none ∧
        (u.part p).map (·.state) = some q.state ∧ u.mem = s.mem) ∧
    (∀ p, (s.site x.val).heat = .marked → partOf s (s.logicalAt x.val) = some p → atBoundary s p = false → exec (.siteHeatOff x) s = .next (settle s s)) ∧
    (changeBefore s (siteRegion x.val) = true → exec (.siteHeatOff x) s = .next (settle s s)) ∧
    ((s.site x.val).heat = .off → hottest s x.val < 850 → (s.site x.val).power = .dark → (s.site x.val).requested = false → sitePlaced s x.val = true →
      darkState s = false → ∃ u, exec (.siteHeatReturn x) s = .next u ∧ (u.site x.val).heat = .normal ∧ (u.site x.val).requested = true ∧
        u.power.admission = s.power.admission ++ [x.val]) ∧
    ((s.site x.val).heat ≠ .off ∨ 850 ≤ hottest s x.val → exec (.siteHeatReturn x) s = .next (settle s s)) ∧
    (∀ h : Int, 1150 ≤ h → (s.site x.val).power ≠ .dark → s.siteOf (s.logicalAt x.val) = x.val → s.mgmt.active ≠ none →
      ∃ u, exec (.hardThermalTrip (some ⟨x.val, by omega⟩) h) s = .next u ∧ (u.site x.val).power = .dark ∧ (u.site x.val).heat = .tripped ∧
        .platformEvent .trip x.val ∈ u.mgmt.i3c ∧ u.mem = s.mem) ∧
    (∀ (d : Option DieId) (h : Int), (∀ n, d = some n → 100 ≤ n.val) → 1150 ≤ h → ∃ u, exec (.hardThermalTrip d h) s = .next u ∧ u.life.phase = .unpowered ∧
      u.life.inputOk = false ∧ u.parts = [] ∧ u.mem = []) ∧
    (∀ (d : Option DieId) (h : Int), h + 50 < 1150 → exec (.hardThermalTrip d h) s = .next (settle s s)) ∧
    (∀ f, (s.site x.val).heat = .tripped → hottest s x.val < 850 → tripTest s x.val = none → (s.site x.val).retired = false → (s.site x.val).power = .dark →
      (s.site x.val).requested = false → sitePlaced s x.val = true → darkState s = false → ∃ u, exec (.hardTripReturn x f) s = .next u ∧
        (u.site x.val).heat = .normal ∧ (u.site x.val).requested = true) ∧
    (∀ p q, (s.site x.val).heat = .tripped → partOf s (s.logicalAt x.val) = some p → s.part p = some q → hostsNavigator q (s.logicalAt x.val) = true →
      s.siteOf (s.logicalAt x.val) = x.val → ∃ u, exec (.navigatorTripRetire x) s = .next u ∧ (u.site x.val).retired = true ∧ (u.site x.val).power = .dark) ∧
    (850 ≤ hottest s x.val → ∀ f, exec (.hardTripReturn x f) s = .next (settle s s)) ∧
    ((s.site x.val).heat ≠ .tripped → (∀ f, exec (.hardTripReturn x f) s = .next (settle s s)) ∧ exec (.navigatorTripRetire x) s = .next (settle s s))

/-- R363 to R367 and R369 to R377: a power state is entered once every step has ended; the cap lowers every region a step at a time; slack moves a
region's supply within 600 to 900 mV; the energy models of the dies are trimmed, and the energy of a second is charged to the contexts.
That a limit of 10 µs is met as the average is DEDUCED (notes/assumptions/40.md).
The model’s own choices among what this states are those of notes/assumptions/40.md (DEDUCED). -/
def Obligations.PowerStatesCapMarginAndEnergy : Prop :=
  ∀ (s : State),
    (∀ o, s.life.entering = some o → o.state = .idle ∨ o.state = .doze ∨ o.state = .sleep → readyToEnter s = true → s.life.resetWaits = false →
      s.life.orders = [] → (∀ e ∈ s.sq, e.2.step = none) → ∃ u, exec .powerStateEnter s = .next u ∧ u.life.power = o.state ∧ u.life.entering = none ∧
        (∀ r, r < 25 → (u.region r).stopped = true ∧ (u.region r).freq = 24) ∧ u.ctxs = s.ctxs ∧ u.mem = s.mem ∧ u.dimm = s.dimm ∧
        (o.state ≠ .idle → ∀ i, i < 100 → (u.site i).power = .dark) ∧ (o.state = .idle → u.sites = s.sites) ∧
        (o.state = .sleep → ∀ p, (u.port p).lanes = min 1 (s.port p).lanes)) ∧
    (∀ o, s.life.entering = some o → o.state = .off → readyToEnter s = true → s.life.resetWaits = false → s.life.orders = [] →
      ∃ u, exec .powerStateEnter s = .next u ∧ u.life.power = .off ∧ u.ctxs = [] ∧ u.parts = [] ∧ u.mem = [] ∧ u.dimm = [] ∧ u.link.up = false ∧
        u.life.ready = false ∧ u.flash0 = s.flash0 ∧ u.settings = s.settings) ∧
    (s.life.entering = none ∨ readyToEnter s = false → exec .powerStateEnter s = .next (settle s s)) ∧
    (∀ a peak amps, 100 * s.setting .pwrCap < a ∨ min (125 * s.setting .pwrCap) (100 * s.maxCap) < peak ∨ 460 < amps → ∃ u,
      exec (.capCheck a peak amps) s = .next u ∧ u = { s with power := { s.power with regions := u.power.regions } } ∧
      ∀ r, r < 25 → 24 < (s.region r).freq → (u.region r).capStep = some ((s.region r).freq - 1) ∧ (u.region r).freq = (s.region r).freq) ∧
    (∀ a peak amps, a ≤ 100 * s.setting .pwrCap → peak ≤ 125 * s.setting .pwrCap → peak ≤ 100 * s.maxCap → amps ≤ 460 → ∃ u,
      exec (.capCheck a peak amps) s = .next u ∧ u = { s with power := { s.power with regions := u.power.regions } } ∧
      ∀ r, r < 25 → u.region r = { s.region r with capStep := none }) ∧
    (∀ (r : Region) (l : List Nat), l ≠ [] → (s.region r.val).stopped = false →
      ((∃ n ∈ l, n < 20) → (∀ n ∈ l, 10 ≤ n) → (s.region r.val).vdd < 900 → ∃ u, exec (.marginSample r l) s = .next u ∧
        (u.region r.val).vdd = min 900 ((s.region r.val).vdd + 5) ∧ (u.region r.val).want = (s.region r.val).want ∧ u.sites = s.sites) ∧
      ((∃ n ∈ l, n < 10) → (s.region r.val).vdd < 900 → ∃ u, exec (.marginSample r l) s = .next u ∧
        (u.region r.val).vdd = min 900 ((s.region r.val).vdd + 10)) ∧
      ((∃ n ∈ l, n < 20) → 900 ≤ (s.region r.val).vdd → (s.region r.val).slackCap = none → s.mgmt.active ≠ none → ∃ u, exec (.marginSample r l) s = .next u ∧
        (u.region r.val).vdd = (s.region r.val).vdd ∧ (u.region r.val).slackCap = some (max 24 ((s.region r.val).freq - 1)) ∧
        (∃ n, .note .slackLow r.val n ∈ u.mgmt.notes)) ∧
      ((∀ n ∈ l, 20 < n) → ∃ u, exec (.marginSample r l) s = .next u ∧ (u.region r.val).vdd = max 600 ((s.region r.val).vdd - 5) ∧
        (u.region r.val).slackCap = none)) ∧
    (∀ (m sh : Nat) (model : List (DieId × Nat)) (c : CtxId) (k : Context) (own : List (DieId × Nat)) (ms : Nat), attributed s model + sh ≠ 0 → ms ≠ 0 →
      s.ctx c.val = some k → ∃ u, exec (.energyTrim m sh model [(c, own, ms)]) s = .next u ∧ u.power.inputMj = s.power.inputMj + m ∧
      (∀ d, d < 122 → energyCoeff u d = energyCoeff s d * m / (attributed s model + sh)) ∧
      u.ctx c.val = some { k with
        energyMj := k.energyMj + attributed u own + (sh + attributed u (model.filter (fun x => decide (100 ≤ x.1.val))))
        clusterMj := k.clusterMj + attributed u own, clusterMs := k.clusterMs + ms } ∧
      (∀ j, j ≠ c.val → u.ctx j = s.ctx j) ∧ u.mem = s.mem)

/-! ### Targeted self-tests and losses (R16, R17, R378, R389 to R397) -/

/-- R389 to R393: a queued test starts when its unit is idle and holds its partition's next step; an error that it does not reproduce leaves the unit in
service; one that it places in a memory's row takes the next spare, with a chart entry; and a test that has not started has no outcome.
R16, R17, R396 and R397: a cluster lost while its partition's step runs is dark, retired and recorded, with nothing changed in a DIMM; a switch-off for
heat is no loss; and a failed ring die takes out what it serves.
The model’s own choices among what this states are those of notes/assumptions/38.md (DEDUCED) and notes/assumptions/44.md (DEDUCED) and
notes/assumptions/60.md (DEDUCED). -/
def Obligations.TestsRepairsAndLossesAct : Prop :=
  (∀ (s : State) (no : W32) (t : TestRec), s.pair.formed = false → s.errs.tests = [t] → t.detectNo = no →
      (t.started = false → unitIdle s t = true → ∃ u, exec (.targetedSelftestStart no) s = .next u ∧ u.errs.tests = [{ t with started := true }] ∧
        u.mem = s.mem ∧ u.sites = s.sites ∧
        (∀ p q, partOfUnit s t.unit = some p → s.part p = some q → u.part p = some { q with held := if q.held.contains no.toNat then q.held else q.held ++ [no.toNat] })) ∧
      (t.started = true ∨ unitIdle s t = false → exec (.targetedSelftestStart no) s = .next (settle s s)) ∧
      (∀ f, t.started = false → exec (.selftestOutcome no f) s = .next (settle s s)) ∧
      (t.started = true → t.cls ≠ 0x01 → t.applied = false → inconclusiveBefore s t.cls t.unit = false → ninthTransient s t.unit = false → t.doubt = false → s.mgmt.active ≠ none →
        ∃ u, exec (.selftestOutcome no (.notReproduced true)) s = .next u ∧ u.errs.tests = [] ∧ u.build.chart = s.build.chart ∧
          (u.log.events.getLast?).map (fun e => (e.cls, e.outcome, e.detectNo, e.chartSeq)) = some (t.cls, 0x01, no, 0) ∧
          ⟨t.unit, t.cls, true, s.reck.lifeSec⟩ ∈ u.log.occurrences) ∧
      (∀ (v : UnitRef) (m : StoreRef) (row k : Nat), t.started = true → t.cls.toNat ∈ [4, 5, 6, 7] → storeOfUnit s v = some (m, row) → spareNamed m row = none →
        (∀ e ∈ (s.store m).remap, e.1 ≠ row) → nextSpare s m row = some k → s.mgmt.active ≠ none → s.build.chart.length < chartCapacity →
        ∃ u, exec (.selftestOutcome no (.located v)) s = .next u ∧ u.errs.tests = [] ∧ (u.store m).remap = (s.store m).remap ++ [(row, k)] ∧
          u.build.chart = s.build.chart ++ [⟨nextSeqNo s.build.chart, BitVec.ofNat 64 s.reck.lifeSec, 0x03, rowUnit s m row, 0x01, t.cls, true⟩] ∧
          (u.log.events.getLast?).map (fun e => (e.outcome, e.chartSeq)) = some (0x02, nextSeqNo s.build.chart))) ∧
  (∀ (s : State), s.pair.formed = false → s.errs.tests = [] →
      (∀ (c : Cluster) p t cls, partOf s c.val = some p → s.stepOf p = some t → t.phase ≠ .compared → t.phase ≠ .ended → cls ≠ 0x0F →
        (s.site (s.siteOf c.val)).retired = false → s.siteOf c.val < 100 → s.mgmt.active ≠ none → ∃ u, exec (.clusterLost c cls) s = .next u ∧
          (u.site (s.siteOf c.val)).power = .dark ∧ (u.site (s.siteOf c.val)).retired = true ∧ (u.site (s.siteOf c.val)).lost = true ∧
          u.dimm = s.dimm ∧ (∃ e ∈ u.log.events, e.cls = cls ∧ e.unit = clusterUnit s 0x08 c.val 0xFF 0 0 ∧ e.status = stChecksum ∧ e.step = t.number)) ∧
      (∀ (c : Cluster), exec (.clusterLost c 0x0F) s = .next (settle s s)) ∧
      (∀ (c : Cluster) cls, (partOf s c.val).bind s.stepOf = none → exec (.clusterLost c cls) s = .next (settle s s)) ∧
      ((s.die hostDie).failed = false → s.mgmt.active ≠ none → s.link.up = false → ∃ u, exec (.ringDieFailure ⟨118, by decide⟩) s = .next u ∧
        (u.die hostDie).failed = true ∧ u.mem = s.mem ∧ u.parts = s.parts ∧ ∃ t ∈ u.errs.tests, t.cls = 0x14) ∧
      ((s.die 108).failed = false → s.mgmt.active ≠ none → ∃ u, exec (.ringDieFailure ⟨108, by decide⟩) s = .next u ∧ u.flash0.works = false ∧
        u.flash1 = s.flash1 ∧ u.mem = s.mem) ∧
      ((s.die 105).failed = false → s.mgmt.active = some 0 → s.mgmt.sv1.works = true → ∃ u, exec (.ringDieFailure ⟨105, by decide⟩) s = .next u ∧
        u.mgmt.sv0.works = false ∧ u.mgmt.active = none ∧ u.mem = s.mem ∧ u.errs.tests = []) ∧
      (∀ d : DieId, d.val < 100 ∨ d.val = resonatorDie ∨ (s.die d.val).failed = true → exec (.ringDieFailure d) s = .next (settle s s)))

/-! ### The pair's ports and frames (R428 to R437, R449 to R454) -/

/-- R428, R430 and R431: a port trains at eight lanes or a half and sends its identity, under link sequence 0 unless it was trained already; a trained port that falls drops out to be trained
again, and what it had not had acknowledged goes on a port that remains; a heartbeat goes out on every trained port.
The model’s own choices among what this states are those of notes/assumptions/39.md (DEDUCED) and notes/assumptions/45.md (DEDUCED). -/
def Obligations.PortsTrainFallAndCarryFrames : Prop :=
  ∀ (s : State) (p : Port), s.pair.formed = false →
    (∀ (ok : BitVec 8) serial, portMayTrain s p.val = true → ok = 0xFF → (s.port p.val).lanesOut = [] → otherPartner s p.val serial = false →
      (s.port p.val).lanes ≠ 0 → ∃ u, exec (.consortPortTrain p ok serial) s = .next u ∧ (u.port p.val).lanes = 8 ∧
        (u.port p.val).recvSeq = (s.port p.val).recvSeq ∧ (u.port p.val).sendSeq = (s.port p.val).sendSeq + 1 ∧
        (u.port p.val).replay = (s.port p.val).replay ++ [((s.port p.val).sendSeq, .identity (ownIdentity s))]) ∧
    (∀ (ok : BitVec 8) serial, portMayTrain s p.val = true → ok = 0xFF → (s.port p.val).lanesOut = [] → otherPartner s p.val serial = false →
      (s.port p.val).lanes = 0 → ∃ u, exec (.consortPortTrain p ok serial) s = .next u ∧ (u.port p.val).lanes = 8 ∧ (u.port p.val).serial = serial ∧
        (u.port p.val).down = false ∧ (u.port p.val).recvSeq = 0 ∧ (u.port p.val).sendSeq = 1 ∧ u.pair.sent = s.pair.sent ++ [⟨p.val, 0, 0, .identity (ownIdentity s), s.pair.epoch, s.now⟩] ∧
        (∀ q, q ≠ p.val → u.port q = s.port q) ∧ u.errs.tests = s.errs.tests) ∧
    (∀ (ok : BitVec 8) serial, portMayTrain s p.val = true → ok = 0xFF → (s.port p.val).lanesOut = [] → otherPartner s p.val serial = true → s.mgmt.active ≠ none →
      (s.port p.val).replay = [] → ∃ u, exec (.consortPortTrain p ok serial) s = .next u ∧ (u.port p.val).lanes = 0 ∧ (u.port p.val).training = false ∧ u.pair.sent = s.pair.sent ∧
        .note .cableMismatch p.val 0 ∈ u.mgmt.notes) ∧
    (∀ (ok : BitVec 8) serial, portMayTrain s p.val = true → (s.port p.val).lanesOut = [] → otherPartner s p.val serial = false → s.mgmt.active ≠ none →
      (ok = 0x0F ∨ ok = 0xF0 → ∃ u, exec (.consortPortTrain p ok serial) s = .next u ∧ (u.port p.val).lanes = 4 ∧
        ∃ t ∈ u.errs.tests, t.cls = 0x12) ∧
      (ok = 0x00 → (s.port p.val).replay = [] → ∃ u, exec (.consortPortTrain p ok serial) s = .next u ∧ (u.port p.val).lanes = 0 ∧ (u.port p.val).training = true ∧
        u.pair.sent = s.pair.sent ∧ ∃ t ∈ u.errs.tests, t.cls = 0x12)) ∧
    (∀ ok serial, portMayTrain s p.val = false → exec (.consortPortTrain p ok serial) s = .next (settle s s)) ∧
    (portMayTrain s p.val = true → (s.port p.val).lanes = 0 → exec (.portRetrainTimer p) s = .next (updPort p.val (fun r => { r with training := true }) s)) ∧
    (portMayTrain s p.val = false ∨ (s.port p.val).lanes ≠ 0 → exec (.portRetrainTimer p) s = .next s) ∧
    ((s.port p.val).lanes ≠ 0 → (s.port p.val).replay = [] → ∃ u, exec (.portDown p) s = .next u ∧
      u.port p.val = { s.port p.val with lanes := 0, down := true, training := true, replay := [] } ∧ (∀ q, q ≠ p.val → u.port q = s.port q) ∧
      u.pair.sent = s.pair.sent ∧ u.ctxs = s.ctxs ∧ u.parts = s.parts) ∧
    (∀ (n : W32) (k : Nat) (q : Port), (s.port p.val).lanes ≠ 0 → (s.port p.val).replay = [(n, .timeReq 7)] → q ≠ p → (∀ x, x ≠ p.val → x ≠ q.val → (s.port x).lanes = 0) →
      (s.port q.val).lanes = k + 1 → ∃ u, exec (.portDown p) s = .next u ∧
        ∃ m, u.pair.sent = s.pair.sent ++ [⟨q.val, (s.port q.val).sendSeq, m, .timeReq 7, s.pair.epoch, s.now⟩]) ∧
    ((s.port p.val).lanes = 0 → (s.port p.val).down = true → exec (.portDown p) s = .next (settle s s)) ∧
    ((∀ x, x ≠ p.val → (s.port x).lanes = 0) → (s.port p.val).lanes ≠ 0 → s.pair.fwdSteps = [] → s.pair.asked = [] → ∃ u, exec .heartbeatSend s = .next u ∧
      u.pair.sent = s.pair.sent ++ [⟨p.val, (s.port p.val).sendSeq, 0,
        .heartbeat p (heartbeatRole s) (BitVec.ofNat 8 s.pair.mode) (contextsRun s) (BitVec.ofNat 64 (s.setting .cnsPairId)), s.pair.epoch, s.now⟩] ∧
      (u.port p.val).sendSeq = (s.port p.val).sendSeq + 1) ∧
    ((∀ x, x < 4 → (s.port x).lanes = 0) → s.pair.fwdSteps = [] → s.pair.asked = [] → exec .heartbeatSend s = .next (settle s s))

/-- R430 and R431: a broken frame and one that leaves a gap are asked for again and have no effect; one received before has none; a frame in order is counted and
acknowledged; an acknowledgement ends the keeping of what it covers.
The model’s own choices among what this states are those of notes/assumptions/45.md (DEDUCED). -/
def Obligations.LinkFramesAreReceivedInOrder : Prop :=
  ∀ (s : State) (h : FrameHdr), (s.port h.port.val).lanes ≠ 0 →
    (∀ (a n : W32), h.good = true → h.linkSeq = (s.port h.port.val).recvSeq → s.pair.seenEpoch ≤ h.epoch → n = 0xFFFFFFFF →
      ∃ u, exec (.ack h a n) s = .next u ∧ (u.port h.port.val).recvSeq = h.linkSeq + 1 ∧
        (u.port h.port.val).replay = (s.port h.port.val).replay.filter (fun e => decide (0 < (e.1 - a).toInt)) ∧ u.pair.sent = s.pair.sent ∧
        u.ctxs = s.ctxs ∧ u.mem = s.mem ∧ u.pair.formed = s.pair.formed) ∧
    (∀ (a n : W32) (f : FrameOut) (m : W32) (e : W32) (t : W64), h.good = true → h.linkSeq = (s.port h.port.val).recvSeq → s.pair.seenEpoch ≤ h.epoch →
      n ≠ 0xFFFFFFFF → (s.port h.port.val).replay = [(n, f)] → 0 < (n - a).toInt → s.pair.sent = [⟨h.port.val, n, m, f, e, t⟩] →
      ∃ u, exec (.ack h a n) s = .next u ∧ u.pair.sent = s.pair.sent ++ [⟨h.port.val, n, m, f, e, s.now⟩] ∧
        (u.port h.port.val).replay = [(n, f)] ∧ (u.port h.port.val).sendSeq = (s.port h.port.val).sendSeq) ∧
    (∀ (a n : W32), (h.good = false ∨ 0 < (h.linkSeq - (s.port h.port.val).recvSeq).toInt) → ∃ u, exec (.ack h a n) s = .next u ∧
      u.pair.sent = s.pair.sent ++ [⟨h.port.val, (s.port h.port.val).sendSeq, 0,
        .ack h.port ((s.port h.port.val).recvSeq - 1) (s.port h.port.val).recvSeq, s.pair.epoch, s.now⟩] ∧
      (u.port h.port.val).recvSeq = (s.port h.port.val).recvSeq ∧ u.ctxs = s.ctxs ∧ u.mem = s.mem) ∧
    (∀ (a n : W32), h.good = true → (h.linkSeq - (s.port h.port.val).recvSeq).toInt < 0 → exec (.ack h a n) s = .next s) ∧
    (∀ (role mode : Byte) (running : Bool) (pid : W64), h.good = true → h.linkSeq = (s.port h.port.val).recvSeq → s.pair.seenEpoch ≤ h.epoch →
      pid.toNat = s.setting .cnsPairId → s.pair.formed = false → ∃ u, exec (.heartbeat h role mode running pid) s = .next u ∧
        u.pair.partnerRuns = running ∧ u.pair.partnerRole = role ∧ u.pair.partnerMode = mode.toNat ∧ (u.port h.port.val).recvSeq = h.linkSeq + 1 ∧
        u.pair.sent = s.pair.sent ++ [⟨h.port.val, (s.port h.port.val).sendSeq, 0, .ack h.port h.linkSeq 0xFFFFFFFF, s.pair.epoch, s.now⟩]) ∧
    (∀ (b : IdentityBody), h.good = true → h.linkSeq = (s.port h.port.val).recvSeq → s.pair.seenEpoch ≤ h.epoch → otherPartner s h.port.val b.serial = false →
      b.orderCode.toNat = s.orderCode → b.pairId.toNat = s.setting .cnsPairId → s.setting .cnsMode ≠ 0 → b.mode ≠ 0 → s.pair.formed = false →
      s.parts = [] → s.ctxs = [] → ∃ u, exec (.identity h b) s = .next u ∧ u.pair.formed = true ∧ u.pair.partner = some b ∧
        u.pair.role = (if becomesPrimary s b then .primary else .secondary) ∧ u.pair.epoch = larger s.pair.epoch b.epoch ∧ s.now ≤ u.now) ∧
    (∀ (b : IdentityBody), h.good = true → h.linkSeq = (s.port h.port.val).recvSeq → s.pair.seenEpoch ≤ h.epoch → otherPartner s h.port.val b.serial = false →
      b.orderCode.toNat ≠ s.orderCode → ∃ u, exec (.identity h b) s = .next u ∧ u.pair.formed = s.pair.formed ∧ u.pair.partner = s.pair.partner ∧ u.pair.role = s.pair.role) ∧
    (∀ reason : Byte, h.good = true → h.linkSeq = (s.port h.port.val).recvSeq → s.pair.seenEpoch ≤ h.epoch → s.pair.formed = true → 1 ≤ reason.toNat →
      reason.toNat ≤ 5 → (s.pair.mode < 2 ∨ s.pair.role = .primary → ∃ u, exec (.departing h reason) s = .next u ∧ u.pair.formed = false ∧ u.pair.departed = true ∧
        (∀ x, x < 4 → (u.port x).lanes = 0)))

/-- R340, R342, R431 and R449 to R453: a request for the time is answered; a follower slews by its offset from then on, and no count steps; forwarded set-up commands and steps are the
secondary's alone; a start time holds the step; a digest that differs makes the next step an audit; and differing cluster digests are recorded.
The model’s own choices among what this states are those of notes/assumptions/26.md (DESIGN CHOICE) and notes/assumptions/47.md (DEDUCED) and
notes/assumptions/48.md (DEDUCED). -/
def Obligations.PairTimeStepsAndDigests : Prop :=
  ∀ (s : State) (h : FrameHdr), s.pair.fwdSteps = [] → portsTrained s ≠ [] →
    (∀ t1, Safety.Arrives s h 0x05 → ∃ u, exec (.timeReq h t1) s = .next u ∧ (u.pair.sent.getLast?).map (·.frame) = some (.timeResp t1 (portNow s) (portNow s)) ∧
      u.reck = s.reck ∧ u.mem = s.mem ∧ u.ctxs = s.ctxs) ∧
    (∀ t1 t2 t3, Safety.Arrives s h 0x06 →
      (timeLeader s = false → ∃ u, exec (.timeResp h t1 t2 t3) s = .next u ∧
        u.pair.timeOffset = ((t2 - t1).toInt + (t3 - portNow s).toInt) / 2 ∧ u.reck = { s.reck with slew := u.pair.timeOffset }) ∧
      (timeLeader s = true → ∃ u, exec (.timeResp h t1 t2 t3) s = .next u ∧ u.reck = s.reck ∧ u.pair.timeOffset = s.pair.timeOffset)) ∧
    (∀ x, Safety.Arrives s h 0x07 → isSecondary s = false → ∃ u, exec (.setupFwd h x) s = .next u ∧ u.parts = s.parts ∧ u.ctxs = s.ctxs ∧ u.owners = s.owners ∧
      u.marks = s.marks ∧ u.mem = s.mem) ∧
    (∀ (p : PartId) g l, Safety.Arrives s h 0x07 → isSecondary s = true → ownGroups s g = some l → s.parts.has p.val = false →
      ∃ u, exec (.setupFwd h (.partCreate (BitVec.ofNat 8 p.val) g)) s = .next u ∧ (u.part p.val).map (·.groups) = some l ∧
        (∀ j, j ≠ p.val → u.part j = s.part j) ∧ u.ctxs = s.ctxs ∧ u.mem = s.mem) ∧
    (∀ ring i d bytes, Safety.Arrives s h 0x08 → isSecondary s = false ∨ s.pair.mode ≠ 3 → ∃ u, exec (.descFwd h ring i d bytes) s = .next u ∧
      u.parts = s.parts ∧ u.ctxs = s.ctxs ∧ u.seqs = s.seqs ∧ u.mem = s.mem) ∧
    (∀ ring i d bytes kind program count (c : CtxId) k, Safety.Arrives s h 0x08 → isSecondary s = true → s.pair.mode = 3 → h.ctx = BitVec.ofNat 8 c.val →
      s.ctx c.val = some k → (descOfBytes d).invalid = false → descOfBytes d = .step kind program count → mayFollow s k.part.val = false →
      ∃ u, exec (.descFwd h ring i d bytes) s = .next u ∧
        u.pair.fwdSteps = [⟨c, asRing ring.toNat, i, kindOf kind, program.toNat, count.toNat⟩] ∧ u.parts = s.parts ∧ u.ctxs = s.ctxs) ∧
    (∀ step start p t, Safety.Arrives s h 0x09 → runningStep s h.ctx.toNat = some (p, t) → s.stepOf p = some t → t.phase = .begun → t.number = step →
      ∃ u, exec (.stepStart h step start) s = .next u ∧ u.stepOf p = some { t with phase := .lockedHold start } ∧ (h.ctx, step, start) ∈ u.pair.starts) ∧
    (∀ d, Safety.Arrives s h 0x0A → runningStep s d.ctx.toNat = none → ∃ u, exec (.digest h d) s = .next u ∧ d ∈ u.pair.theirs ∧ u.ctxs = s.ctxs ∧
      u.parts = s.parts ∧ u.mem = s.mem) ∧
    (∀ step (n : Cluster) d e, Safety.Arrives s h 0x0B → ownClusterDigest s h.ctx step n.val = some e → s.mgmt.active ≠ none →
      (e.dShared ≠ d.dShared ∨ e.dKv ≠ d.dKv ∨ e.dToken ≠ d.dToken ∨ e.dState ≠ d.dState → ∃ u, exec (.clusterDigest h step n d) s = .next u ∧
        n.val ∈ u.pair.differ ∧ (∃ t ∈ u.errs.tests, t.cls = 0x03 ∧ t.unit = clusterUnit s 0x08 n.val 0 0 0) ∧ u.mem = s.mem ∧ u.parts = s.parts) ∧
      (e.dShared = d.dShared → e.dKv = d.dKv → e.dToken = d.dToken → e.dState = d.dState → ∃ u, exec (.clusterDigest h step n d) s = .next u ∧
        u.pair.differ = s.pair.differ ∧ u.errs = s.errs)) ∧
    (∀ x, 0 < (h.streamSeq - s.pair.streamIn.getD (0x07 * 256 + h.ctx.toNat) 0).toInt → (s.port h.port.val).lanes ≠ 0 → h.good = true →
      h.linkSeq = (s.port h.port.val).recvSeq → s.pair.seenEpoch ≤ h.epoch → s.pair.formed = true → s.pair.early = [] →
      ∃ u, exec (.setupFwd h x) s = .next u ∧ u.pair.early = [.setupFwd h x] ∧ u.parts = s.parts ∧ u.ctxs = s.ctxs)

/-! ### Mirroring, locked mode and takeovers (R433, R439 to R449, R454 to R461) -/

/-- R439 to R447: a point whose frames are all there is acknowledged and applied, and one that lacks some waits; an acknowledged point is secured; a copied row lands
where its context owns the granule; a request is answered with the row; and the last row restored lets the context go on.
R453: in locked mode a copy waits for the tests of the clusters that differ.
The model’s own choices among what this states are those of notes/assumptions/22.md (DEDUCED) and notes/assumptions/46.md (DEDUCED). -/
def Obligations.MirrorPointsAndCopiesAreApplied : Prop :=
  ∀ (s : State) (h : FrameHdr) (c : CtxId) (k : Context), h.ctx = BitVec.ofNat 8 c.val → s.ctx c.val = some k → portsTrained s ≠ [] →
    (∀ d : DataBody, Safety.Arrives s h 0x0C → isSecondary s = true → s.pair.log = [] → ∃ u, exec (.mirrorData h d) s = .next u ∧
      u.pair.log = [{ ctx := c, point := d.point, frames := [d] }] ∧ u.mem = s.mem ∧ u.dimm = s.dimm ∧ u.ctxs = s.ctxs) ∧
    (∀ (d : DataBody) (a : Nat), Safety.Arrives s h 0x0D → isSecondary s = true → s.pair.log = [{ ctx := c, point := d.point, frames := [d] }] →
      d.object = 0x00 → d.address.toNat = a → openTo s c a d.bytes.length = true → ∃ u, exec (.mirrorEnd h d.point 1) s = .next u ∧ u.pair.log = [] ∧
        (∃ x ∈ u.pair.sent, x.frame = .mirrorAck (BitVec.ofNat 8 c.val) d.point) ∧ u.ssRead a d.bytes.length = d.bytes ∧
        (∀ j, j < a ∨ a + d.bytes.length ≤ j → Memory.read u.mem j = Memory.read s.mem j) ∧ u.dimm = s.dimm) ∧
    (∀ point, Safety.Arrives s h 0x0D → isSecondary s = true → s.pair.log = [] → ∃ u, exec (.mirrorEnd h point 1) s = .next u ∧
      u.pair.log = [{ ctx := c, point := point, count := some 1 }] ∧ u.mem = s.mem) ∧
    (∀ point, Safety.Arrives s h 0x0E → isPrimary s = true → s.pair.entering = false → ∃ u, exec (.mirrorAck h point) s = .next u ∧
      u.ctx c.val = some { k with
        secured := some point.toNat, unsecured := k.unsecured.filter (fun x => decide (point.toNat < x.1)), pairHold := s.pair.held && k.pairHold } ∧ u.mem = s.mem) ∧
    (∀ d : DataBody, Safety.Arrives s h 0x0F → isSecondary s = true → d.object = 0x00 → openTo s c d.address.toNat d.bytes.length = true →
      ∃ u, exec (.snapshotData h d) s = .next u ∧ u.ssRead d.address.toNat d.bytes.length = d.bytes ∧ u.ctxs = s.ctxs) ∧
    (∀ a : W64, Safety.Arrives s h 0x10 → s.pair.mode ≠ 3 ∨ levelWaits s = false → openTo s c a.toNat 4096 = true → a.toNat % 4096 = 0 → isPrimary s = false → ∃ u, exec (.copyReq h 0x00 a 4096) s = .next u ∧
      (u.pair.sent.getLast?).map (·.frame) = some (.copyData h.ctx (pieceBody s 0xFFFFFFFF (rowPiece s (a.toNat / 4096)))) ∧ u.mem = s.mem ∧ u.ctxs = s.ctxs) ∧
    (∀ o a n, Safety.Arrives s h 0x10 → s.pair.mode = 3 → levelWaits s = true → ∃ u, exec (.copyReq h o a n) s = .next u ∧
      u.pair.asked = s.pair.asked ++ [(c, o, a, n)] ∧ u.mem = s.mem ∧ u.ctxs = s.ctxs) ∧
    (∀ (d : DataBody) (r : Nat), Safety.Arrives s h 0x11 → isSecondary s = false → d.object = 0x00 → d.address.toNat = 4096 * r → d.bytes.length = 4096 →
      openTo s c (4096 * r) 4096 = true → k.restore = [r] → k.waitsFor = true → k.resumeDue = true → k.reset = .none → s.build.exchanges = [] →
      ∃ u, exec (.copyData h d) s = .next u ∧ u.ssRead (4096 * r) 4096 = d.bytes ∧
        u.ctx c.val = some { k with restore := [], waitsFor := false, halted := false, resumeDue := false }) ∧
    (k.changed = false → exec (.mirrorPointTimer c) s = .next s) ∧
    (k.changed = true → isPrimary s = true → s.pair.mode = 2 → k.securing ≠ .notSecured → ∃ u, exec (.mirrorPointTimer c) s = .next u ∧
      (∃ j, u.ctx c.val = some j ∧ j.point = k.point + 1 ∧ j.dirty = [] ∧ j.unsecured = k.unsecured ++ [(k.point + 1, k.dirty)] ∧
        j.freedSlots = [] ∧ j.changed = false ∧ j.securing = k.securing) ∧
      (∃ n, (u.pair.sent.getLast?).map (·.frame) = some (.mirrorEnd (BitVec.ofNat 8 c.val) (BitVec.ofNat 32 (k.point + 1)) n)) ∧ u.mem = s.mem ∧ u.dimm = s.dimm) ∧
    (isPrimary s = true → s.pair.silent = false → s.pair.mode = 2 ∨ s.pair.mode = 3 → k.securing = .syncing → k.changed = false →
      (∀ p ∈ k.used.keys, dataReads s k p = true ∧ summaryReads s k p = true) → ∃ u, exec (.snapshotPassComplete c) s = .next u ∧
      u.ctx c.val = some { k with securing := .secured, copying := [], returning := [] } ∧ u.mem = s.mem ∧ u.dimm = s.dimm) ∧
    (isPrimary s = false ∨ k.securing ≠ .syncing ∨ s.pair.silent = true ∨ (s.pair.mode ≠ 2 ∧ s.pair.mode ≠ 3) → exec (.snapshotPassComplete c) s = .next s) ∧
    (∀ r, isPrimary s = true → s.pair.mode = 2 → k.waitsFor = true → k.secured.getD 0 ≥ k.point → k.restore = [r] → ∃ u, exec (.stepRestore c) s = .next u ∧
      (u.pair.sent.getLast?).map (·.frame) = some (.copyReq (BitVec.ofNat 8 c.val) 0x00 (BitVec.ofNat 64 (4096 * r)) 4096) ∧ u.ctxs = s.ctxs ∧ u.mem = s.mem) ∧
    (k.waitsFor = false → exec (.stepRestore c) s = .next s)

/-- R433, R449 and R455 to R459: locked mode is entered once every context is secured; a probe goes out every 20 ms with a fresh nonce while the partner is silent, one of the own
pair is answered, and an answer counts once; a secondary whose probe stays unanswered takes over, with every context halted and the epoch counted up; a
primary that has held too long is fenced until it is released.
The model’s own choices among what this states are those of notes/assumptions/47.md (DEDUCED) and notes/assumptions/48.md (DEDUCED). -/
def Obligations.SilentPartnersAreReplaced : Prop :=
  ∀ (s : State),
    (∀ b, s.pair.partner = some b → s.pair.formed = true → s.pair.silent = false → s.pair.mode = 2 → agreedMode s b = 3 →
      (s.pair.role = .primary → (∀ e ∈ s.ctxs, e.2.securing = .secured) → noStepRuns s = true → allSecured s = true →
        ∃ u, exec .lockedModeEntry s = .next u ∧ u.pair.mode = 3 ∧ u.pair.entering = false ∧ u.mem = s.mem ∧
          ∀ j, u.ctx j = (s.ctx j).map Context.freshWindows) ∧
      (s.pair.role = .primary → (∀ e ∈ s.ctxs, e.2.securing = .secured) → noStepRuns s = false → ∃ u, exec .lockedModeEntry s = .next u ∧
        u.pair.mode = 2 ∧ u.pair.entering = true) ∧
      (s.pair.role = .secondary → ∃ u, exec .lockedModeEntry s = .next u ∧ u.pair.mode = 3 ∧ u.pair.reserved = [] ∧ u.mem = s.mem)) ∧
    (s.pair.formed = false → exec .lockedModeEntry s = .next (settle s s)) ∧
    (s.pair.formed = true → s.pair.silent = true → s.pair.departed = false → s.setting .cnsPartnerAddr ≠ 0 → s.mgmt.active ≠ none → s.pair.answered = false →
      (s.pair.probedAt = none → msTicks 1 ≤ s.since s.pair.silentAt) → (∀ t, s.pair.probedAt = some t → msTicks 20 ≤ s.since t) →
      s.since s.pair.silentAt ≤ msTicks 101 → ∃ u q, exec .probeSend s = .next u ∧ u.pair.probes = s.pair.probes ++ [.probe q] ∧ q.nonce = u.pair.nonce ∧ q.serial = s.serial ∧ q.epoch = s.pair.epoch ∧
        q.pairId = BitVec.ofNat 64 (s.setting .cnsPairId) ∧ u.pair.probing = true ∧ u.pair.probedAt = some s.now ∧ u.freeIx = s.freeIx + 1 ∧ u.ctxs = s.ctxs ∧ u.mem = s.mem) ∧
    (s.pair.formed = false ∨ s.pair.silent = false ∨ s.pair.departed = true ∨ s.pair.answered = true ∨ msTicks 101 < s.since s.pair.silentAt ∨
      (s.pair.probedAt = none ∧ s.since s.pair.silentAt < msTicks 1) ∨ (∃ t, s.pair.probedAt = some t ∧ s.since t < msTicks 20) →
      exec .probeSend s = .next s) ∧
    (∀ q : ProbeBody, q.pairId.toNat = s.setting .cnsPairId → managementUp s = true → exec (.probeReceive q) s =
      .next { s with pair := { s.pair with probes := s.pair.probes ++ [.probeAnswer (probeBody q.nonce s)] } }) ∧
    (∀ q : ProbeBody, q.pairId.toNat ≠ s.setting .cnsPairId → exec (.probeReceive q) s = .next s) ∧
    (∀ q : ProbeBody, answerCounts q s = true → isSecondary s = true →
      (q.running = true → ∃ u, exec (.probeAnswer q) s = .next u ∧ u.pair.role = .secondary ∧ u.pair.probing = false ∧ u.ctxs = s.ctxs) ∧
      (q.running = false → s.setting .cnsTakeover = 1 → managementUp s = true → ∃ u, exec (.probeAnswer q) s = .next u ∧ u.pair.role = .primary ∧
        u.pair.alone = true ∧ u.pair.epoch = s.pair.epoch + 1)) ∧
    (∀ q : ProbeBody, answerCounts q s = false → exec (.probeAnswer q) s = .next (settle s s)) ∧
    (isSecondary s = true → s.pair.silent = true → s.pair.answered = false → msTicks 101 ≤ s.since s.pair.silentAt → s.setting .cnsTakeover = 1 →
      managementUp s = true → ∃ u, exec .probeTimeout s = .next u ∧
      u.pair.formed = false ∧ u.pair.role = .primary ∧ u.pair.alone = true ∧ u.pair.epoch = s.pair.epoch + 1 ∧ (∀ x, x < 4 → (u.port x).lanes = 0) ∧
      (∀ c k, u.ctx c = some k → k.halted = true ∧ k.securing = .notSecured)) ∧
    (s.since s.pair.silentAt < msTicks 101 ∨ s.pair.answered = true ∨ s.pair.silent = false → exec .probeTimeout s = .next (settle s s)) ∧
    (isPrimary s = true → s.pair.silent = true → s.pair.answered = false → msTicks 101 ≤ s.since s.pair.silentAt → ∃ u, exec .probeTimeout s = .next u ∧ u.pair.probing = false ∧ u.pair.role = .primary ∧ u.ctxs = s.ctxs) ∧
    (isPrimary s = true → s.pair.silent = true → s.pair.held = true → msTicks (s.setting .cnsHoldMax) ≤ s.since s.pair.heldAt → s.ctxs.wf →
      ∃ u, exec .holdMaxExpiry s = .next u ∧ u.pair.fenced = true ∧ u.pair.held = false ∧
      (∀ c k, s.ctx c = some k → k.securing = .secured → ∃ j, u.ctx c = some j ∧ j.halted = true ∧ j.pairHold = false) ∧
      (∀ c k, s.ctx c = some k → k.securing ≠ .secured → u.ctx c = some k) ∧ u.mem = s.mem) ∧
    (s.pair.held = false ∨ s.since s.pair.heldAt < msTicks (s.setting .cnsHoldMax) → exec .holdMaxExpiry s = .next (settle s s)) ∧
    (s.mgmt.active ≠ none → Level.admin.rank ≤ s.mgmt.console.level.rank →
      (isSecondary s = true → s.setting .cnsTakeover = 0 → ∃ u, exec (.takeoverOrder .console) s = .next u ∧ u.pair.role = .primary ∧
        u.pair.epoch = s.pair.epoch + 1 ∧ .lines [] true ∈ u.mgmt.answers) ∧
      (isSecondary s = false ∨ s.setting .cnsTakeover = 1 → ∃ u, exec (.takeoverOrder .console) s = .next u ∧ u.pair = s.pair ∧ u.ctxs = s.ctxs) ∧
      (s.pair.fenced = true → ∃ u, exec (.pairFencedRelease .console) s = .next u ∧ u.pair = { s.pair with fenced := false } ∧ u.ctxs = s.ctxs)) ∧
    (∃ u, exec (.takeoverOrder .pldm) s = .next u ∧ u.pair = s.pair ∧ u.ctxs = s.ctxs) ∧
    (∃ u, exec (.pairFencedRelease .pldm) s = .next u ∧ u.pair = s.pair ∧ u.ctxs = s.ctxs)

/-! ### The management side (R462 to R486) -/

/-- R463 to R465: a standby that hears no heartbeat takes over, with the epoch counted up, the console logged out and the former die's error recorded;
with no service die working for 60 s a power cycle is requested.
The model’s own choices among what this states are those of notes/assumptions/23.md (DEDUCED) and notes/assumptions/44.md (DEDUCED). -/
def Obligations.ServiceDiesTakeOver : Prop :=
  ∀ (s : State),
    (s.mgmt.active = some 0 → s.mgmt.sv1.works = true → exec .serviceHeartbeat s = .next { s with mgmt := { s.mgmt with heardAt := some s.now } }) ∧
    (s.mgmt.active = none → exec .serviceHeartbeat s = .next s) ∧
    (s.mgmt.active = some 0 → s.mgmt.sv1.works = true → ∃ u, exec .standbyTakeover s = .next u ∧ u.mgmt.active = some 1 ∧ u.mgmt.sv0.works = false ∧
      u.mgmt.epoch = s.mgmt.epoch + 1 ∧ u.mgmt.console.level = .none ∧ u.mgmt.sessions = s.mgmt.sessions ∧
      (∃ t ∈ u.errs.tests, t.cls = 0x14 ∧ t.unit = dieUnit 0x00 105 0 0 0) ∧ u.parts = s.parts ∧ u.ctxs = s.ctxs ∧ u.mem = s.mem) ∧
    (s.mgmt.active = some 0 → s.mgmt.sv1.works = false → exec .standbyTakeover s = .next (settle s s)) ∧
    (s.mgmt.active = none → s.life.firmware ≠ .none → s.mgmt.sv0.works = false → s.mgmt.sv1.works = true → ∃ u, exec .standbyTakeover s = .next u ∧
      u.mgmt.active = some 1 ∧ u.mgmt.epoch = s.mgmt.epoch + 1) ∧
    (∀ t, s.mgmt.sv0.works = false → s.mgmt.sv1.works = false → s.mgmt.graceNo = some t → 60 * ticksPerSecond ≤ s.since t → ∃ u, exec .noServiceDieTimeout s = .next u ∧
      u.life.cycleReason = some 0x02 ∧ u.life.cyclePulses = s.life.cyclePulses + 1 ∧ u.mgmt.graceNo = none ∧ u.mem = s.mem) ∧
    (noServiceDie s = false ∨ (∀ t, s.mgmt.graceNo = some t → s.since t < 60 * ticksPerSecond) → exec .noServiceDieTimeout s = .next (settle s s))

/-- R466 to R471: a session, or HTTP Basic, reads with any role and writes a setting as an administrator, by its revision and in its range; an operator locates, caps, resets and orders power
states; a login makes a session; what a role may not do, what is out of range and what does not exist is answered so and changes nothing.
The model’s own choices among what this states are those of notes/assumptions/49.md (PRESUMED). -/
def Obligations.RedfishRequestsActByRole : Prop :=
  ∀ (s : State) (n : Nat) (who : Auth) (x : Nat × Role),
    (redfishServed s = false → (∀ r, exec (.redfishGet who r) s = .next s) ∧ (∀ a b, exec (.redfishSessionCreate a b) s = .next s) ∧
      exec (.redfishUnknownUri who) s = .next s) ∧
    (∀ r, Safety.Authorised s who x .readOnly → ∃ u, exec (.redfishGet who r) s = .next u ∧ Safety.Replied u (resourceAnswer u r) ∧
      u = { s with mgmt := u.mgmt } ∧
      ∀ y, who = .session n → s.mgmt.sessions.find n = some y → u.mgmt.sessions.find n = some { y with last := s.now }) ∧
    (∀ r, redfishServed s = true → requester s who = none → ∃ u, exec (.redfishGet who r) s = .next u ∧ Safety.Replied u (.redfish 401 []) ∧
      u = { s with mgmt := u.mgmt }) ∧
    (redfishServed s = true → ∃ u, exec (.redfishUnknownUri who) s = .next u ∧ Safety.Replied u (.redfish 404 []) ∧ u = { s with mgmt := u.mgmt }) ∧
    (∀ k v, Safety.Authorised s who x .administrator → settingFits s.maxCap k v = true → k ≠ .cnsMode → ∃ u,
      exec (.redfishSettingsWrite who (some s.settings.rev) (some k) v) s = .next u ∧ u.setting k = v ∧ u.settings.rev = s.settings.rev + 1 ∧
      (∀ j, j ≠ k → u.setting j = s.setting j) ∧ (s.flash0.works = true → u.flash0.settings = u.settings) ∧
      (s.flash1.works = true → u.flash1.settings = u.settings) ∧ u.parts = s.parts ∧ u.mem = s.mem) ∧
    (∀ k v e, Safety.Authorised s who x .administrator → (e ≠ s.settings.rev ∨ settingFits s.maxCap k v = false) → ∃ u,
      exec (.redfishSettingsWrite who (some e) (some k) v) s = .next u ∧ u.settings = s.settings ∧
      Safety.Replied u (.redfish (if e ≠ s.settings.rev then 412 else 400) [])) ∧
    (∀ e k v, Safety.Authorised s who x .readOnly → roleRank x.2 < 2 → ∃ u, exec (.redfishSettingsWrite who e k v) s = .next u ∧ u.settings = s.settings ∧
      Safety.Replied u (.redfish 403 [])) ∧
    (∀ b, Safety.Authorised s who x .operator → ∃ u, exec (.redfishLocate who b) s = .next u ∧ u.bin = { s.bin with locate := b } ∧ Safety.Replied u (.redfish 200 [])) ∧
    (∀ w, Safety.Authorised s who x .operator → capFits s w = true → ∃ u, exec (.redfishPowerLimit who w) s = .next u ∧ 100 * u.setting .pwrCap = w) ∧
    (∀ w, Safety.Authorised s who x .operator → capFits s w = false → ∃ u, exec (.redfishPowerLimit who w) s = .next u ∧ u.settings = s.settings ∧
      Safety.Replied u (.redfish 400 [])) ∧
    (Safety.Authorised s who x .operator → ∃ u, exec (.redfishReset who .powerCycle) s = .next u ∧ u.life.cycleReason = some 0x03 ∧
      u.life.cyclePulses = s.life.cyclePulses + 1) ∧
    (Safety.Authorised s who x .operator → s.life.phase = .running → s.life.power ≠ .off → s.life.entering = none → s.update.phase = .idle →
      ∃ u, exec (.redfishReset who .forceRestart) s = .next u ∧ u.life.phase = .warm .sitesDown ∧ u.life.ready = false) ∧
    (∀ f, Safety.Authorised s who x .operator → s.pair.formed = false → s.update.phase ≠ .idle → ∃ u, exec (.redfishSetPowerState who .doze f) s = .next u ∧
      u.update.waiting = s.update.waiting ++ [{ state := .doze, force := f }]) ∧
    (Safety.Authorised s who x .operator → s.ctxs ≠ [] → s.pair.formed = false → ∃ u, exec (.redfishSetPowerState who .off false) s = .next u ∧
      Safety.Replied u (.redfish 409 []) ∧ u.life = s.life ∧ u.ctxs = s.ctxs) ∧
    (Safety.Authorised s who x .administrator → s.mgmt.active = some 0 → s.mgmt.sv1.works = true → ∃ u, exec (.redfishFailover who) s = .next u ∧
      u.mgmt.active = some 1 ∧ u.mgmt.epoch = s.mgmt.epoch + 1 ∧ u.mgmt.sv0 = s.mgmt.sv0) ∧
    (∀ a, s.account n = some a → redfishServed s = true → s.mgmt.sessions.length < 32 → ∃ u, exec (.redfishSessionCreate n a.password) s = .next u ∧
      Safety.Replied u (.redfish 201 [s.mgmt.nextSession]) ∧
      u.mgmt.sessions.find s.mgmt.nextSession = some { account := n, role := a.role, timeout := s.setting .svcSessionTimeout, last := s.now }) ∧
    (∀ a w, s.account n = some a → redfishServed s = true → w ≠ a.password → ∃ u, exec (.redfishSessionCreate n w) s = .next u ∧
      Safety.Replied u (.redfish 401 []) ∧ u.mgmt.sessions = s.mgmt.sessions) ∧
    (∀ y, s.mgmt.sessions.find n = some y → y.timeout * ticksPerSecond ≤ s.since y.last →
      exec (.sessionTimeout n) s = .next { s with mgmt := { s.mgmt with sessions := s.mgmt.sessions.drop n } }) ∧
    ((∀ y, s.mgmt.sessions.find n = some y → s.since y.last < y.timeout * ticksPerSecond) → exec (.sessionTimeout n) s = .next s) ∧
    (∀ m p r, Safety.Authorised s who x .administrator → s.account m = none → s.mgmt.accounts.length < 16 → ∃ u,
      exec (.redfishAccountWrite who (.create m p r)) s = .next u ∧ u.mgmt.accounts = s.mgmt.accounts ++ [⟨m, p, r, false⟩]) ∧
    (∀ a p, s.account x.1 = some a → a.mustChange = true → redfishServed s = true → requester s who = some x →
      (∃ u, exec (.redfishAccountWrite who (.password x.1 p)) s = .next u ∧ Safety.Replied u (.redfish 200 []) ∧
        u.mgmt.accounts = s.mgmt.accounts.map (fun b => if b.name = x.1 then { b with password := p, mustChange := false } else b)) ∧
      (∀ b, ∃ u, exec (.redfishLocate who b) s = .next u ∧ u.bin = s.bin ∧ Safety.Replied u (.redfish 403 [])))

/-- R472 to R484: a record goes out while a collector is set and reachable, and is kept where it may be when it is not; a kept one goes out when the collector
returns; a day's sample is added to the logbook; and the tray controller reads sensors and orders states.
The model’s own choices among what this states are those of notes/assumptions/12.md (DEDUCED) and notes/assumptions/50.md (DEDUCED). -/
def Obligations.RecordsAreSentKeptAndRead : Prop :=
  ∀ (s : State), s.mgmt.active ≠ none →
    (s.setting .svcCollectorAddr ≠ 0 → s.setting .svcStreamLevel = 2 → collectorDown s = false →
      (∀ v w j, ∃ u, exec (.moduleRecord v w j) s = .next u ∧ u.mgmt.stream = s.mgmt.stream ++ [.module (serviceNow s) (moduleFields v w j s)] ∧ u.mgmt.seq = s.mgmt.seq + 1 ∧
        u = { s with mgmt := u.mgmt }) ∧
      (∀ (d : DieId) b j low, ∃ u f, exec (.dieHealthRecord d b j low) s = .next u ∧ u.mgmt.stream = s.mgmt.stream ++ [.die d (serviceNow s) f] ∧
        (u.die d.val).health = some (serviceNow s, f) ∧ (u.die d.val).droops = 0 ∧ (u.die d.val).detections = 0 ∧ (u.die d.val).vMin = 0 ∧
        u = { s with mgmt := u.mgmt, dies := u.dies, log := u.log }) ∧
      (∀ d : DieId, ∃ u, exec (.counterRecord d) s = .next u ∧ u.mgmt.stream = s.mgmt.stream ++ [.counters d (serviceNow s) (counterEntries s d.val)] ∧
        u = { s with mgmt := u.mgmt }) ∧
      (∀ (c : CtxId) k, s.ctx c.val = some k → k.energySteps ≠ 0 → ∃ u f, exec (.energyRecord c) s = .next u ∧ u.mgmt.stream = s.mgmt.stream ++ [.energy c f] ∧
        u.ctx c.val = some { k with energyLast := k.energyMj, clusterLast := k.clusterMj, msLast := k.clusterMs, energyFrom := serviceNow s, energySteps := 0, energyTokens := 0 })) ∧
    (s.setting .svcCollectorAddr ≠ 0 → s.setting .svcStreamLevel = 2 → collectorDown s = true → s.mgmt.kept.length < 4096 →
      ∀ (c : CtxId) k, s.ctx c.val = some k → k.energySteps ≠ 0 → ∃ u f, exec (.energyRecord c) s = .next u ∧ u.mgmt.kept = s.mgmt.kept ++ [.energy c f] ∧
        u.mgmt.stream = s.mgmt.stream) ∧
    (s.setting .svcCollectorAddr = 0 → ∀ d : DieId, exec (.counterRecord d) s = .next s) ∧
    (∀ (c : CtxId), s.ctx c.val = none → exec (.energyRecord c) s = .next s) ∧
    (s.bin.ethernet = true → s.setting .svcCollectorAddr ≠ 0 → ∃ u, exec .collectorReachable s = .next u ∧ u.mgmt.reachable = true ∧ u.mgmt.kept = [] ∧
      u.mgmt.stream = s.mgmt.stream ++ s.mgmt.kept.filter (fun r => decide (r.level ≤ s.setting .svcStreamLevel)) ∧ u = { s with mgmt := u.mgmt }) ∧
    exec .collectorUnreachable s = .next { s with mgmt := { s.mgmt with reachable := false } } ∧
    (∀ (d : DieId) a0 a1 v, (s.log.daily.getD d.val []).length < 3653 → ∃ u y, exec (.dailySample d a0 a1 v) s = .next u ∧
      u.log.daily.getD d.val [] = s.log.daily.getD d.val [] ++ [y] ∧ y.age0 = a0 ∧ y.age1 = a1 ∧ y.lifeSec = s.reck.lifeSec ∧
      (u.die d.val).age0 = a0 ∧ u = { s with dies := u.dies, log := u.log }) ∧
    (s.mgmt.netDue = true → ∃ u, exec .ipSettingsTakeEffect s = .next u ∧ u.mgmt.netDue = false ∧
      u.mgmt.net = [.svcIpMode, .svcIpv4, .svcIpv6, .svcHttpsPort].map (fun k => (settingNum k, s.setting k)) ∧ u = { s with mgmt := u.mgmt }) ∧
    (s.mgmt.netDue = false → exec .ipSettingsTakeEffect s = .next s) ∧
    (∀ i v, pldmSensor s i = some v → exec (.pldmSensorRead i) s = .next (answer (.pldm v) s)) ∧
    (∀ i, 14 ≤ i → exec (.pldmSensorRead i) s = .next (answer (.refusal 1) s)) ∧
    (∀ v : Byte, 5 < v.toNat → ∃ u, exec (.pldmPowerStateEffecter v) s = .next u ∧ Safety.Replied u (.refusal 1) ∧ u.life = s.life) ∧
    (s.update.phase ≠ .idle → s.pair.formed = false → ∃ u, exec (.pldmPowerStateEffecter 2) s = .next u ∧ Safety.Replied u (.pldm 0) ∧
      u.update.waiting = s.update.waiting ++ [{ state := .doze }]) ∧
    (s.life.phase = .running → s.life.power ≠ .off → s.life.entering = none → s.update.phase = .idle → ∃ u, exec (.pldmModuleResetEffecter 1) s = .next u ∧
      u.life.phase = .warm .sitesDown ∧ Safety.Replied u (.pldm 0)) ∧
    (∀ v : Byte, v ≠ 1 → ∃ u, exec (.pldmModuleResetEffecter v) s = .next u ∧ u.life = s.life ∧ Safety.Replied u (.refusal 1))

/-! ### Uasimon (R487 to R489, R516 to R518, R521) -/

/-- R488, R489 and R521: a command that reads answers at its level and changes nothing but the answers and the session's clock; a line below its level, malformed or
unknown is answered with its error.
The model’s own choices among what this states are those of notes/assumptions/51.md (DEDUCED). -/
def Obligations.ConsoleReadsAnswerByLevel : Prop :=
  ∀ (s : State),
    (consoleServed s = false → ∀ c f, Safety.ConsoleRead c f → exec c s = .next s) ∧
    (consoleServed s = true → ∀ c f, Safety.ConsoleRead c f → Level.view.rank ≤ (consoleLevel s).rank → ∃ u, exec c s = .next u ∧
      Safety.Replied u (f u) ∧ u = { s with mgmt := { s.mgmt with answers := u.mgmt.answers, console := { s.mgmt.console with last := s.now } } }) ∧
    (consoleServed s = true → (consoleLevel s).rank = 0 → (∀ c f, Safety.ConsoleRead c f → ∃ u, exec c s = .next u ∧ Safety.Replied u (.err errLevel)) ∧
      (∃ u, exec (.help (some none)) s = .next u ∧ Safety.Replied u (.text (Config.helpText []))) ∧
      (∃ u, exec (.id (some ())) s = .next u ∧ u.mgmt.answers.length = s.mgmt.answers.length + 1)) ∧
    (consoleServed s = true → ∀ l, exec (.unknownCommand l) s = .next (if l = [] then consoleInput s else answer (.err errUnknown) (consoleInput s))) ∧
    (consoleServed s = true → Level.view.rank ≤ (consoleLevel s).rank →
      (∀ d : DieId, ∃ u, exec (.health (some (dieSite d.val))) s = .next u ∧ Safety.Replied u (lastHealth s d.val)) ∧
      (∀ d : DieId, ∃ u, exec (.counters (some (dieSite d.val))) s = .next u ∧ Safety.Replied u (.record (.counters d (serviceNow s) (counterEntries s d.val)))) ∧
      (∀ d : DieId, ∃ u, exec (.logbook (some ((dieSite d.val).1, (dieSite d.val).2, none))) s = .next u ∧ Safety.Replied u (.logbook (logbookOf s d.val 3653))) ∧
      (∀ x y, dieAt x y = none → ∃ u, exec (.health (some (x, y))) s = .next u ∧ Safety.Replied u (.err errNotFound)) ∧
      (∀ c k, s.ctx c = some k → (∃ u, exec (.lookout (some c)) s = .next u ∧ Safety.Replied u (.lookout k.lookout)) ∧
        (∀ v m, k.vmarks.find v = some m → ∃ u, exec (.mark (some (c, v))) s = .next u ∧ Safety.Replied u (.bytes (inspection s 0 m.val)))) ∧
      (∀ n, ∃ u, exec (.markPhys (some n)) s = .next u ∧ Safety.Replied u (if n < 8192 then .bytes (inspection s 0 n) else .err errNotFound)) ∧
      (∃ u, exec (.markPhys none) s = .next u ∧ Safety.Replied u (.err errSyntax)))

/-- R488, R489, R516 to R518: a login by password makes a session, a third failure locks the console for its time, and a session that ends loses its level; an order is
carried out at its level and answered with the error of its refusal; an unlock object that fits uses the nonce up and lets a DEBUG context's granules be read.
The model’s own choices among what this states are those of notes/assumptions/6.md (DESIGN CHOICE) and notes/assumptions/51.md (DEDUCED). -/
def Obligations.ConsoleOrdersActByLevel : Prop :=
  ∀ (s : State), s.mgmt.active ≠ none →
    (∀ a, s.account a.name = some a → s.mgmt.console.locked = false → ∃ u, exec (.login (some (a.name, a.password))) s = .next u ∧
      u.mgmt.console.level = roleLevel a.role ∧ u.mgmt.console.failures = 0 ∧ u.mgmt.console.account = a.name ∧ Safety.Replied u (.lines [] true)) ∧
    (∀ n w, (∀ a, s.account n = some a → a.password ≠ w) → s.mgmt.console.locked = false → ∃ u, exec (.login (some (n, w))) s = .next u ∧
      Safety.Replied u (.err errLogin) ∧ u.mgmt.console.level = s.mgmt.console.level ∧ u.mgmt.console.locked = decide (2 ≤ s.mgmt.console.failures) ∧
      u.mgmt.console.failures = (if 2 ≤ s.mgmt.console.failures then 0 else s.mgmt.console.failures + 1)) ∧
    (∀ n w, s.mgmt.console.locked = true → ∃ u, exec (.login (some (n, w))) s = .next u ∧ u.mgmt.console.level = s.mgmt.console.level ∧
      ((∃ a, s.account n = some a ∧ a.password = w) → Safety.Replied u (.err errLocked)) ∧
      ((∀ a, s.account n = some a → a.password ≠ w) → Safety.Replied u (.err errLogin))) ∧
    (30 * ticksPerSecond ≤ s.since s.mgmt.console.lockedAt →
      exec .consoleLockExpiry s = .next { s with mgmt := { s.mgmt with console := { s.mgmt.console with locked := false } } }) ∧
    (s.since s.mgmt.console.lockedAt < 30 * ticksPerSecond → exec .consoleLockExpiry s = .next s) ∧
    (s.since s.mgmt.console.last < s.mgmt.console.idle * ticksPerSecond → exec .consoleIdleTimeout s = .next s) ∧
    (s.mgmt.console.idle * ticksPerSecond ≤ s.since s.mgmt.console.last → ∃ u, exec .consoleIdleTimeout s = .next u ∧ u.mgmt.console.level = .none ∧ u.mgmt.console.unlocked = none ∧ u.mgmt.console.nonce = none ∧
      u = { s with mgmt := { s.mgmt with console := u.mgmt.console } }) ∧
    (Level.view.rank ≤ (consoleLevel s).rank → ∃ u, exec (.logout (some ())) s = .next u ∧ u.mgmt.console.level = .none ∧ Safety.Replied u (.lines [] true)) ∧
    (Level.operate.rank ≤ (consoleLevel s).rank →
      (∀ b, ∃ u, exec (.locate (some b)) s = .next u ∧ u.bin = { s.bin with locate := b } ∧ Safety.Replied u (.lines [] true)) ∧
      (∀ w, capFits s w = true → ∃ u, exec (.cap (some w)) s = .next u ∧ 100 * u.setting .pwrCap = w ∧ u.parts = s.parts ∧ u.mem = s.mem) ∧
      (∀ w, capFits s w = false → ∃ u, exec (.cap (some w)) s = .next u ∧ u.settings = s.settings ∧ Safety.Replied u (.err errRange5)) ∧
      (∀ f, s.pair.formed = false → s.update.phase ≠ .idle → ∃ u, exec (.power (some (.sleep, f))) s = .next u ∧
        u.update.waiting = s.update.waiting ++ [{ state := .sleep, force := f }] ∧ Safety.Replied u (.lines [] true)) ∧
      (s.ctxs ≠ [] → s.pair.formed = false → ∃ u, exec (.power (some (.off, false))) s = .next u ∧ u.life = s.life ∧ Safety.Replied u (.err errRefused)) ∧
      (s.life.phase = .running → s.life.power ≠ .off → s.life.entering = none → s.update.phase = .idle → ∃ u, exec (.resetModule (some ())) s = .next u ∧
        u.life.phase = .warm .sitesDown ∧ Safety.Replied u (.lines [] true)) ∧
      (∃ u, exec (.powercycle (some ())) s = .next u ∧ u.life.cycleReason = some 0x04 ∧ u.life.cyclePulses = s.life.cyclePulses + 1)) ∧
    ((consoleLevel s).rank < Level.operate.rank → (∀ b, ∃ u, exec (.locate (some b)) s = .next u ∧ u.bin = s.bin ∧ Safety.Replied u (.err errLevel)) ∧
      (∃ u, exec (.powercycle (some ())) s = .next u ∧ u.life = s.life ∧ Safety.Replied u (.err errLevel))) ∧
    (Level.admin.rank ≤ (consoleLevel s).rank →
      (∀ k v, settingFits s.maxCap k v = true → k ≠ .cnsMode → ∃ u, exec (.setSetting (some (some k, v, some s.settings.rev))) s = .next u ∧ u.setting k = v ∧
        u.settings.rev = s.settings.rev + 1 ∧ Safety.Replied u (.lines [] true)) ∧
      (∀ k v r, settingFits s.maxCap k v = true → r ≠ s.settings.rev → ∃ u, exec (.setSetting (some (some k, v, some r))) s = .next u ∧ u.settings = s.settings ∧
        Safety.Replied u (.err errStale)) ∧
      (∀ k v r, settingFits s.maxCap k v = false → ∃ u, exec (.setSetting (some (some k, v, r))) s = .next u ∧ u.settings = s.settings ∧
        Safety.Replied u (.err errRange5)) ∧
      (s.mgmt.active = some 0 → s.mgmt.sv1.works = true → ∃ u, exec (.failover (some ())) s = .next u ∧ u.mgmt.active = some 1 ∧ u.mgmt.console.level = .none) ∧
      (failoverTo s = none → ∃ u, exec (.failover (some ())) s = .next u ∧ u.mgmt.active = s.mgmt.active ∧ Safety.Replied u (.err errRefused)) ∧
      (∃ u, exec (.unlock (some none)) s = .next u ∧ u.mgmt.console.nonce = some (Config.nonce s.mgmt.console.nonces, s.now) ∧
        u.mgmt.console.nonces = s.mgmt.console.nonces + 1 ∧ u.mgmt.console.unlocked = none) ∧
      (∀ x, unlockFits s x = true → ∃ u, exec (.unlock (some (some x))) s = .next u ∧ u.mgmt.console.nonce = none ∧
        u.mgmt.console.unlocked = some (x.lifetime, s.now, bit x.perms 0)) ∧
      (∀ x, unlockFits s x = false → ∃ u, exec (.unlock (some (some x))) s = .next u ∧ u.mgmt.console.nonce = none ∧
        u.mgmt.console.unlocked = s.mgmt.console.unlocked ∧ Safety.Replied u (.err errUnlock))) ∧
    (∀ l t b, s.mgmt.console.unlocked = some (l, t, b) →
      (l.toNat * ticksPerSecond ≤ s.since t → exec .unlockExpiry s = .next { s with mgmt := { s.mgmt with console := { s.mgmt.console with unlocked := none } } }) ∧
      (s.since t < l.toNat * ticksPerSecond → exec .unlockExpiry s = .next s)) ∧
    (s.mgmt.console.unlocked = none → exec .unlockExpiry s = .next s) ∧
    (∀ (c : CtxId) k a n l t, s.ctx c.val = some k → s.mgmt.console.unlocked = some (l, t, true) → s.mgmt.console.level = .admin → k.debug = true → 1 ≤ n →
      n ≤ 4096 → a + n ≤ 100 * segmentBytes → openTo s c a n = true → ∃ u, exec (.dump (some (c.val, a, n))) s = .next u ∧
        Safety.Replied u (.bytes (s.ssRead a n)) ∧ u.mem = s.mem) ∧
    (∀ a, s.mgmt.console.unlocked = none → s.mgmt.console.level ≠ .vendor → ∃ u, exec (.dump a) s = .next u ∧ Safety.Replied u (.err errLevel))

/-! ### Packages, the relay and activation (R491 to R509, R511) -/

/-- R496 to R499 and R511: a package is taken by an administrator or the tray controller, never by the console; one that fails a check is answered with that check's code and changes
nothing stored; one that passes is stored in both flash copies, and a record or a revision takes effect at the next start.
The model’s own choices among what this states are those of notes/assumptions/6.md (DESIGN CHOICE) and notes/assumptions/52.md (DEDUCED). -/
def Obligations.PackagesAreCheckedAndStored : Prop :=
  ∀ (s : State) (k : Package),
    exec (.packageReceive .console k) s = .next (settle s s) ∧
    (s.mgmt.active = none → exec (.packageReceive .pldm k) s = .next (settle s s)) ∧
    (∀ c, s.mgmt.active ≠ none → packageBad s k = some c → ∃ u, exec (.packageReceive .pldm k) s = .next u ∧ Safety.Replied u (.refusal c.toNat) ∧
      u.flash0 = s.flash0 ∧ u.flash1 = s.flash1 ∧ u.update = s.update ∧ .note .packageRefused c.toNat 0 ∈ u.mgmt.notes) ∧
    (∀ who x c, Safety.Authorised s who x .administrator → packageBad s k = some c → ∃ u, exec (.packageReceive (.redfish who) k) s = .next u ∧
      Safety.Replied u (.refusal c.toNat) ∧ u.flash0 = s.flash0 ∧ u.update = s.update) ∧
    (∀ who x, Safety.Authorised s who x .readOnly → roleRank x.2 < 2 → ∃ u, exec (.packageReceive (.redfish who) k) s = .next u ∧
      Safety.Replied u (.redfish 403 []) ∧ u.flash0 = s.flash0 ∧ u.update = s.update) ∧
    (s.update.relaying = true → packageBad s k = some refBusy) ∧
    (∀ r, s.mgmt.active ≠ none → packageBad s k = none → k.object = .record r → s.flash0.works = true → s.flash1.works = true → ∃ u,
      exec (.packageReceive .pldm k) s = .next u ∧ u.flash0 = { s.flash0 with nextRecord := some r } ∧ u.flash1 = { s.flash1 with nextRecord := some r } ∧
      u.build.record = s.build.record ∧ Safety.Replied u (.task s.mgmt.tasks)) ∧
    (∀ r, s.mgmt.active ≠ none → packageBad s k = none → k.object = .revision r → s.flash0.works = true → ∃ u, exec (.packageReceive .pldm k) s = .next u ∧
      u.flash0 = { s.flash0 with nextRevision := some r } ∧ u.build.chart = s.build.chart) ∧
    (∀ m, s.mgmt.active ≠ none → packageBad s k = none → k.object = .manifest m → m.recovery = false → s.flash0.works = true → idleBank s = 1 → ∃ u,
      exec (.packageReceive .pldm k) s = .next u ∧ u.flash0 = { s.flash0 with bankB := ⟨some m, blockSlot k.block, k.images⟩ } ∧ u.update.staged = some m ∧ u.update.active = s.update.active)

/-- R500 to R503: a block that passes its CRC is kept, in whatever order it comes, and goes on in order; a missing one is asked for at most eight times, 20 µs apart; a relay
whose block stays missing, whose die reports another digest, or reports none in time, fails.
The model’s own choices among what this states are those of notes/assumptions/52.md (DEDUCED). -/
def Obligations.TheRelayGoesDieByDie : Prop :=
  ∀ (s : State) (c : RelayChain) (d : Nat), s.update.relaying = true → d ∈ chainDies s c →
    (∀ (n : W32), (s.relayDie d).complete = false → (s.relayDie d).ahead = [] → (s.relayDie d).next + 1 < n.toNat → (chainDies s c).getLast? ≠ some d → ∃ u,
      exec (.relayBlock c d (BitVec.ofNat 32 (s.relayDie d).next) n true) s = .next u ∧ (u.relayDie d).next = (s.relayDie d).next + 1 ∧
      (u.relayDie d).complete = false ∧ u.update.forwarded = s.update.forwarded ++ [(d, BitVec.ofNat 32 (s.relayDie d).next)] ∧
      (∀ j, j ≠ d → u.relayDie j = s.relayDie j)) ∧
    (∀ (b n : W32), (s.relayDie d).complete = false → (s.relayDie d).next < b.toNat → b.toNat < n.toNat → b.toNat ∉ (s.relayDie d).ahead →
      (s.relayDie d).next ∉ (s.relayDie d).ahead → ∃ u, exec (.relayBlock c d b n true) s = .next u ∧ b.toNat ∈ (u.relayDie d).ahead ∧
      (u.relayDie d).next = (s.relayDie d).next ∧ u.update.forwarded = s.update.forwarded) ∧
    (∀ b n, exec (.relayBlock c d b n false) s = .next s) ∧
    (∀ (b n : W32), n.toNat ≤ b.toNat ∨ b.toNat < (s.relayDie d).next ∨ b.toNat ∈ (s.relayDie d).ahead ∨ (s.relayDie d).complete = true →
      exec (.relayBlock c d b n true) s = .next s) ∧
    (∀ b : W32, (s.relayDie d).complete = false → (∀ t, (s.relayDie d).askedAt = some t → 80000 ≤ s.since t) → (s.relayDie d).next ≤ b.toNat →
      b.toNat ∉ (s.relayDie d).ahead →
      ((s.relayDie d).asks.getD b.toNat 0 < 8 → ∃ u, exec (.relayBlockRequest c d b) s = .next u ∧ u.update.requests = s.update.requests ++ [(d, b)] ∧
        (u.relayDie d).asks.getD b.toNat 0 = (s.relayDie d).asks.getD b.toNat 0 + 1 ∧ (u.relayDie d).askedAt = some s.now) ∧
      (8 ≤ (s.relayDie d).asks.getD b.toNat 0 → ∃ u, exec (.relayBlockRequest c d b) s = .next u ∧ u.update.relaying = false)) ∧
    (∀ b t, (s.relayDie d).askedAt = some t → s.since t < 80000 → exec (.relayBlockRequest c d b) s = .next s) ∧
    (∀ h, (s.relayDie d).complete = true ∨ c = .compute → chainHash s c ≠ some h → ∃ u, exec (.relayDigestReport c d h) s = .next u ∧ u.update.relaying = false ∧
      u.update.relayed = s.update.relayed) ∧
    (∀ h e, (s.relayDie d).complete = true ∨ c = .compute → chainHash s c = some h → e ∈ chainDies s c → e ≠ d → (s.relayDie e).digest = none → ∃ u,
      exec (.relayDigestReport c d h) s = .next u ∧ (u.relayDie d).digest = some h ∧ (u.die d).other = some h ∧ u.update.relaying = true ∧ u.update.relayed = s.update.relayed) ∧
    ((s.relayDie d).digest = none → ∃ u, exec (.relayTimeout c d) s = .next u ∧ u.update.relaying = false) ∧
    (∀ h, (s.relayDie d).digest = some h → exec (.relayTimeout c d) s = .next s)

/-- R504 to R507: a relayed update is activated by the standby's restart, a hold on steps, a switch at a whole millisecond and a commit, which alone writes the anti-rollback
log; a failure before it leaves the running version.
The model’s own choices among what this states are those of notes/assumptions/52.md (DEDUCED). -/
def Obligations.ActivationGoesStageByStage : Prop :=
  ∀ (s : State) (m : Manifest), s.mgmt.active ≠ none → s.update.staged = some m →
    (s.update.relaying = false → s.update.phase = .idle → s.pair.formed = false → s.life.firmware ≠ .recovery → s.update.relayed = true → ∃ u,
      exec (.activationOrder .pldm) s = .next u ∧ u.update.phase = .standbyRestart ∧ u.update.staged = some m ∧ u.flash0 = s.flash0 ∧
      Safety.Replied u (.task s.mgmt.tasks)) ∧
    (s.update.relaying = true ∨ s.update.phase ≠ .idle → ∃ u, exec (.activationOrder .pldm) s = .next u ∧ Safety.Replied u (.refusal refBusy.toNat) ∧
      u.update = s.update) ∧
    (s.update.relaying = false → s.update.phase = .idle → s.pair.formed = true → s.pair.mode = 3 → ∃ u, exec (.activationOrder .pldm) s = .next u ∧
      Safety.Replied u (.refusal refLocked.toNat) ∧ u.update = s.update) ∧
    exec (.activationOrder .console) s = .next (settle s s) ∧
    (s.update.phase = .standbyRestart → ∃ u, exec (.standbyNewVersion m.version) s = .next u ∧ u.update.phase = .hold ∧ u.parts = s.parts) ∧
    (∀ v, v ≠ m.version → exec (.standbyNewVersion v) s = .next s) ∧
    (s.update.phase = .hold → noStepRuns s = true → ∃ u, exec .activationHoldDrained s = .next u ∧ u.update.phase = .switching (switchTime (serviceNow s))) ∧
    (s.update.phase = .hold → noStepRuns s = false → exec .activationHoldDrained s = .next (settle s s)) ∧
    (∀ t : W64, t.toNat < 2 ^ 63 → (switchTime t).toNat % 4000000 = 0 ∧ t.toNat + 400000 ≤ (switchTime t).toNat ∧
      (switchTime t).toNat < t.toNat + 4400000) ∧
    (∀ t, s.update.phase = .switching t → t.toNat ≤ (serviceNow s).toNat → ∃ u, exec .activationSwitch s = .next u ∧ u.update.phase = .checking t ∧
      u.update.active = s.update.active ∧ u.flash0 = s.flash0 ∧ u.update.seg96 = s.update.seg96Next ∧ u.update.seg96Next = s.update.seg96 ∧
      ((s.die hostDie).failed = false → (u.die hostDie).active = (s.die hostDie).other ∧ (u.die hostDie).other = (s.die hostDie).active)) ∧
    (∀ t, s.update.phase = .switching t → (serviceNow s).toNat < t.toNat → exec .activationSwitch s = .next (settle s s)) ∧
    (s.update.phase = .idle → exec .activationSwitch s = .next (settle s s) ∧ exec .activationCommit s = .next (settle s s) ∧
      ∀ b, exec (.activationFailed b) s = .next (settle s s)) ∧
    (∀ t, s.update.phase = .checking t → s.update.waiting = [] → s.life.resetWaits = false → s.fns = [] → s.flash0.works = true → s.flash0.log = [] →
      s.flash1.works = false → ∃ u, exec .activationCommit s = .next u ∧ u.update.phase = .idle ∧ u.update.staged = none ∧ u.update.active = m.version ∧
        u.update.running = some m ∧ u.life.firmware = .bank 1 false ∧
        u.flash0.log = [{ seq := 1, fwSv := larger 0 m.securityVersion, keyRevoked := 0 ||| m.keyRevoke, activeBank := 1 }]) ∧
    (∀ b, s.update.phase ≠ .idle → s.update.waiting = [] → s.life.resetWaits = false → s.fns = [] → ∃ u, exec (.activationFailed b) s = .next u ∧
      u.update.phase = .idle ∧ u.update.active = s.update.active ∧ u.update.staged = some m ∧ u.flash0.log = s.flash0.log ∧
      .refusal refActivation.toNat ∈ u.mgmt.answers)

/-! ### Attestation (R512 to R514) -/

/-- R512 to R514: every SPDM request is answered at once while the link is up and a service die is active: versions, capabilities and algorithms, the digests
and chains of the two slots, and measurements; a signed answer is signed by the active die over the requester's nonce, the response and a fresh draw; a slot
or an index that there is not is an invalid request, and any other request is unsupported. With the link down no request arrives.
The model’s own choices among what this states are those of notes/assumptions/5.md (DESIGN CHOICE) and notes/assumptions/6.md (DESIGN CHOICE) and
notes/assumptions/53.md (PRESUMED). -/
def Obligations.SpdmRequestsAreAnswered : Prop :=
  (∀ (s : State) (n : Fin 2), s.mgmt.active = some n → s.link.up = true →
    exec .getVersion s = .next (answer (.spdm spVersion [0x00, 0x02, 0x00, 0x12, 0x00, 0x13]) s)) ∧
  (∀ (s : State) (n : Fin 2), s.mgmt.active = some n → s.link.up = true →
    exec .getCapabilities s = .next (answer (.spdm spCapabilities [0x16, 0, 0, 0]) s)) ∧
  (∀ (s : State) (n : Fin 2), s.mgmt.active = some n → s.link.up = true →
    exec .negotiateAlgorithms s = .next (answer (.spdm spAlgorithms [0x04, 0, 0, 0, 0x80, 0, 0, 0, 0x02, 0, 0, 0]) s)) ∧
  (∀ (s : State) (n : Fin 2), s.mgmt.active = some n → s.link.up = true →
    exec .getDigests s = .next (answer (.spdm spDigests (hashBytes (Config.sha384 (Config.certChain 0)) ++ hashBytes (Config.sha384 (Config.certChain 1)))) s)) ∧
  (∀ (s : State) (n x : Fin 2) (o l : W16) (part : List Byte), s.mgmt.active = some n → s.link.up = true → o.toNat ≤ (Config.certChain x).length →
    part = ((Config.certChain x).drop o.toNat).take l.toNat → exec (.getCertificate (BitVec.ofNat 8 x.val) o l) s =
      .next (answer (.spdm spCertificate (leBytes 2 part.length ++ leBytes 2 ((Config.certChain x).length - o.toNat - part.length) ++ part)) s)) ∧
  (∀ (s : State) (n : Fin 2) (slot : Byte) (o l : W16), s.mgmt.active = some n → s.link.up = true →
    2 ≤ slot.toNat ∨ (∀ x : Fin 2, slot.toNat = x.val → (Config.certChain x).length < o.toNat) →
    exec (.getCertificate slot o l) s = .next (answer (.spdm spError [0x01, 0x00]) s)) ∧
  (∀ (s : State) (n : Fin 2) (nonce : BitVec 256) (b r : List Byte), s.mgmt.active = some n → s.link.up = true →
    b = hashBytes (Config.sha384 (Config.certChain n)) → r = leBytes 32 (Config.nonce s.mgmt.console.nonces).toNat →
    exec (.challenge (BitVec.ofNat 8 n.val) nonce) s = .next (answer (.spdm spChallenge (b ++ r ++ Config.spdmSign n (leBytes 32 nonce.toNat ++ b ++ r)))
      { s with mgmt := { s.mgmt with console := { s.mgmt.console with nonces := s.mgmt.console.nonces + 1 } } })) ∧
  (∀ (s : State) (n : Fin 2) (slot : Byte) (nonce : BitVec 256), s.mgmt.active = some n → s.link.up = true → slot.toNat ≠ n.val →
    exec (.challenge slot nonce) s = .next (answer (.spdm spError [0x01, 0x00]) s)) ∧
  (∀ (s : State) (n : Fin 2) (slot index : Byte) (nonce : BitVec 256) (b : List Byte), s.mgmt.active = some n → s.link.up = true →
    (index = 0 ∧ b = [0x0C]) ∨ (1 ≤ index.toNat ∧ index.toNat ≤ 12 ∧ b = 0x01 :: measurementBlock s n index.toNat) ∨
      (index = 0xFF ∧ b = 0x0C :: ((List.range 12).map (· + 1)).flatMap (measurementBlock s n)) →
    exec (.getMeasurements slot index false nonce) s = .next (answer (.spdm spMeasurements b) s) ∧
    ∀ r, r = leBytes 32 (Config.nonce s.mgmt.console.nonces).toNat → exec (.getMeasurements (BitVec.ofNat 8 n.val) index true nonce) s =
      .next (answer (.spdm spMeasurements (b ++ r ++ Config.spdmSign n (leBytes 32 nonce.toNat ++ b ++ r)))
        { s with mgmt := { s.mgmt with console := { s.mgmt.console with nonces := s.mgmt.console.nonces + 1 } } })) ∧
  (∀ (s : State) (n : Fin 2) (slot index : Byte) (sign : Bool) (nonce : BitVec 256), s.mgmt.active = some n → s.link.up = true →
    (12 < index.toNat ∧ index ≠ 0xFF) ∨ (sign = true ∧ slot.toNat ≠ n.val) →
    exec (.getMeasurements slot index sign nonce) s = .next (answer (.spdm spError [0x01, 0x00]) s)) ∧
  (∀ (s : State) (n : Fin 2) (c : Byte), s.mgmt.active = some n → s.link.up = true →
    exec (.spdmUnsupported c) s = .next (answer (.spdm spError [0x07, c]) s)) ∧
  (∀ s : State, s.link.up = false → exec .getVersion s = .next s ∧ exec .getDigests s = .next s ∧ ∀ c, exec (.spdmUnsupported c) s = .next s)

/-! ### The whole module -/

/-- The step takes the command at the front of the queue and runs it with the rest. On an empty queue (the model's choice, notes/assumptions/9.md) a tick of a locked
Reckoner passes and running transfers move on; where no transfer runs and no STEP waits, nothing but the Reckoner changes. Every command is answered with a next state.
The model’s own choices among what this states are those of notes/assumptions/9.md (DESIGN CHOICE). -/
def Obligations.StepRunsTheFrontCommand : Prop :=
  (∀ (s : State) c rest, s.pending = c :: rest → step s = exec c { s with pending := rest }) ∧
  (∀ s : State, s.pending = [] → step s = .next (pass s) ∧
    ((∀ e ∈ s.sq, e.2.moving = none ∧ e.2.step = none) → (s.life.meshLocked = false → step s = .next s) ∧
      (s.life.meshLocked = true → s.reck.lifeTicks < ticksPerSecond → s.reck.slew.natAbs ≤ 1 → ∃ t, step s = .next t ∧ t.now = s.now + 1 ∧
        t = { s with reck := t.reck } ∧
        t.reck.lifeSec * ticksPerSecond + t.reck.lifeTicks = s.reck.lifeSec * ticksPerSecond + s.reck.lifeTicks + 1))) ∧
  (∀ (s : State) c, ∃ t, exec c s = .next t)

/-- Every step takes exactly the front command off the queue, changes no serial number, and leaves what waits behind it in order. -/
def Obligations.EveryStepKeepsTheQueueInOrder : Prop :=
  (∀ (s t : State) c, exec c s = .next t → t.pending = s.pending ∧ t.serial = s.serial) ∧
  (∀ (s t : State), step s = .next t → t.pending = s.pending.tail ∧ t.serial = s.serial)

/-- What stands after reset: no power, no partition, context or ring, no trained port, every mark free, an empty store and empty DIMMs, the settings at their
defaults, and both memories in canonical form.
The model’s own choices among what this states are those of notes/assumptions/1.md (DESIGN CHOICE) and notes/assumptions/2.md (DESIGN CHOICE). -/
def Obligations.ResetLeavesAnUnpoweredModule : Prop :=
  State.reset.life.phase = .unpowered ∧ State.reset.life.ready = false ∧ State.reset.reck.now = 0 ∧ State.reset.pending = [] ∧ State.reset.parts = [] ∧
    State.reset.ctxs = [] ∧ State.reset.sq = [] ∧ State.reset.cq = [] ∧ State.reset.tq = [] ∧ State.reset.link.up = false ∧ State.reset.mgmt.active = none ∧
    (∀ p, (State.reset.port p).lanes = 0) ∧ (∀ i, (State.reset.site i).power = .dark) ∧ (∀ k, State.reset.mark k = {}) ∧
    (∀ a, Memory.read State.reset.mem a = 0 ∧ Memory.read State.reset.dimm a = 0) ∧ (∀ k, State.reset.setting k = settingDefault 90 k) ∧
    Safety.MemoryCanonical State.reset

/-- Every step, of every command and of the idle tick, keeps the shared store and the DIMMs in canonical form: addresses rising, no entry that reads as an unlisted one.
The model’s own choices among what this states are those of notes/assumptions/2.md (DESIGN CHOICE). -/
def Obligations.EveryStepKeepsMemoryCanonical : Prop :=
  ∀ (s t : State), Safety.MemoryCanonical s → step s = .next t → Safety.MemoryCanonical t

/-- R466 and R490: no command changes a setting but a write by Redfish or the console, a start and the commit of an update. -/
def Obligations.SettingsChangeOnlyByTheirCommands : Prop :=
  ∀ (s t : State) c, exec c s = .next t →
    (∀ n e k v, c ≠ .redfishSettingsWrite n e k v) → (∀ n w, c ≠ .redfishPowerLimit n w) → (∀ a, c ≠ .setSetting a) → (∀ a, c ≠ .cap a) →
    Safety.NoStart c → c ≠ .activationCommit → t.settings = s.settings

/-- R69: an E8M0 scale byte from 0x00 to 0xFE stands for 2^(byte − 127), and under 0xFF every element of the block reads as NaN. -/
def Obligations.ScaleBytesStandForPowersOfTwo : Prop :=
  (∀ b : Byte, b ≠ 0xFF → scaleE8M0 b = .fin false 1 ((b.toNat : Int) - 127)) ∧ scaleE8M0 0xFF = .nan ∧
    ∀ code bits, elemValue code 1 bits 0xFF = .nan

/-- R64 to R68, R84 to R87: converting the value that a format's bits stand for to that format gives back those bits, with nothing counted, for every format and every
encoding that is no NaN. -/
def Obligations.ConversionKeepsRepresentableValues : Prop :=
  ∀ (code bits : Nat), code ≤ 9 → bits < 2 ^ fmtWidth code → decodeBits code bits ≠ .nan →
    (convertElem code .nearest true (decodeBits code bits)).bits = bits ∧ (convertElem code .nearest true (decodeBits code bits)).dropped = false ∧
    ((decodeBits code bits).isInf = false → (convertElem code .nearest true (decodeBits code bits)).sat = false)
end

