-- ==== Sys2Proof/Laws/Memory.lean ====
section
/-! SUPPORT. Tables and memories: reading what was put, other entries unchanged, and the canonical form kept by every operation. -/
set_option Elab.async false
namespace Sys2Proof.Machine

/-! ### Tables -/
namespace Tab
variable {α : Type}

/-- Every key of a table is above a bound. -/
theorem above_put {t : Tab α} {k j : Nat} {v : α} (h : ∀ e ∈ t, k < e.1) (hj : k < j) : ∀ e ∈ put t j v, k < e.1 := by
  induction t with
  | nil => intro e he; simp [put] at he; subst he; exact hj
  | cons x r ih =>
    obtain ⟨i, w⟩ := x
    intro e he
    have hr : ∀ e ∈ r, k < e.1 := fun e he => h e (List.mem_cons_of_mem _ he)
    unfold put at he
    split at he
    · rcases List.mem_cons.1 he with rfl | he
      · exact hj
      · exact h e he
    · split at he
      · rcases List.mem_cons.1 he with rfl | he
        · exact hj
        · exact hr e he
      · rcases List.mem_cons.1 he with rfl | he
        · exact h _ (List.mem_cons_self ..)
        · exact ih hr e he

theorem put_wf {t : Tab α} (k : Nat) (v : α) (h : t.wf) : (t.put k v).wf := by
  induction t with
  | nil => simp [put, wf]
  | cons x r ih =>
    obtain ⟨i, w⟩ := x
    have hx := List.pairwise_cons.1 h
    unfold put
    split
    · rename_i hk
      refine List.pairwise_cons.2 ⟨?_, h⟩
      intro e he
      rcases List.mem_cons.1 he with rfl | he
      · exact hk
      · exact Nat.lt_trans hk (hx.1 e he)
    · split
      · rename_i hk; subst hk
        exact List.pairwise_cons.2 ⟨hx.1, hx.2⟩
      · rename_i h1 h2
        refine List.pairwise_cons.2 ⟨above_put hx.1 ?_, ih hx.2⟩
        omega

theorem drop_wf {t : Tab α} (k : Nat) (h : t.wf) : (t.drop k).wf := List.Pairwise.filter _ h

theorem select_wf {t : Tab α} (p : Nat → α → Bool) (h : t.wf) : (t.select p).wf := List.Pairwise.filter _ h

@[simp] theorem keys_modify (t : Tab α) (k : Nat) (f : α → α) : (t.modify k f).keys = t.keys := by
  induction t with
  | nil => rfl
  | cons x r ih =>
    simp only [modify]
    split
    · rfl
    · simpa [keys] using ih

theorem modify_wf {t : Tab α} (k : Nat) (f : α → α) (h : t.wf) : (t.modify k f).wf := by
  have e : ∀ u : Tab α, u.wf ↔ u.keys.Pairwise (· < ·) := fun u => (List.pairwise_map (f := fun x : Nat × α => x.1)).symm
  rw [e, keys_modify, ← e]
  exact h

/-- A change that leaves the entry found as it is leaves the table as it is. -/
theorem modify_same (t : Tab α) (k : Nat) (f : α → α) (h : ∀ v, t.find k = some v → f v = v) : t.modify k f = t := by
  induction t with
  | nil => rfl
  | cons x r ih =>
    obtain ⟨i, w⟩ := x
    simp only [modify]
    split
    · rename_i e
      rw [h w (by simp [find, e])]
    · rename_i e
      rw [ih (fun v hv => h v (by simpa [find, e] using hv))]

theorem mapVal_wf {t : Tab α} (f : Nat → α → α) (h : t.wf) : (t.mapVal f).wf :=
  List.pairwise_map.2 (List.Pairwise.imp (fun hab => hab) h)

theorem update_wf {t : Tab α} (k : Nat) (d : α) (f : α → α) (h : t.wf) : (t.update k d f).wf := put_wf k _ h

@[simp] theorem find_put (t : Tab α) (k : Nat) (v : α) : (t.put k v).find k = some v := by
  induction t with
  | nil => simp [put, find]
  | cons x r ih =>
    obtain ⟨i, w⟩ := x
    unfold put
    split
    · simp [find]
    · split
      · simp [find]
      · rename_i h1 h2
        simp only [find]
        rw [if_neg (by omega), ih]

theorem find_put_ne (t : Tab α) {k j : Nat} (v : α) (h : j ≠ k) : (t.put k v).find j = t.find j := by
  induction t with
  | nil => simp [put, find, h.symm]
  | cons x r ih =>
    obtain ⟨i, w⟩ := x
    unfold put
    split
    · simp [find, h.symm]
    · split
      · rename_i h1 h2; subst h2; simp [find, h.symm]
      · simp [find, ih]

@[simp] theorem getD_put (t : Tab α) (k : Nat) (v d : α) : (t.put k v).getD k d = v := by simp [getD]

theorem getD_put_ne (t : Tab α) {k j : Nat} (v d : α) (h : j ≠ k) : (t.put k v).getD j d = t.getD j d := by
  simp [getD, find_put_ne t v h]

@[simp] theorem getD_update (t : Tab α) (k : Nat) (d : α) (f : α → α) : (t.update k d f).getD k d = f (t.getD k d) := by
  simp [update]

theorem getD_update_ne (t : Tab α) {k j : Nat} (d e : α) (f : α → α) (h : j ≠ k) : (t.update k d f).getD j e = t.getD j e := by
  simp [update, getD_put_ne t _ _ h]

theorem find_modify (t : Tab α) (k : Nat) (f : α → α) : (t.modify k f).find k = (t.find k).map f := by
  induction t with
  | nil => rfl
  | cons x r ih =>
    obtain ⟨i, w⟩ := x
    by_cases e : i = k <;> simp [modify, find, e, ih]

theorem find_modify_ne (t : Tab α) {k j : Nat} (f : α → α) (h : j ≠ k) : (t.modify k f).find j = t.find j := by
  induction t with
  | nil => rfl
  | cons x r ih =>
    obtain ⟨i, w⟩ := x
    by_cases e : i = k
    · subst e; simp [modify, find, h.symm]
    · simp only [modify, if_neg e, find, ih]

@[simp] theorem find_drop (t : Tab α) (k : Nat) : (t.drop k).find k = none := by
  induction t with
  | nil => rfl
  | cons x r ih =>
    obtain ⟨i, w⟩ := x
    unfold drop at ih ⊢
    rw [List.filter_cons]
    by_cases h : i = k
    · rw [if_neg (by simp [h])]; exact ih
    · rw [if_pos (by simp [h]), find, if_neg h]; exact ih

theorem find_drop_ne (t : Tab α) {k j : Nat} (h : j ≠ k) : (t.drop k).find j = t.find j := by
  induction t with
  | nil => rfl
  | cons x r ih =>
    obtain ⟨i, w⟩ := x
    unfold drop at ih ⊢
    rw [List.filter_cons]
    by_cases hi : i = k
    · subst hi; rw [if_neg (by simp), find, if_neg h.symm]; exact ih
    · rw [if_pos (by simp [hi]), find, find, ih]

end Tab

/-! ### Memory (R134, R317) -/
namespace Memory

theorem put_nonblank {m : List Host.Cell} {a : Nat} {v : Byte} (hv : v ≠ blank) (h : ∀ c ∈ m, c.2 ≠ blank) :
    ∀ c ∈ Tab.put m a v, c.2 ≠ blank := by
  induction m with
  | nil => intro c hc; simp [Tab.put] at hc; subst hc; exact hv
  | cons x r ih =>
    obtain ⟨i, w⟩ := x
    have hr : ∀ c ∈ r, c.2 ≠ blank := fun c hc => h c (List.mem_cons_of_mem _ hc)
    intro c hc
    unfold Tab.put at hc
    split at hc
    · rcases List.mem_cons.1 hc with rfl | hc
      · exact hv
      · exact h c hc
    · split at hc
      · rcases List.mem_cons.1 hc with rfl | hc
        · exact hv
        · exact hr c hc
      · rcases List.mem_cons.1 hc with rfl | hc
        · exact h _ (List.mem_cons_self ..)
        · exact ih hr c hc

/-- A write of one byte keeps the canonical form. -/
theorem write_wf {m : List Host.Cell} (a : Nat) (v : Byte) (h : wf m) : wf (write m a v) := by
  unfold write
  split
  · exact ⟨Tab.drop_wf a h.1, fun c hc => h.2 c (List.mem_filter.1 hc).1⟩
  · rename_i hv
    exact ⟨Tab.put_wf a v h.1, put_nonblank hv h.2⟩

/-- A write of a byte string keeps the canonical form. -/
theorem writeN_wf {m : List Host.Cell} (a : Nat) (bs : List Byte) (h : wf m) : wf (writeN m a bs) := by
  induction bs generalizing m a with
  | nil => exact h
  | cons b r ih => exact ih (a + 1) (write_wf a b h)

/-- Clearing a range keeps the canonical form. -/
theorem clear_wf {m : List Host.Cell} (a n : Nat) (h : wf m) : wf (clear m a n) :=
  ⟨List.Pairwise.filter _ h.1, fun c hc => h.2 c (List.mem_filter.1 hc).1⟩

/-- A byte written is the byte read. -/
@[simp] theorem read_write (m : List Host.Cell) (a : Nat) (v : Byte) : read (write m a v) a = v := by
  unfold read write
  split
  · rename_i h; simp [Tab.getD, h]
  · simp

/-- A write leaves every other byte as it was. -/
theorem read_write_ne (m : List Host.Cell) {a b : Nat} (v : Byte) (h : b ≠ a) : read (write m a v) b = read m b := by
  unfold read write
  split
  · simp [Tab.getD, Tab.find_drop_ne m h]
  · exact Tab.getD_put_ne m v _ h

/-- A byte string written leaves every byte outside it as it was. -/
theorem read_writeN_outside (m : List Host.Cell) (a : Nat) (bs : List Byte) {b : Nat} (h : b < a ∨ a + bs.length ≤ b) :
    read (writeN m a bs) b = read m b := by
  induction bs generalizing m a with
  | nil => rfl
  | cons x r ih =>
    simp only [List.length_cons] at h
    unfold writeN
    rw [ih _ _ (by omega), read_write_ne _ _ (by omega)]

/-- A byte string written is read back. -/
theorem read_writeN (m : List Host.Cell) (a : Nat) (bs : List Byte) {i : Nat} (h : i < bs.length) :
    read (writeN m a bs) (a + i) = bs[i] := by
  induction bs generalizing m a i with
  | nil => simp at h
  | cons x r ih =>
    unfold writeN
    cases i with
    | zero => rw [Nat.add_zero, read_writeN_outside _ _ _ (by omega)]; simp
    | succ n =>
      have := ih (write m a x) (a + 1) (i := n) (by simpa using h)
      rw [show a + (n + 1) = a + 1 + n by omega, this]; rfl

end Memory

/-- The memories at reset are in canonical form. -/
theorem reset_memory_wf : Memory.wf State.reset.mem ∧ Memory.wf State.reset.dimm := by
  constructor <;> simp [State.reset, Memory.wf]

end Sys2Proof.Machine
end

