-- ==== Sys2Proof/Laws/State.lean ====
section
/-! SUPPORT. The State and its updates: for each operation that changes one part, what every field of the State is after it. -/
namespace Sys2Proof.Machine

variable (s : State)

/-! ### updSite -/

@[simp] theorem updSite_pending (i : Nat) (f : SiteRec → SiteRec) : (updSite i f s).pending = s.pending := rfl
@[simp] theorem updSite_freeIx (i : Nat) (f : SiteRec → SiteRec) : (updSite i f s).freeIx = s.freeIx := rfl
@[simp] theorem updSite_serial (i : Nat) (f : SiteRec → SiteRec) : (updSite i f s).serial = s.serial := rfl
@[simp] theorem updSite_life (i : Nat) (f : SiteRec → SiteRec) : (updSite i f s).life = s.life := rfl
@[simp] theorem updSite_build (i : Nat) (f : SiteRec → SiteRec) : (updSite i f s).build = s.build := rfl
@[simp] theorem updSite_flash0 (i : Nat) (f : SiteRec → SiteRec) : (updSite i f s).flash0 = s.flash0 := rfl
@[simp] theorem updSite_flash1 (i : Nat) (f : SiteRec → SiteRec) : (updSite i f s).flash1 = s.flash1 := rfl
@[simp] theorem updSite_log (i : Nat) (f : SiteRec → SiteRec) : (updSite i f s).log = s.log := rfl
@[simp] theorem updSite_settings (i : Nat) (f : SiteRec → SiteRec) : (updSite i f s).settings = s.settings := rfl
@[simp] theorem updSite_bin (i : Nat) (f : SiteRec → SiteRec) : (updSite i f s).bin = s.bin := rfl
@[simp] theorem updSite_wafer (i : Nat) (f : SiteRec → SiteRec) : (updSite i f s).wafer = s.wafer := rfl
@[simp] theorem updSite_sites (i : Nat) (f : SiteRec → SiteRec) : (updSite i f s).sites = s.sites.update i {} f := rfl
@[simp] theorem updSite_dies (i : Nat) (f : SiteRec → SiteRec) : (updSite i f s).dies = s.dies := rfl
@[simp] theorem updSite_clusters (i : Nat) (f : SiteRec → SiteRec) : (updSite i f s).clusters = s.clusters := rfl
@[simp] theorem updSite_stores (i : Nat) (f : SiteRec → SiteRec) : (updSite i f s).stores = s.stores := rfl
@[simp] theorem updSite_mem (i : Nat) (f : SiteRec → SiteRec) : (updSite i f s).mem = s.mem := rfl
@[simp] theorem updSite_memPoison (i : Nat) (f : SiteRec → SiteRec) : (updSite i f s).memPoison = s.memPoison := rfl
@[simp] theorem updSite_memForms (i : Nat) (f : SiteRec → SiteRec) : (updSite i f s).memForms = s.memForms := rfl
@[simp] theorem updSite_owners (i : Nat) (f : SiteRec → SiteRec) : (updSite i f s).owners = s.owners := rfl
@[simp] theorem updSite_scrubs (i : Nat) (f : SiteRec → SiteRec) : (updSite i f s).scrubs = s.scrubs := rfl
@[simp] theorem updSite_parts (i : Nat) (f : SiteRec → SiteRec) : (updSite i f s).parts = s.parts := rfl
@[simp] theorem updSite_ctxs (i : Nat) (f : SiteRec → SiteRec) : (updSite i f s).ctxs = s.ctxs := rfl
@[simp] theorem updSite_seqs (i : Nat) (f : SiteRec → SiteRec) : (updSite i f s).seqs = s.seqs := rfl
@[simp] theorem updSite_dir (i : Nat) (f : SiteRec → SiteRec) : (updSite i f s).dir = s.dir := rfl
@[simp] theorem updSite_sq (i : Nat) (f : SiteRec → SiteRec) : (updSite i f s).sq = s.sq := rfl
@[simp] theorem updSite_cq (i : Nat) (f : SiteRec → SiteRec) : (updSite i f s).cq = s.cq := rfl
@[simp] theorem updSite_tq (i : Nat) (f : SiteRec → SiteRec) : (updSite i f s).tq = s.tq := rfl
@[simp] theorem updSite_heldRecs (i : Nat) (f : SiteRec → SiteRec) : (updSite i f s).heldRecs = s.heldRecs := rfl
@[simp] theorem updSite_fns (i : Nat) (f : SiteRec → SiteRec) : (updSite i f s).fns = s.fns := rfl
@[simp] theorem updSite_link (i : Nat) (f : SiteRec → SiteRec) : (updSite i f s).link = s.link := rfl
@[simp] theorem updSite_hostOut (i : Nat) (f : SiteRec → SiteRec) : (updSite i f s).hostOut = s.hostOut := rfl
@[simp] theorem updSite_marks (i : Nat) (f : SiteRec → SiteRec) : (updSite i f s).marks = s.marks := rfl
@[simp] theorem updSite_net (i : Nat) (f : SiteRec → SiteRec) : (updSite i f s).net = s.net := rfl
@[simp] theorem updSite_chans (i : Nat) (f : SiteRec → SiteRec) : (updSite i f s).chans = s.chans := rfl
@[simp] theorem updSite_dimmWork (i : Nat) (f : SiteRec → SiteRec) : (updSite i f s).dimmWork = s.dimmWork := rfl
@[simp] theorem updSite_dimm (i : Nat) (f : SiteRec → SiteRec) : (updSite i f s).dimm = s.dimm := rfl
@[simp] theorem updSite_dimmBad (i : Nat) (f : SiteRec → SiteRec) : (updSite i f s).dimmBad = s.dimmBad := rfl
@[simp] theorem updSite_reck (i : Nat) (f : SiteRec → SiteRec) : (updSite i f s).reck = s.reck := rfl
@[simp] theorem updSite_power (i : Nat) (f : SiteRec → SiteRec) : (updSite i f s).power = s.power := rfl
@[simp] theorem updSite_errs (i : Nat) (f : SiteRec → SiteRec) : (updSite i f s).errs = s.errs := rfl
@[simp] theorem updSite_mgmt (i : Nat) (f : SiteRec → SiteRec) : (updSite i f s).mgmt = s.mgmt := rfl
@[simp] theorem updSite_pair (i : Nat) (f : SiteRec → SiteRec) : (updSite i f s).pair = s.pair := rfl
@[simp] theorem updSite_update (i : Nat) (f : SiteRec → SiteRec) : (updSite i f s).update = s.update := rfl

/-! ### updDie -/

@[simp] theorem updDie_pending (i : Nat) (f : DieRec → DieRec) : (updDie i f s).pending = s.pending := rfl
@[simp] theorem updDie_freeIx (i : Nat) (f : DieRec → DieRec) : (updDie i f s).freeIx = s.freeIx := rfl
@[simp] theorem updDie_serial (i : Nat) (f : DieRec → DieRec) : (updDie i f s).serial = s.serial := rfl
@[simp] theorem updDie_life (i : Nat) (f : DieRec → DieRec) : (updDie i f s).life = s.life := rfl
@[simp] theorem updDie_build (i : Nat) (f : DieRec → DieRec) : (updDie i f s).build = s.build := rfl
@[simp] theorem updDie_flash0 (i : Nat) (f : DieRec → DieRec) : (updDie i f s).flash0 = s.flash0 := rfl
@[simp] theorem updDie_flash1 (i : Nat) (f : DieRec → DieRec) : (updDie i f s).flash1 = s.flash1 := rfl
@[simp] theorem updDie_log (i : Nat) (f : DieRec → DieRec) : (updDie i f s).log = s.log := rfl
@[simp] theorem updDie_settings (i : Nat) (f : DieRec → DieRec) : (updDie i f s).settings = s.settings := rfl
@[simp] theorem updDie_bin (i : Nat) (f : DieRec → DieRec) : (updDie i f s).bin = s.bin := rfl
@[simp] theorem updDie_wafer (i : Nat) (f : DieRec → DieRec) : (updDie i f s).wafer = s.wafer := rfl
@[simp] theorem updDie_sites (i : Nat) (f : DieRec → DieRec) : (updDie i f s).sites = s.sites := rfl
@[simp] theorem updDie_dies (i : Nat) (f : DieRec → DieRec) : (updDie i f s).dies = s.dies.update i {} f := rfl
@[simp] theorem updDie_clusters (i : Nat) (f : DieRec → DieRec) : (updDie i f s).clusters = s.clusters := rfl
@[simp] theorem updDie_stores (i : Nat) (f : DieRec → DieRec) : (updDie i f s).stores = s.stores := rfl
@[simp] theorem updDie_mem (i : Nat) (f : DieRec → DieRec) : (updDie i f s).mem = s.mem := rfl
@[simp] theorem updDie_memPoison (i : Nat) (f : DieRec → DieRec) : (updDie i f s).memPoison = s.memPoison := rfl
@[simp] theorem updDie_memForms (i : Nat) (f : DieRec → DieRec) : (updDie i f s).memForms = s.memForms := rfl
@[simp] theorem updDie_owners (i : Nat) (f : DieRec → DieRec) : (updDie i f s).owners = s.owners := rfl
@[simp] theorem updDie_scrubs (i : Nat) (f : DieRec → DieRec) : (updDie i f s).scrubs = s.scrubs := rfl
@[simp] theorem updDie_parts (i : Nat) (f : DieRec → DieRec) : (updDie i f s).parts = s.parts := rfl
@[simp] theorem updDie_ctxs (i : Nat) (f : DieRec → DieRec) : (updDie i f s).ctxs = s.ctxs := rfl
@[simp] theorem updDie_seqs (i : Nat) (f : DieRec → DieRec) : (updDie i f s).seqs = s.seqs := rfl
@[simp] theorem updDie_dir (i : Nat) (f : DieRec → DieRec) : (updDie i f s).dir = s.dir := rfl
@[simp] theorem updDie_sq (i : Nat) (f : DieRec → DieRec) : (updDie i f s).sq = s.sq := rfl
@[simp] theorem updDie_cq (i : Nat) (f : DieRec → DieRec) : (updDie i f s).cq = s.cq := rfl
@[simp] theorem updDie_tq (i : Nat) (f : DieRec → DieRec) : (updDie i f s).tq = s.tq := rfl
@[simp] theorem updDie_heldRecs (i : Nat) (f : DieRec → DieRec) : (updDie i f s).heldRecs = s.heldRecs := rfl
@[simp] theorem updDie_fns (i : Nat) (f : DieRec → DieRec) : (updDie i f s).fns = s.fns := rfl
@[simp] theorem updDie_link (i : Nat) (f : DieRec → DieRec) : (updDie i f s).link = s.link := rfl
@[simp] theorem updDie_hostOut (i : Nat) (f : DieRec → DieRec) : (updDie i f s).hostOut = s.hostOut := rfl
@[simp] theorem updDie_marks (i : Nat) (f : DieRec → DieRec) : (updDie i f s).marks = s.marks := rfl
@[simp] theorem updDie_net (i : Nat) (f : DieRec → DieRec) : (updDie i f s).net = s.net := rfl
@[simp] theorem updDie_chans (i : Nat) (f : DieRec → DieRec) : (updDie i f s).chans = s.chans := rfl
@[simp] theorem updDie_dimmWork (i : Nat) (f : DieRec → DieRec) : (updDie i f s).dimmWork = s.dimmWork := rfl
@[simp] theorem updDie_dimm (i : Nat) (f : DieRec → DieRec) : (updDie i f s).dimm = s.dimm := rfl
@[simp] theorem updDie_dimmBad (i : Nat) (f : DieRec → DieRec) : (updDie i f s).dimmBad = s.dimmBad := rfl
@[simp] theorem updDie_reck (i : Nat) (f : DieRec → DieRec) : (updDie i f s).reck = s.reck := rfl
@[simp] theorem updDie_power (i : Nat) (f : DieRec → DieRec) : (updDie i f s).power = s.power := rfl
@[simp] theorem updDie_errs (i : Nat) (f : DieRec → DieRec) : (updDie i f s).errs = s.errs := rfl
@[simp] theorem updDie_mgmt (i : Nat) (f : DieRec → DieRec) : (updDie i f s).mgmt = s.mgmt := rfl
@[simp] theorem updDie_pair (i : Nat) (f : DieRec → DieRec) : (updDie i f s).pair = s.pair := rfl
@[simp] theorem updDie_update (i : Nat) (f : DieRec → DieRec) : (updDie i f s).update = s.update := rfl

/-! ### updChan -/

@[simp] theorem updChan_pending (i : Nat) (f : ChanRec → ChanRec) : (updChan i f s).pending = s.pending := rfl
@[simp] theorem updChan_freeIx (i : Nat) (f : ChanRec → ChanRec) : (updChan i f s).freeIx = s.freeIx := rfl
@[simp] theorem updChan_serial (i : Nat) (f : ChanRec → ChanRec) : (updChan i f s).serial = s.serial := rfl
@[simp] theorem updChan_life (i : Nat) (f : ChanRec → ChanRec) : (updChan i f s).life = s.life := rfl
@[simp] theorem updChan_build (i : Nat) (f : ChanRec → ChanRec) : (updChan i f s).build = s.build := rfl
@[simp] theorem updChan_flash0 (i : Nat) (f : ChanRec → ChanRec) : (updChan i f s).flash0 = s.flash0 := rfl
@[simp] theorem updChan_flash1 (i : Nat) (f : ChanRec → ChanRec) : (updChan i f s).flash1 = s.flash1 := rfl
@[simp] theorem updChan_log (i : Nat) (f : ChanRec → ChanRec) : (updChan i f s).log = s.log := rfl
@[simp] theorem updChan_settings (i : Nat) (f : ChanRec → ChanRec) : (updChan i f s).settings = s.settings := rfl
@[simp] theorem updChan_bin (i : Nat) (f : ChanRec → ChanRec) : (updChan i f s).bin = s.bin := rfl
@[simp] theorem updChan_wafer (i : Nat) (f : ChanRec → ChanRec) : (updChan i f s).wafer = s.wafer := rfl
@[simp] theorem updChan_sites (i : Nat) (f : ChanRec → ChanRec) : (updChan i f s).sites = s.sites := rfl
@[simp] theorem updChan_dies (i : Nat) (f : ChanRec → ChanRec) : (updChan i f s).dies = s.dies := rfl
@[simp] theorem updChan_clusters (i : Nat) (f : ChanRec → ChanRec) : (updChan i f s).clusters = s.clusters := rfl
@[simp] theorem updChan_stores (i : Nat) (f : ChanRec → ChanRec) : (updChan i f s).stores = s.stores := rfl
@[simp] theorem updChan_mem (i : Nat) (f : ChanRec → ChanRec) : (updChan i f s).mem = s.mem := rfl
@[simp] theorem updChan_memPoison (i : Nat) (f : ChanRec → ChanRec) : (updChan i f s).memPoison = s.memPoison := rfl
@[simp] theorem updChan_memForms (i : Nat) (f : ChanRec → ChanRec) : (updChan i f s).memForms = s.memForms := rfl
@[simp] theorem updChan_owners (i : Nat) (f : ChanRec → ChanRec) : (updChan i f s).owners = s.owners := rfl
@[simp] theorem updChan_scrubs (i : Nat) (f : ChanRec → ChanRec) : (updChan i f s).scrubs = s.scrubs := rfl
@[simp] theorem updChan_parts (i : Nat) (f : ChanRec → ChanRec) : (updChan i f s).parts = s.parts := rfl
@[simp] theorem updChan_ctxs (i : Nat) (f : ChanRec → ChanRec) : (updChan i f s).ctxs = s.ctxs := rfl
@[simp] theorem updChan_seqs (i : Nat) (f : ChanRec → ChanRec) : (updChan i f s).seqs = s.seqs := rfl
@[simp] theorem updChan_dir (i : Nat) (f : ChanRec → ChanRec) : (updChan i f s).dir = s.dir := rfl
@[simp] theorem updChan_sq (i : Nat) (f : ChanRec → ChanRec) : (updChan i f s).sq = s.sq := rfl
@[simp] theorem updChan_cq (i : Nat) (f : ChanRec → ChanRec) : (updChan i f s).cq = s.cq := rfl
@[simp] theorem updChan_tq (i : Nat) (f : ChanRec → ChanRec) : (updChan i f s).tq = s.tq := rfl
@[simp] theorem updChan_heldRecs (i : Nat) (f : ChanRec → ChanRec) : (updChan i f s).heldRecs = s.heldRecs := rfl
@[simp] theorem updChan_fns (i : Nat) (f : ChanRec → ChanRec) : (updChan i f s).fns = s.fns := rfl
@[simp] theorem updChan_link (i : Nat) (f : ChanRec → ChanRec) : (updChan i f s).link = s.link := rfl
@[simp] theorem updChan_hostOut (i : Nat) (f : ChanRec → ChanRec) : (updChan i f s).hostOut = s.hostOut := rfl
@[simp] theorem updChan_marks (i : Nat) (f : ChanRec → ChanRec) : (updChan i f s).marks = s.marks := rfl
@[simp] theorem updChan_net (i : Nat) (f : ChanRec → ChanRec) : (updChan i f s).net = s.net := rfl
@[simp] theorem updChan_chans (i : Nat) (f : ChanRec → ChanRec) : (updChan i f s).chans = s.chans.update i {} f := rfl
@[simp] theorem updChan_dimmWork (i : Nat) (f : ChanRec → ChanRec) : (updChan i f s).dimmWork = s.dimmWork := rfl
@[simp] theorem updChan_dimm (i : Nat) (f : ChanRec → ChanRec) : (updChan i f s).dimm = s.dimm := rfl
@[simp] theorem updChan_dimmBad (i : Nat) (f : ChanRec → ChanRec) : (updChan i f s).dimmBad = s.dimmBad := rfl
@[simp] theorem updChan_reck (i : Nat) (f : ChanRec → ChanRec) : (updChan i f s).reck = s.reck := rfl
@[simp] theorem updChan_power (i : Nat) (f : ChanRec → ChanRec) : (updChan i f s).power = s.power := rfl
@[simp] theorem updChan_errs (i : Nat) (f : ChanRec → ChanRec) : (updChan i f s).errs = s.errs := rfl
@[simp] theorem updChan_mgmt (i : Nat) (f : ChanRec → ChanRec) : (updChan i f s).mgmt = s.mgmt := rfl
@[simp] theorem updChan_pair (i : Nat) (f : ChanRec → ChanRec) : (updChan i f s).pair = s.pair := rfl
@[simp] theorem updChan_update (i : Nat) (f : ChanRec → ChanRec) : (updChan i f s).update = s.update := rfl

/-! ### updBay -/

@[simp] theorem updBay_pending (i : Nat) (f : BayRec → BayRec) : (updBay i f s).pending = s.pending := rfl
@[simp] theorem updBay_freeIx (i : Nat) (f : BayRec → BayRec) : (updBay i f s).freeIx = s.freeIx := rfl
@[simp] theorem updBay_serial (i : Nat) (f : BayRec → BayRec) : (updBay i f s).serial = s.serial := rfl
@[simp] theorem updBay_life (i : Nat) (f : BayRec → BayRec) : (updBay i f s).life = s.life := rfl
@[simp] theorem updBay_build (i : Nat) (f : BayRec → BayRec) : (updBay i f s).build = s.build := rfl
@[simp] theorem updBay_flash0 (i : Nat) (f : BayRec → BayRec) : (updBay i f s).flash0 = s.flash0 := rfl
@[simp] theorem updBay_flash1 (i : Nat) (f : BayRec → BayRec) : (updBay i f s).flash1 = s.flash1 := rfl
@[simp] theorem updBay_log (i : Nat) (f : BayRec → BayRec) : (updBay i f s).log = s.log := rfl
@[simp] theorem updBay_settings (i : Nat) (f : BayRec → BayRec) : (updBay i f s).settings = s.settings := rfl
@[simp] theorem updBay_bin (i : Nat) (f : BayRec → BayRec) : (updBay i f s).bin = { s.bin with bays := s.bin.bays.update i {} f } := rfl
@[simp] theorem updBay_wafer (i : Nat) (f : BayRec → BayRec) : (updBay i f s).wafer = s.wafer := rfl
@[simp] theorem updBay_sites (i : Nat) (f : BayRec → BayRec) : (updBay i f s).sites = s.sites := rfl
@[simp] theorem updBay_dies (i : Nat) (f : BayRec → BayRec) : (updBay i f s).dies = s.dies := rfl
@[simp] theorem updBay_clusters (i : Nat) (f : BayRec → BayRec) : (updBay i f s).clusters = s.clusters := rfl
@[simp] theorem updBay_stores (i : Nat) (f : BayRec → BayRec) : (updBay i f s).stores = s.stores := rfl
@[simp] theorem updBay_mem (i : Nat) (f : BayRec → BayRec) : (updBay i f s).mem = s.mem := rfl
@[simp] theorem updBay_memPoison (i : Nat) (f : BayRec → BayRec) : (updBay i f s).memPoison = s.memPoison := rfl
@[simp] theorem updBay_memForms (i : Nat) (f : BayRec → BayRec) : (updBay i f s).memForms = s.memForms := rfl
@[simp] theorem updBay_owners (i : Nat) (f : BayRec → BayRec) : (updBay i f s).owners = s.owners := rfl
@[simp] theorem updBay_scrubs (i : Nat) (f : BayRec → BayRec) : (updBay i f s).scrubs = s.scrubs := rfl
@[simp] theorem updBay_parts (i : Nat) (f : BayRec → BayRec) : (updBay i f s).parts = s.parts := rfl
@[simp] theorem updBay_ctxs (i : Nat) (f : BayRec → BayRec) : (updBay i f s).ctxs = s.ctxs := rfl
@[simp] theorem updBay_seqs (i : Nat) (f : BayRec → BayRec) : (updBay i f s).seqs = s.seqs := rfl
@[simp] theorem updBay_dir (i : Nat) (f : BayRec → BayRec) : (updBay i f s).dir = s.dir := rfl
@[simp] theorem updBay_sq (i : Nat) (f : BayRec → BayRec) : (updBay i f s).sq = s.sq := rfl
@[simp] theorem updBay_cq (i : Nat) (f : BayRec → BayRec) : (updBay i f s).cq = s.cq := rfl
@[simp] theorem updBay_tq (i : Nat) (f : BayRec → BayRec) : (updBay i f s).tq = s.tq := rfl
@[simp] theorem updBay_heldRecs (i : Nat) (f : BayRec → BayRec) : (updBay i f s).heldRecs = s.heldRecs := rfl
@[simp] theorem updBay_fns (i : Nat) (f : BayRec → BayRec) : (updBay i f s).fns = s.fns := rfl
@[simp] theorem updBay_link (i : Nat) (f : BayRec → BayRec) : (updBay i f s).link = s.link := rfl
@[simp] theorem updBay_hostOut (i : Nat) (f : BayRec → BayRec) : (updBay i f s).hostOut = s.hostOut := rfl
@[simp] theorem updBay_marks (i : Nat) (f : BayRec → BayRec) : (updBay i f s).marks = s.marks := rfl
@[simp] theorem updBay_net (i : Nat) (f : BayRec → BayRec) : (updBay i f s).net = s.net := rfl
@[simp] theorem updBay_chans (i : Nat) (f : BayRec → BayRec) : (updBay i f s).chans = s.chans := rfl
@[simp] theorem updBay_dimmWork (i : Nat) (f : BayRec → BayRec) : (updBay i f s).dimmWork = s.dimmWork := rfl
@[simp] theorem updBay_dimm (i : Nat) (f : BayRec → BayRec) : (updBay i f s).dimm = s.dimm := rfl
@[simp] theorem updBay_dimmBad (i : Nat) (f : BayRec → BayRec) : (updBay i f s).dimmBad = s.dimmBad := rfl
@[simp] theorem updBay_reck (i : Nat) (f : BayRec → BayRec) : (updBay i f s).reck = s.reck := rfl
@[simp] theorem updBay_power (i : Nat) (f : BayRec → BayRec) : (updBay i f s).power = s.power := rfl
@[simp] theorem updBay_errs (i : Nat) (f : BayRec → BayRec) : (updBay i f s).errs = s.errs := rfl
@[simp] theorem updBay_mgmt (i : Nat) (f : BayRec → BayRec) : (updBay i f s).mgmt = s.mgmt := rfl
@[simp] theorem updBay_pair (i : Nat) (f : BayRec → BayRec) : (updBay i f s).pair = s.pair := rfl
@[simp] theorem updBay_update (i : Nat) (f : BayRec → BayRec) : (updBay i f s).update = s.update := rfl

/-! ### updPad -/

@[simp] theorem updPad_pending (i : Nat) (f : Pad → Pad) : (updPad i f s).pending = s.pending := rfl
@[simp] theorem updPad_freeIx (i : Nat) (f : Pad → Pad) : (updPad i f s).freeIx = s.freeIx := rfl
@[simp] theorem updPad_serial (i : Nat) (f : Pad → Pad) : (updPad i f s).serial = s.serial := rfl
@[simp] theorem updPad_life (i : Nat) (f : Pad → Pad) : (updPad i f s).life = s.life := rfl
@[simp] theorem updPad_build (i : Nat) (f : Pad → Pad) : (updPad i f s).build = s.build := rfl
@[simp] theorem updPad_flash0 (i : Nat) (f : Pad → Pad) : (updPad i f s).flash0 = s.flash0 := rfl
@[simp] theorem updPad_flash1 (i : Nat) (f : Pad → Pad) : (updPad i f s).flash1 = s.flash1 := rfl
@[simp] theorem updPad_log (i : Nat) (f : Pad → Pad) : (updPad i f s).log = s.log := rfl
@[simp] theorem updPad_settings (i : Nat) (f : Pad → Pad) : (updPad i f s).settings = s.settings := rfl
@[simp] theorem updPad_bin (i : Nat) (f : Pad → Pad) : (updPad i f s).bin = { s.bin with pads := s.bin.pads.update i {} f } := rfl
@[simp] theorem updPad_wafer (i : Nat) (f : Pad → Pad) : (updPad i f s).wafer = s.wafer := rfl
@[simp] theorem updPad_sites (i : Nat) (f : Pad → Pad) : (updPad i f s).sites = s.sites := rfl
@[simp] theorem updPad_dies (i : Nat) (f : Pad → Pad) : (updPad i f s).dies = s.dies := rfl
@[simp] theorem updPad_clusters (i : Nat) (f : Pad → Pad) : (updPad i f s).clusters = s.clusters := rfl
@[simp] theorem updPad_stores (i : Nat) (f : Pad → Pad) : (updPad i f s).stores = s.stores := rfl
@[simp] theorem updPad_mem (i : Nat) (f : Pad → Pad) : (updPad i f s).mem = s.mem := rfl
@[simp] theorem updPad_memPoison (i : Nat) (f : Pad → Pad) : (updPad i f s).memPoison = s.memPoison := rfl
@[simp] theorem updPad_memForms (i : Nat) (f : Pad → Pad) : (updPad i f s).memForms = s.memForms := rfl
@[simp] theorem updPad_owners (i : Nat) (f : Pad → Pad) : (updPad i f s).owners = s.owners := rfl
@[simp] theorem updPad_scrubs (i : Nat) (f : Pad → Pad) : (updPad i f s).scrubs = s.scrubs := rfl
@[simp] theorem updPad_parts (i : Nat) (f : Pad → Pad) : (updPad i f s).parts = s.parts := rfl
@[simp] theorem updPad_ctxs (i : Nat) (f : Pad → Pad) : (updPad i f s).ctxs = s.ctxs := rfl
@[simp] theorem updPad_seqs (i : Nat) (f : Pad → Pad) : (updPad i f s).seqs = s.seqs := rfl
@[simp] theorem updPad_dir (i : Nat) (f : Pad → Pad) : (updPad i f s).dir = s.dir := rfl
@[simp] theorem updPad_sq (i : Nat) (f : Pad → Pad) : (updPad i f s).sq = s.sq := rfl
@[simp] theorem updPad_cq (i : Nat) (f : Pad → Pad) : (updPad i f s).cq = s.cq := rfl
@[simp] theorem updPad_tq (i : Nat) (f : Pad → Pad) : (updPad i f s).tq = s.tq := rfl
@[simp] theorem updPad_heldRecs (i : Nat) (f : Pad → Pad) : (updPad i f s).heldRecs = s.heldRecs := rfl
@[simp] theorem updPad_fns (i : Nat) (f : Pad → Pad) : (updPad i f s).fns = s.fns := rfl
@[simp] theorem updPad_link (i : Nat) (f : Pad → Pad) : (updPad i f s).link = s.link := rfl
@[simp] theorem updPad_hostOut (i : Nat) (f : Pad → Pad) : (updPad i f s).hostOut = s.hostOut := rfl
@[simp] theorem updPad_marks (i : Nat) (f : Pad → Pad) : (updPad i f s).marks = s.marks := rfl
@[simp] theorem updPad_net (i : Nat) (f : Pad → Pad) : (updPad i f s).net = s.net := rfl
@[simp] theorem updPad_chans (i : Nat) (f : Pad → Pad) : (updPad i f s).chans = s.chans := rfl
@[simp] theorem updPad_dimmWork (i : Nat) (f : Pad → Pad) : (updPad i f s).dimmWork = s.dimmWork := rfl
@[simp] theorem updPad_dimm (i : Nat) (f : Pad → Pad) : (updPad i f s).dimm = s.dimm := rfl
@[simp] theorem updPad_dimmBad (i : Nat) (f : Pad → Pad) : (updPad i f s).dimmBad = s.dimmBad := rfl
@[simp] theorem updPad_reck (i : Nat) (f : Pad → Pad) : (updPad i f s).reck = s.reck := rfl
@[simp] theorem updPad_power (i : Nat) (f : Pad → Pad) : (updPad i f s).power = s.power := rfl
@[simp] theorem updPad_errs (i : Nat) (f : Pad → Pad) : (updPad i f s).errs = s.errs := rfl
@[simp] theorem updPad_mgmt (i : Nat) (f : Pad → Pad) : (updPad i f s).mgmt = s.mgmt := rfl
@[simp] theorem updPad_pair (i : Nat) (f : Pad → Pad) : (updPad i f s).pair = s.pair := rfl
@[simp] theorem updPad_update (i : Nat) (f : Pad → Pad) : (updPad i f s).update = s.update := rfl

/-! ### updFn -/

@[simp] theorem updFn_pending (i : Nat) (f : FnRegs → FnRegs) : (updFn i f s).pending = s.pending := rfl
@[simp] theorem updFn_freeIx (i : Nat) (f : FnRegs → FnRegs) : (updFn i f s).freeIx = s.freeIx := rfl
@[simp] theorem updFn_serial (i : Nat) (f : FnRegs → FnRegs) : (updFn i f s).serial = s.serial := rfl
@[simp] theorem updFn_life (i : Nat) (f : FnRegs → FnRegs) : (updFn i f s).life = s.life := rfl
@[simp] theorem updFn_build (i : Nat) (f : FnRegs → FnRegs) : (updFn i f s).build = s.build := rfl
@[simp] theorem updFn_flash0 (i : Nat) (f : FnRegs → FnRegs) : (updFn i f s).flash0 = s.flash0 := rfl
@[simp] theorem updFn_flash1 (i : Nat) (f : FnRegs → FnRegs) : (updFn i f s).flash1 = s.flash1 := rfl
@[simp] theorem updFn_log (i : Nat) (f : FnRegs → FnRegs) : (updFn i f s).log = s.log := rfl
@[simp] theorem updFn_settings (i : Nat) (f : FnRegs → FnRegs) : (updFn i f s).settings = s.settings := rfl
@[simp] theorem updFn_bin (i : Nat) (f : FnRegs → FnRegs) : (updFn i f s).bin = s.bin := rfl
@[simp] theorem updFn_wafer (i : Nat) (f : FnRegs → FnRegs) : (updFn i f s).wafer = s.wafer := rfl
@[simp] theorem updFn_sites (i : Nat) (f : FnRegs → FnRegs) : (updFn i f s).sites = s.sites := rfl
@[simp] theorem updFn_dies (i : Nat) (f : FnRegs → FnRegs) : (updFn i f s).dies = s.dies := rfl
@[simp] theorem updFn_clusters (i : Nat) (f : FnRegs → FnRegs) : (updFn i f s).clusters = s.clusters := rfl
@[simp] theorem updFn_stores (i : Nat) (f : FnRegs → FnRegs) : (updFn i f s).stores = s.stores := rfl
@[simp] theorem updFn_mem (i : Nat) (f : FnRegs → FnRegs) : (updFn i f s).mem = s.mem := rfl
@[simp] theorem updFn_memPoison (i : Nat) (f : FnRegs → FnRegs) : (updFn i f s).memPoison = s.memPoison := rfl
@[simp] theorem updFn_memForms (i : Nat) (f : FnRegs → FnRegs) : (updFn i f s).memForms = s.memForms := rfl
@[simp] theorem updFn_owners (i : Nat) (f : FnRegs → FnRegs) : (updFn i f s).owners = s.owners := rfl
@[simp] theorem updFn_scrubs (i : Nat) (f : FnRegs → FnRegs) : (updFn i f s).scrubs = s.scrubs := rfl
@[simp] theorem updFn_parts (i : Nat) (f : FnRegs → FnRegs) : (updFn i f s).parts = s.parts := rfl
@[simp] theorem updFn_ctxs (i : Nat) (f : FnRegs → FnRegs) : (updFn i f s).ctxs = s.ctxs := rfl
@[simp] theorem updFn_seqs (i : Nat) (f : FnRegs → FnRegs) : (updFn i f s).seqs = s.seqs := rfl
@[simp] theorem updFn_dir (i : Nat) (f : FnRegs → FnRegs) : (updFn i f s).dir = s.dir := rfl
@[simp] theorem updFn_sq (i : Nat) (f : FnRegs → FnRegs) : (updFn i f s).sq = s.sq := rfl
@[simp] theorem updFn_cq (i : Nat) (f : FnRegs → FnRegs) : (updFn i f s).cq = s.cq := rfl
@[simp] theorem updFn_tq (i : Nat) (f : FnRegs → FnRegs) : (updFn i f s).tq = s.tq := rfl
@[simp] theorem updFn_heldRecs (i : Nat) (f : FnRegs → FnRegs) : (updFn i f s).heldRecs = s.heldRecs := rfl
@[simp] theorem updFn_fns (i : Nat) (f : FnRegs → FnRegs) : (updFn i f s).fns = s.fns.update i {} f := rfl
@[simp] theorem updFn_link (i : Nat) (f : FnRegs → FnRegs) : (updFn i f s).link = s.link := rfl
@[simp] theorem updFn_hostOut (i : Nat) (f : FnRegs → FnRegs) : (updFn i f s).hostOut = s.hostOut := rfl
@[simp] theorem updFn_marks (i : Nat) (f : FnRegs → FnRegs) : (updFn i f s).marks = s.marks := rfl
@[simp] theorem updFn_net (i : Nat) (f : FnRegs → FnRegs) : (updFn i f s).net = s.net := rfl
@[simp] theorem updFn_chans (i : Nat) (f : FnRegs → FnRegs) : (updFn i f s).chans = s.chans := rfl
@[simp] theorem updFn_dimmWork (i : Nat) (f : FnRegs → FnRegs) : (updFn i f s).dimmWork = s.dimmWork := rfl
@[simp] theorem updFn_dimm (i : Nat) (f : FnRegs → FnRegs) : (updFn i f s).dimm = s.dimm := rfl
@[simp] theorem updFn_dimmBad (i : Nat) (f : FnRegs → FnRegs) : (updFn i f s).dimmBad = s.dimmBad := rfl
@[simp] theorem updFn_reck (i : Nat) (f : FnRegs → FnRegs) : (updFn i f s).reck = s.reck := rfl
@[simp] theorem updFn_power (i : Nat) (f : FnRegs → FnRegs) : (updFn i f s).power = s.power := rfl
@[simp] theorem updFn_errs (i : Nat) (f : FnRegs → FnRegs) : (updFn i f s).errs = s.errs := rfl
@[simp] theorem updFn_mgmt (i : Nat) (f : FnRegs → FnRegs) : (updFn i f s).mgmt = s.mgmt := rfl
@[simp] theorem updFn_pair (i : Nat) (f : FnRegs → FnRegs) : (updFn i f s).pair = s.pair := rfl
@[simp] theorem updFn_update (i : Nat) (f : FnRegs → FnRegs) : (updFn i f s).update = s.update := rfl

/-! ### updRegion -/

@[simp] theorem updRegion_pending (i : Nat) (f : RegionRec → RegionRec) : (updRegion i f s).pending = s.pending := rfl
@[simp] theorem updRegion_freeIx (i : Nat) (f : RegionRec → RegionRec) : (updRegion i f s).freeIx = s.freeIx := rfl
@[simp] theorem updRegion_serial (i : Nat) (f : RegionRec → RegionRec) : (updRegion i f s).serial = s.serial := rfl
@[simp] theorem updRegion_life (i : Nat) (f : RegionRec → RegionRec) : (updRegion i f s).life = s.life := rfl
@[simp] theorem updRegion_build (i : Nat) (f : RegionRec → RegionRec) : (updRegion i f s).build = s.build := rfl
@[simp] theorem updRegion_flash0 (i : Nat) (f : RegionRec → RegionRec) : (updRegion i f s).flash0 = s.flash0 := rfl
@[simp] theorem updRegion_flash1 (i : Nat) (f : RegionRec → RegionRec) : (updRegion i f s).flash1 = s.flash1 := rfl
@[simp] theorem updRegion_log (i : Nat) (f : RegionRec → RegionRec) : (updRegion i f s).log = s.log := rfl
@[simp] theorem updRegion_settings (i : Nat) (f : RegionRec → RegionRec) : (updRegion i f s).settings = s.settings := rfl
@[simp] theorem updRegion_bin (i : Nat) (f : RegionRec → RegionRec) : (updRegion i f s).bin = s.bin := rfl
@[simp] theorem updRegion_wafer (i : Nat) (f : RegionRec → RegionRec) : (updRegion i f s).wafer = s.wafer := rfl
@[simp] theorem updRegion_sites (i : Nat) (f : RegionRec → RegionRec) : (updRegion i f s).sites = s.sites := rfl
@[simp] theorem updRegion_dies (i : Nat) (f : RegionRec → RegionRec) : (updRegion i f s).dies = s.dies := rfl
@[simp] theorem updRegion_clusters (i : Nat) (f : RegionRec → RegionRec) : (updRegion i f s).clusters = s.clusters := rfl
@[simp] theorem updRegion_stores (i : Nat) (f : RegionRec → RegionRec) : (updRegion i f s).stores = s.stores := rfl
@[simp] theorem updRegion_mem (i : Nat) (f : RegionRec → RegionRec) : (updRegion i f s).mem = s.mem := rfl
@[simp] theorem updRegion_memPoison (i : Nat) (f : RegionRec → RegionRec) : (updRegion i f s).memPoison = s.memPoison := rfl
@[simp] theorem updRegion_memForms (i : Nat) (f : RegionRec → RegionRec) : (updRegion i f s).memForms = s.memForms := rfl
@[simp] theorem updRegion_owners (i : Nat) (f : RegionRec → RegionRec) : (updRegion i f s).owners = s.owners := rfl
@[simp] theorem updRegion_scrubs (i : Nat) (f : RegionRec → RegionRec) : (updRegion i f s).scrubs = s.scrubs := rfl
@[simp] theorem updRegion_parts (i : Nat) (f : RegionRec → RegionRec) : (updRegion i f s).parts = s.parts := rfl
@[simp] theorem updRegion_ctxs (i : Nat) (f : RegionRec → RegionRec) : (updRegion i f s).ctxs = s.ctxs := rfl
@[simp] theorem updRegion_seqs (i : Nat) (f : RegionRec → RegionRec) : (updRegion i f s).seqs = s.seqs := rfl
@[simp] theorem updRegion_dir (i : Nat) (f : RegionRec → RegionRec) : (updRegion i f s).dir = s.dir := rfl
@[simp] theorem updRegion_sq (i : Nat) (f : RegionRec → RegionRec) : (updRegion i f s).sq = s.sq := rfl
@[simp] theorem updRegion_cq (i : Nat) (f : RegionRec → RegionRec) : (updRegion i f s).cq = s.cq := rfl
@[simp] theorem updRegion_tq (i : Nat) (f : RegionRec → RegionRec) : (updRegion i f s).tq = s.tq := rfl
@[simp] theorem updRegion_heldRecs (i : Nat) (f : RegionRec → RegionRec) : (updRegion i f s).heldRecs = s.heldRecs := rfl
@[simp] theorem updRegion_fns (i : Nat) (f : RegionRec → RegionRec) : (updRegion i f s).fns = s.fns := rfl
@[simp] theorem updRegion_link (i : Nat) (f : RegionRec → RegionRec) : (updRegion i f s).link = s.link := rfl
@[simp] theorem updRegion_hostOut (i : Nat) (f : RegionRec → RegionRec) : (updRegion i f s).hostOut = s.hostOut := rfl
@[simp] theorem updRegion_marks (i : Nat) (f : RegionRec → RegionRec) : (updRegion i f s).marks = s.marks := rfl
@[simp] theorem updRegion_net (i : Nat) (f : RegionRec → RegionRec) : (updRegion i f s).net = s.net := rfl
@[simp] theorem updRegion_chans (i : Nat) (f : RegionRec → RegionRec) : (updRegion i f s).chans = s.chans := rfl
@[simp] theorem updRegion_dimmWork (i : Nat) (f : RegionRec → RegionRec) : (updRegion i f s).dimmWork = s.dimmWork := rfl
@[simp] theorem updRegion_dimm (i : Nat) (f : RegionRec → RegionRec) : (updRegion i f s).dimm = s.dimm := rfl
@[simp] theorem updRegion_dimmBad (i : Nat) (f : RegionRec → RegionRec) : (updRegion i f s).dimmBad = s.dimmBad := rfl
@[simp] theorem updRegion_reck (i : Nat) (f : RegionRec → RegionRec) : (updRegion i f s).reck = s.reck := rfl
@[simp] theorem updRegion_power (i : Nat) (f : RegionRec → RegionRec) : (updRegion i f s).power = { s.power with regions := s.power.regions.update i {} f } := rfl
@[simp] theorem updRegion_errs (i : Nat) (f : RegionRec → RegionRec) : (updRegion i f s).errs = s.errs := rfl
@[simp] theorem updRegion_mgmt (i : Nat) (f : RegionRec → RegionRec) : (updRegion i f s).mgmt = s.mgmt := rfl
@[simp] theorem updRegion_pair (i : Nat) (f : RegionRec → RegionRec) : (updRegion i f s).pair = s.pair := rfl
@[simp] theorem updRegion_update (i : Nat) (f : RegionRec → RegionRec) : (updRegion i f s).update = s.update := rfl

/-! ### updCtx -/

@[simp] theorem updCtx_pending (i : Nat) (f : Context → Context) : (updCtx i f s).pending = s.pending := rfl
@[simp] theorem updCtx_freeIx (i : Nat) (f : Context → Context) : (updCtx i f s).freeIx = s.freeIx := rfl
@[simp] theorem updCtx_serial (i : Nat) (f : Context → Context) : (updCtx i f s).serial = s.serial := rfl
@[simp] theorem updCtx_life (i : Nat) (f : Context → Context) : (updCtx i f s).life = s.life := rfl
@[simp] theorem updCtx_build (i : Nat) (f : Context → Context) : (updCtx i f s).build = s.build := rfl
@[simp] theorem updCtx_flash0 (i : Nat) (f : Context → Context) : (updCtx i f s).flash0 = s.flash0 := rfl
@[simp] theorem updCtx_flash1 (i : Nat) (f : Context → Context) : (updCtx i f s).flash1 = s.flash1 := rfl
@[simp] theorem updCtx_log (i : Nat) (f : Context → Context) : (updCtx i f s).log = s.log := rfl
@[simp] theorem updCtx_settings (i : Nat) (f : Context → Context) : (updCtx i f s).settings = s.settings := rfl
@[simp] theorem updCtx_bin (i : Nat) (f : Context → Context) : (updCtx i f s).bin = s.bin := rfl
@[simp] theorem updCtx_wafer (i : Nat) (f : Context → Context) : (updCtx i f s).wafer = s.wafer := rfl
@[simp] theorem updCtx_sites (i : Nat) (f : Context → Context) : (updCtx i f s).sites = s.sites := rfl
@[simp] theorem updCtx_dies (i : Nat) (f : Context → Context) : (updCtx i f s).dies = s.dies := rfl
@[simp] theorem updCtx_clusters (i : Nat) (f : Context → Context) : (updCtx i f s).clusters = s.clusters := rfl
@[simp] theorem updCtx_stores (i : Nat) (f : Context → Context) : (updCtx i f s).stores = s.stores := rfl
@[simp] theorem updCtx_mem (i : Nat) (f : Context → Context) : (updCtx i f s).mem = s.mem := rfl
@[simp] theorem updCtx_memPoison (i : Nat) (f : Context → Context) : (updCtx i f s).memPoison = s.memPoison := rfl
@[simp] theorem updCtx_memForms (i : Nat) (f : Context → Context) : (updCtx i f s).memForms = s.memForms := rfl
@[simp] theorem updCtx_owners (i : Nat) (f : Context → Context) : (updCtx i f s).owners = s.owners := rfl
@[simp] theorem updCtx_scrubs (i : Nat) (f : Context → Context) : (updCtx i f s).scrubs = s.scrubs := rfl
@[simp] theorem updCtx_parts (i : Nat) (f : Context → Context) : (updCtx i f s).parts = s.parts := rfl
@[simp] theorem updCtx_ctxs (i : Nat) (f : Context → Context) : (updCtx i f s).ctxs = s.ctxs.modify i f := rfl
@[simp] theorem updCtx_seqs (i : Nat) (f : Context → Context) : (updCtx i f s).seqs = s.seqs := rfl
@[simp] theorem updCtx_dir (i : Nat) (f : Context → Context) : (updCtx i f s).dir = s.dir := rfl
@[simp] theorem updCtx_sq (i : Nat) (f : Context → Context) : (updCtx i f s).sq = s.sq := rfl
@[simp] theorem updCtx_cq (i : Nat) (f : Context → Context) : (updCtx i f s).cq = s.cq := rfl
@[simp] theorem updCtx_tq (i : Nat) (f : Context → Context) : (updCtx i f s).tq = s.tq := rfl
@[simp] theorem updCtx_heldRecs (i : Nat) (f : Context → Context) : (updCtx i f s).heldRecs = s.heldRecs := rfl
@[simp] theorem updCtx_fns (i : Nat) (f : Context → Context) : (updCtx i f s).fns = s.fns := rfl
@[simp] theorem updCtx_link (i : Nat) (f : Context → Context) : (updCtx i f s).link = s.link := rfl
@[simp] theorem updCtx_hostOut (i : Nat) (f : Context → Context) : (updCtx i f s).hostOut = s.hostOut := rfl
@[simp] theorem updCtx_marks (i : Nat) (f : Context → Context) : (updCtx i f s).marks = s.marks := rfl
@[simp] theorem updCtx_net (i : Nat) (f : Context → Context) : (updCtx i f s).net = s.net := rfl
@[simp] theorem updCtx_chans (i : Nat) (f : Context → Context) : (updCtx i f s).chans = s.chans := rfl
@[simp] theorem updCtx_dimmWork (i : Nat) (f : Context → Context) : (updCtx i f s).dimmWork = s.dimmWork := rfl
@[simp] theorem updCtx_dimm (i : Nat) (f : Context → Context) : (updCtx i f s).dimm = s.dimm := rfl
@[simp] theorem updCtx_dimmBad (i : Nat) (f : Context → Context) : (updCtx i f s).dimmBad = s.dimmBad := rfl
@[simp] theorem updCtx_reck (i : Nat) (f : Context → Context) : (updCtx i f s).reck = s.reck := rfl
@[simp] theorem updCtx_power (i : Nat) (f : Context → Context) : (updCtx i f s).power = s.power := rfl
@[simp] theorem updCtx_errs (i : Nat) (f : Context → Context) : (updCtx i f s).errs = s.errs := rfl
@[simp] theorem updCtx_mgmt (i : Nat) (f : Context → Context) : (updCtx i f s).mgmt = s.mgmt := rfl
@[simp] theorem updCtx_pair (i : Nat) (f : Context → Context) : (updCtx i f s).pair = s.pair := rfl
@[simp] theorem updCtx_update (i : Nat) (f : Context → Context) : (updCtx i f s).update = s.update := rfl

/-! ### updPart -/

@[simp] theorem updPart_pending (i : Nat) (f : Partition → Partition) : (updPart i f s).pending = s.pending := rfl
@[simp] theorem updPart_freeIx (i : Nat) (f : Partition → Partition) : (updPart i f s).freeIx = s.freeIx := rfl
@[simp] theorem updPart_serial (i : Nat) (f : Partition → Partition) : (updPart i f s).serial = s.serial := rfl
@[simp] theorem updPart_life (i : Nat) (f : Partition → Partition) : (updPart i f s).life = s.life := rfl
@[simp] theorem updPart_build (i : Nat) (f : Partition → Partition) : (updPart i f s).build = s.build := rfl
@[simp] theorem updPart_flash0 (i : Nat) (f : Partition → Partition) : (updPart i f s).flash0 = s.flash0 := rfl
@[simp] theorem updPart_flash1 (i : Nat) (f : Partition → Partition) : (updPart i f s).flash1 = s.flash1 := rfl
@[simp] theorem updPart_log (i : Nat) (f : Partition → Partition) : (updPart i f s).log = s.log := rfl
@[simp] theorem updPart_settings (i : Nat) (f : Partition → Partition) : (updPart i f s).settings = s.settings := rfl
@[simp] theorem updPart_bin (i : Nat) (f : Partition → Partition) : (updPart i f s).bin = s.bin := rfl
@[simp] theorem updPart_wafer (i : Nat) (f : Partition → Partition) : (updPart i f s).wafer = s.wafer := rfl
@[simp] theorem updPart_sites (i : Nat) (f : Partition → Partition) : (updPart i f s).sites = s.sites := rfl
@[simp] theorem updPart_dies (i : Nat) (f : Partition → Partition) : (updPart i f s).dies = s.dies := rfl
@[simp] theorem updPart_clusters (i : Nat) (f : Partition → Partition) : (updPart i f s).clusters = s.clusters := rfl
@[simp] theorem updPart_stores (i : Nat) (f : Partition → Partition) : (updPart i f s).stores = s.stores := rfl
@[simp] theorem updPart_mem (i : Nat) (f : Partition → Partition) : (updPart i f s).mem = s.mem := rfl
@[simp] theorem updPart_memPoison (i : Nat) (f : Partition → Partition) : (updPart i f s).memPoison = s.memPoison := rfl
@[simp] theorem updPart_memForms (i : Nat) (f : Partition → Partition) : (updPart i f s).memForms = s.memForms := rfl
@[simp] theorem updPart_owners (i : Nat) (f : Partition → Partition) : (updPart i f s).owners = s.owners := rfl
@[simp] theorem updPart_scrubs (i : Nat) (f : Partition → Partition) : (updPart i f s).scrubs = s.scrubs := rfl
@[simp] theorem updPart_parts (i : Nat) (f : Partition → Partition) : (updPart i f s).parts = s.parts.modify i f := rfl
@[simp] theorem updPart_ctxs (i : Nat) (f : Partition → Partition) : (updPart i f s).ctxs = s.ctxs := rfl
@[simp] theorem updPart_seqs (i : Nat) (f : Partition → Partition) : (updPart i f s).seqs = s.seqs := rfl
@[simp] theorem updPart_dir (i : Nat) (f : Partition → Partition) : (updPart i f s).dir = s.dir := rfl
@[simp] theorem updPart_sq (i : Nat) (f : Partition → Partition) : (updPart i f s).sq = s.sq := rfl
@[simp] theorem updPart_cq (i : Nat) (f : Partition → Partition) : (updPart i f s).cq = s.cq := rfl
@[simp] theorem updPart_tq (i : Nat) (f : Partition → Partition) : (updPart i f s).tq = s.tq := rfl
@[simp] theorem updPart_heldRecs (i : Nat) (f : Partition → Partition) : (updPart i f s).heldRecs = s.heldRecs := rfl
@[simp] theorem updPart_fns (i : Nat) (f : Partition → Partition) : (updPart i f s).fns = s.fns := rfl
@[simp] theorem updPart_link (i : Nat) (f : Partition → Partition) : (updPart i f s).link = s.link := rfl
@[simp] theorem updPart_hostOut (i : Nat) (f : Partition → Partition) : (updPart i f s).hostOut = s.hostOut := rfl
@[simp] theorem updPart_marks (i : Nat) (f : Partition → Partition) : (updPart i f s).marks = s.marks := rfl
@[simp] theorem updPart_net (i : Nat) (f : Partition → Partition) : (updPart i f s).net = s.net := rfl
@[simp] theorem updPart_chans (i : Nat) (f : Partition → Partition) : (updPart i f s).chans = s.chans := rfl
@[simp] theorem updPart_dimmWork (i : Nat) (f : Partition → Partition) : (updPart i f s).dimmWork = s.dimmWork := rfl
@[simp] theorem updPart_dimm (i : Nat) (f : Partition → Partition) : (updPart i f s).dimm = s.dimm := rfl
@[simp] theorem updPart_dimmBad (i : Nat) (f : Partition → Partition) : (updPart i f s).dimmBad = s.dimmBad := rfl
@[simp] theorem updPart_reck (i : Nat) (f : Partition → Partition) : (updPart i f s).reck = s.reck := rfl
@[simp] theorem updPart_power (i : Nat) (f : Partition → Partition) : (updPart i f s).power = s.power := rfl
@[simp] theorem updPart_errs (i : Nat) (f : Partition → Partition) : (updPart i f s).errs = s.errs := rfl
@[simp] theorem updPart_mgmt (i : Nat) (f : Partition → Partition) : (updPart i f s).mgmt = s.mgmt := rfl
@[simp] theorem updPart_pair (i : Nat) (f : Partition → Partition) : (updPart i f s).pair = s.pair := rfl
@[simp] theorem updPart_update (i : Nat) (f : Partition → Partition) : (updPart i f s).update = s.update := rfl

/-! ### updStep -/

@[simp] theorem updStep_pending (i : Nat) (f : Step → Step) : (updStep i f s).pending = s.pending := rfl
@[simp] theorem updStep_freeIx (i : Nat) (f : Step → Step) : (updStep i f s).freeIx = s.freeIx := rfl
@[simp] theorem updStep_serial (i : Nat) (f : Step → Step) : (updStep i f s).serial = s.serial := rfl
@[simp] theorem updStep_life (i : Nat) (f : Step → Step) : (updStep i f s).life = s.life := rfl
@[simp] theorem updStep_build (i : Nat) (f : Step → Step) : (updStep i f s).build = s.build := rfl
@[simp] theorem updStep_flash0 (i : Nat) (f : Step → Step) : (updStep i f s).flash0 = s.flash0 := rfl
@[simp] theorem updStep_flash1 (i : Nat) (f : Step → Step) : (updStep i f s).flash1 = s.flash1 := rfl
@[simp] theorem updStep_log (i : Nat) (f : Step → Step) : (updStep i f s).log = s.log := rfl
@[simp] theorem updStep_settings (i : Nat) (f : Step → Step) : (updStep i f s).settings = s.settings := rfl
@[simp] theorem updStep_bin (i : Nat) (f : Step → Step) : (updStep i f s).bin = s.bin := rfl
@[simp] theorem updStep_wafer (i : Nat) (f : Step → Step) : (updStep i f s).wafer = s.wafer := rfl
@[simp] theorem updStep_sites (i : Nat) (f : Step → Step) : (updStep i f s).sites = s.sites := rfl
@[simp] theorem updStep_dies (i : Nat) (f : Step → Step) : (updStep i f s).dies = s.dies := rfl
@[simp] theorem updStep_clusters (i : Nat) (f : Step → Step) : (updStep i f s).clusters = s.clusters := rfl
@[simp] theorem updStep_stores (i : Nat) (f : Step → Step) : (updStep i f s).stores = s.stores := rfl
@[simp] theorem updStep_mem (i : Nat) (f : Step → Step) : (updStep i f s).mem = s.mem := rfl
@[simp] theorem updStep_memPoison (i : Nat) (f : Step → Step) : (updStep i f s).memPoison = s.memPoison := rfl
@[simp] theorem updStep_memForms (i : Nat) (f : Step → Step) : (updStep i f s).memForms = s.memForms := rfl
@[simp] theorem updStep_owners (i : Nat) (f : Step → Step) : (updStep i f s).owners = s.owners := rfl
@[simp] theorem updStep_scrubs (i : Nat) (f : Step → Step) : (updStep i f s).scrubs = s.scrubs := rfl
@[simp] theorem updStep_parts (i : Nat) (f : Step → Step) : (updStep i f s).parts = s.parts.modify i (fun q => { q with step := q.step.map f }) := rfl
@[simp] theorem updStep_ctxs (i : Nat) (f : Step → Step) : (updStep i f s).ctxs = s.ctxs := rfl
@[simp] theorem updStep_seqs (i : Nat) (f : Step → Step) : (updStep i f s).seqs = s.seqs := rfl
@[simp] theorem updStep_dir (i : Nat) (f : Step → Step) : (updStep i f s).dir = s.dir := rfl
@[simp] theorem updStep_sq (i : Nat) (f : Step → Step) : (updStep i f s).sq = s.sq := rfl
@[simp] theorem updStep_cq (i : Nat) (f : Step → Step) : (updStep i f s).cq = s.cq := rfl
@[simp] theorem updStep_tq (i : Nat) (f : Step → Step) : (updStep i f s).tq = s.tq := rfl
@[simp] theorem updStep_heldRecs (i : Nat) (f : Step → Step) : (updStep i f s).heldRecs = s.heldRecs := rfl
@[simp] theorem updStep_fns (i : Nat) (f : Step → Step) : (updStep i f s).fns = s.fns := rfl
@[simp] theorem updStep_link (i : Nat) (f : Step → Step) : (updStep i f s).link = s.link := rfl
@[simp] theorem updStep_hostOut (i : Nat) (f : Step → Step) : (updStep i f s).hostOut = s.hostOut := rfl
@[simp] theorem updStep_marks (i : Nat) (f : Step → Step) : (updStep i f s).marks = s.marks := rfl
@[simp] theorem updStep_net (i : Nat) (f : Step → Step) : (updStep i f s).net = s.net := rfl
@[simp] theorem updStep_chans (i : Nat) (f : Step → Step) : (updStep i f s).chans = s.chans := rfl
@[simp] theorem updStep_dimmWork (i : Nat) (f : Step → Step) : (updStep i f s).dimmWork = s.dimmWork := rfl
@[simp] theorem updStep_dimm (i : Nat) (f : Step → Step) : (updStep i f s).dimm = s.dimm := rfl
@[simp] theorem updStep_dimmBad (i : Nat) (f : Step → Step) : (updStep i f s).dimmBad = s.dimmBad := rfl
@[simp] theorem updStep_reck (i : Nat) (f : Step → Step) : (updStep i f s).reck = s.reck := rfl
@[simp] theorem updStep_power (i : Nat) (f : Step → Step) : (updStep i f s).power = s.power := rfl
@[simp] theorem updStep_errs (i : Nat) (f : Step → Step) : (updStep i f s).errs = s.errs := rfl
@[simp] theorem updStep_mgmt (i : Nat) (f : Step → Step) : (updStep i f s).mgmt = s.mgmt := rfl
@[simp] theorem updStep_pair (i : Nat) (f : Step → Step) : (updStep i f s).pair = s.pair := rfl
@[simp] theorem updStep_update (i : Nat) (f : Step → Step) : (updStep i f s).update = s.update := rfl

/-! ### updSeq -/

@[simp] theorem updSeq_pending (i : Nat) (f : Seq → Seq) : (updSeq i f s).pending = s.pending := rfl
@[simp] theorem updSeq_freeIx (i : Nat) (f : Seq → Seq) : (updSeq i f s).freeIx = s.freeIx := rfl
@[simp] theorem updSeq_serial (i : Nat) (f : Seq → Seq) : (updSeq i f s).serial = s.serial := rfl
@[simp] theorem updSeq_life (i : Nat) (f : Seq → Seq) : (updSeq i f s).life = s.life := rfl
@[simp] theorem updSeq_build (i : Nat) (f : Seq → Seq) : (updSeq i f s).build = s.build := rfl
@[simp] theorem updSeq_flash0 (i : Nat) (f : Seq → Seq) : (updSeq i f s).flash0 = s.flash0 := rfl
@[simp] theorem updSeq_flash1 (i : Nat) (f : Seq → Seq) : (updSeq i f s).flash1 = s.flash1 := rfl
@[simp] theorem updSeq_log (i : Nat) (f : Seq → Seq) : (updSeq i f s).log = s.log := rfl
@[simp] theorem updSeq_settings (i : Nat) (f : Seq → Seq) : (updSeq i f s).settings = s.settings := rfl
@[simp] theorem updSeq_bin (i : Nat) (f : Seq → Seq) : (updSeq i f s).bin = s.bin := rfl
@[simp] theorem updSeq_wafer (i : Nat) (f : Seq → Seq) : (updSeq i f s).wafer = s.wafer := rfl
@[simp] theorem updSeq_sites (i : Nat) (f : Seq → Seq) : (updSeq i f s).sites = s.sites := rfl
@[simp] theorem updSeq_dies (i : Nat) (f : Seq → Seq) : (updSeq i f s).dies = s.dies := rfl
@[simp] theorem updSeq_clusters (i : Nat) (f : Seq → Seq) : (updSeq i f s).clusters = s.clusters := rfl
@[simp] theorem updSeq_stores (i : Nat) (f : Seq → Seq) : (updSeq i f s).stores = s.stores := rfl
@[simp] theorem updSeq_mem (i : Nat) (f : Seq → Seq) : (updSeq i f s).mem = s.mem := rfl
@[simp] theorem updSeq_memPoison (i : Nat) (f : Seq → Seq) : (updSeq i f s).memPoison = s.memPoison := rfl
@[simp] theorem updSeq_memForms (i : Nat) (f : Seq → Seq) : (updSeq i f s).memForms = s.memForms := rfl
@[simp] theorem updSeq_owners (i : Nat) (f : Seq → Seq) : (updSeq i f s).owners = s.owners := rfl
@[simp] theorem updSeq_scrubs (i : Nat) (f : Seq → Seq) : (updSeq i f s).scrubs = s.scrubs := rfl
@[simp] theorem updSeq_parts (i : Nat) (f : Seq → Seq) : (updSeq i f s).parts = s.parts := rfl
@[simp] theorem updSeq_ctxs (i : Nat) (f : Seq → Seq) : (updSeq i f s).ctxs = s.ctxs := rfl
@[simp] theorem updSeq_seqs (i : Nat) (f : Seq → Seq) : (updSeq i f s).seqs = s.seqs.modify i f := rfl
@[simp] theorem updSeq_dir (i : Nat) (f : Seq → Seq) : (updSeq i f s).dir = s.dir := rfl
@[simp] theorem updSeq_sq (i : Nat) (f : Seq → Seq) : (updSeq i f s).sq = s.sq := rfl
@[simp] theorem updSeq_cq (i : Nat) (f : Seq → Seq) : (updSeq i f s).cq = s.cq := rfl
@[simp] theorem updSeq_tq (i : Nat) (f : Seq → Seq) : (updSeq i f s).tq = s.tq := rfl
@[simp] theorem updSeq_heldRecs (i : Nat) (f : Seq → Seq) : (updSeq i f s).heldRecs = s.heldRecs := rfl
@[simp] theorem updSeq_fns (i : Nat) (f : Seq → Seq) : (updSeq i f s).fns = s.fns := rfl
@[simp] theorem updSeq_link (i : Nat) (f : Seq → Seq) : (updSeq i f s).link = s.link := rfl
@[simp] theorem updSeq_hostOut (i : Nat) (f : Seq → Seq) : (updSeq i f s).hostOut = s.hostOut := rfl
@[simp] theorem updSeq_marks (i : Nat) (f : Seq → Seq) : (updSeq i f s).marks = s.marks := rfl
@[simp] theorem updSeq_net (i : Nat) (f : Seq → Seq) : (updSeq i f s).net = s.net := rfl
@[simp] theorem updSeq_chans (i : Nat) (f : Seq → Seq) : (updSeq i f s).chans = s.chans := rfl
@[simp] theorem updSeq_dimmWork (i : Nat) (f : Seq → Seq) : (updSeq i f s).dimmWork = s.dimmWork := rfl
@[simp] theorem updSeq_dimm (i : Nat) (f : Seq → Seq) : (updSeq i f s).dimm = s.dimm := rfl
@[simp] theorem updSeq_dimmBad (i : Nat) (f : Seq → Seq) : (updSeq i f s).dimmBad = s.dimmBad := rfl
@[simp] theorem updSeq_reck (i : Nat) (f : Seq → Seq) : (updSeq i f s).reck = s.reck := rfl
@[simp] theorem updSeq_power (i : Nat) (f : Seq → Seq) : (updSeq i f s).power = s.power := rfl
@[simp] theorem updSeq_errs (i : Nat) (f : Seq → Seq) : (updSeq i f s).errs = s.errs := rfl
@[simp] theorem updSeq_mgmt (i : Nat) (f : Seq → Seq) : (updSeq i f s).mgmt = s.mgmt := rfl
@[simp] theorem updSeq_pair (i : Nat) (f : Seq → Seq) : (updSeq i f s).pair = s.pair := rfl
@[simp] theorem updSeq_update (i : Nat) (f : Seq → Seq) : (updSeq i f s).update = s.update := rfl

/-! ### updPort -/

@[simp] theorem updPort_pending (i : Nat) (f : PortRec → PortRec) : (updPort i f s).pending = s.pending := rfl
@[simp] theorem updPort_freeIx (i : Nat) (f : PortRec → PortRec) : (updPort i f s).freeIx = s.freeIx := rfl
@[simp] theorem updPort_serial (i : Nat) (f : PortRec → PortRec) : (updPort i f s).serial = s.serial := rfl
@[simp] theorem updPort_life (i : Nat) (f : PortRec → PortRec) : (updPort i f s).life = s.life := rfl
@[simp] theorem updPort_build (i : Nat) (f : PortRec → PortRec) : (updPort i f s).build = s.build := rfl
@[simp] theorem updPort_flash0 (i : Nat) (f : PortRec → PortRec) : (updPort i f s).flash0 = s.flash0 := rfl
@[simp] theorem updPort_flash1 (i : Nat) (f : PortRec → PortRec) : (updPort i f s).flash1 = s.flash1 := rfl
@[simp] theorem updPort_log (i : Nat) (f : PortRec → PortRec) : (updPort i f s).log = s.log := rfl
@[simp] theorem updPort_settings (i : Nat) (f : PortRec → PortRec) : (updPort i f s).settings = s.settings := rfl
@[simp] theorem updPort_bin (i : Nat) (f : PortRec → PortRec) : (updPort i f s).bin = s.bin := rfl
@[simp] theorem updPort_wafer (i : Nat) (f : PortRec → PortRec) : (updPort i f s).wafer = s.wafer := rfl
@[simp] theorem updPort_sites (i : Nat) (f : PortRec → PortRec) : (updPort i f s).sites = s.sites := rfl
@[simp] theorem updPort_dies (i : Nat) (f : PortRec → PortRec) : (updPort i f s).dies = s.dies := rfl
@[simp] theorem updPort_clusters (i : Nat) (f : PortRec → PortRec) : (updPort i f s).clusters = s.clusters := rfl
@[simp] theorem updPort_stores (i : Nat) (f : PortRec → PortRec) : (updPort i f s).stores = s.stores := rfl
@[simp] theorem updPort_mem (i : Nat) (f : PortRec → PortRec) : (updPort i f s).mem = s.mem := rfl
@[simp] theorem updPort_memPoison (i : Nat) (f : PortRec → PortRec) : (updPort i f s).memPoison = s.memPoison := rfl
@[simp] theorem updPort_memForms (i : Nat) (f : PortRec → PortRec) : (updPort i f s).memForms = s.memForms := rfl
@[simp] theorem updPort_owners (i : Nat) (f : PortRec → PortRec) : (updPort i f s).owners = s.owners := rfl
@[simp] theorem updPort_scrubs (i : Nat) (f : PortRec → PortRec) : (updPort i f s).scrubs = s.scrubs := rfl
@[simp] theorem updPort_parts (i : Nat) (f : PortRec → PortRec) : (updPort i f s).parts = s.parts := rfl
@[simp] theorem updPort_ctxs (i : Nat) (f : PortRec → PortRec) : (updPort i f s).ctxs = s.ctxs := rfl
@[simp] theorem updPort_seqs (i : Nat) (f : PortRec → PortRec) : (updPort i f s).seqs = s.seqs := rfl
@[simp] theorem updPort_dir (i : Nat) (f : PortRec → PortRec) : (updPort i f s).dir = s.dir := rfl
@[simp] theorem updPort_sq (i : Nat) (f : PortRec → PortRec) : (updPort i f s).sq = s.sq := rfl
@[simp] theorem updPort_cq (i : Nat) (f : PortRec → PortRec) : (updPort i f s).cq = s.cq := rfl
@[simp] theorem updPort_tq (i : Nat) (f : PortRec → PortRec) : (updPort i f s).tq = s.tq := rfl
@[simp] theorem updPort_heldRecs (i : Nat) (f : PortRec → PortRec) : (updPort i f s).heldRecs = s.heldRecs := rfl
@[simp] theorem updPort_fns (i : Nat) (f : PortRec → PortRec) : (updPort i f s).fns = s.fns := rfl
@[simp] theorem updPort_link (i : Nat) (f : PortRec → PortRec) : (updPort i f s).link = s.link := rfl
@[simp] theorem updPort_hostOut (i : Nat) (f : PortRec → PortRec) : (updPort i f s).hostOut = s.hostOut := rfl
@[simp] theorem updPort_marks (i : Nat) (f : PortRec → PortRec) : (updPort i f s).marks = s.marks := rfl
@[simp] theorem updPort_net (i : Nat) (f : PortRec → PortRec) : (updPort i f s).net = s.net := rfl
@[simp] theorem updPort_chans (i : Nat) (f : PortRec → PortRec) : (updPort i f s).chans = s.chans := rfl
@[simp] theorem updPort_dimmWork (i : Nat) (f : PortRec → PortRec) : (updPort i f s).dimmWork = s.dimmWork := rfl
@[simp] theorem updPort_dimm (i : Nat) (f : PortRec → PortRec) : (updPort i f s).dimm = s.dimm := rfl
@[simp] theorem updPort_dimmBad (i : Nat) (f : PortRec → PortRec) : (updPort i f s).dimmBad = s.dimmBad := rfl
@[simp] theorem updPort_reck (i : Nat) (f : PortRec → PortRec) : (updPort i f s).reck = s.reck := rfl
@[simp] theorem updPort_power (i : Nat) (f : PortRec → PortRec) : (updPort i f s).power = s.power := rfl
@[simp] theorem updPort_errs (i : Nat) (f : PortRec → PortRec) : (updPort i f s).errs = s.errs := rfl
@[simp] theorem updPort_mgmt (i : Nat) (f : PortRec → PortRec) : (updPort i f s).mgmt = s.mgmt := rfl
@[simp] theorem updPort_pair (i : Nat) (f : PortRec → PortRec) : (updPort i f s).pair = { s.pair with ports := s.pair.ports.update i {} f } := rfl
@[simp] theorem updPort_update (i : Nat) (f : PortRec → PortRec) : (updPort i f s).update = s.update := rfl

/-! ### updCluster -/

@[simp] theorem updCluster_pending (i : Nat) (f : ClusterRec → ClusterRec) : (updCluster i f s).pending = s.pending := rfl
@[simp] theorem updCluster_freeIx (i : Nat) (f : ClusterRec → ClusterRec) : (updCluster i f s).freeIx = s.freeIx := rfl
@[simp] theorem updCluster_serial (i : Nat) (f : ClusterRec → ClusterRec) : (updCluster i f s).serial = s.serial := rfl
@[simp] theorem updCluster_life (i : Nat) (f : ClusterRec → ClusterRec) : (updCluster i f s).life = s.life := rfl
@[simp] theorem updCluster_build (i : Nat) (f : ClusterRec → ClusterRec) : (updCluster i f s).build = s.build := rfl
@[simp] theorem updCluster_flash0 (i : Nat) (f : ClusterRec → ClusterRec) : (updCluster i f s).flash0 = s.flash0 := rfl
@[simp] theorem updCluster_flash1 (i : Nat) (f : ClusterRec → ClusterRec) : (updCluster i f s).flash1 = s.flash1 := rfl
@[simp] theorem updCluster_log (i : Nat) (f : ClusterRec → ClusterRec) : (updCluster i f s).log = s.log := rfl
@[simp] theorem updCluster_settings (i : Nat) (f : ClusterRec → ClusterRec) : (updCluster i f s).settings = s.settings := rfl
@[simp] theorem updCluster_bin (i : Nat) (f : ClusterRec → ClusterRec) : (updCluster i f s).bin = s.bin := rfl
@[simp] theorem updCluster_wafer (i : Nat) (f : ClusterRec → ClusterRec) : (updCluster i f s).wafer = s.wafer := rfl
@[simp] theorem updCluster_sites (i : Nat) (f : ClusterRec → ClusterRec) : (updCluster i f s).sites = s.sites := rfl
@[simp] theorem updCluster_dies (i : Nat) (f : ClusterRec → ClusterRec) : (updCluster i f s).dies = s.dies := rfl
@[simp] theorem updCluster_clusters (i : Nat) (f : ClusterRec → ClusterRec) : (updCluster i f s).clusters = s.clusters.update i {} f := rfl
@[simp] theorem updCluster_stores (i : Nat) (f : ClusterRec → ClusterRec) : (updCluster i f s).stores = s.stores := rfl
@[simp] theorem updCluster_mem (i : Nat) (f : ClusterRec → ClusterRec) : (updCluster i f s).mem = s.mem := rfl
@[simp] theorem updCluster_memPoison (i : Nat) (f : ClusterRec → ClusterRec) : (updCluster i f s).memPoison = s.memPoison := rfl
@[simp] theorem updCluster_memForms (i : Nat) (f : ClusterRec → ClusterRec) : (updCluster i f s).memForms = s.memForms := rfl
@[simp] theorem updCluster_owners (i : Nat) (f : ClusterRec → ClusterRec) : (updCluster i f s).owners = s.owners := rfl
@[simp] theorem updCluster_scrubs (i : Nat) (f : ClusterRec → ClusterRec) : (updCluster i f s).scrubs = s.scrubs := rfl
@[simp] theorem updCluster_parts (i : Nat) (f : ClusterRec → ClusterRec) : (updCluster i f s).parts = s.parts := rfl
@[simp] theorem updCluster_ctxs (i : Nat) (f : ClusterRec → ClusterRec) : (updCluster i f s).ctxs = s.ctxs := rfl
@[simp] theorem updCluster_seqs (i : Nat) (f : ClusterRec → ClusterRec) : (updCluster i f s).seqs = s.seqs := rfl
@[simp] theorem updCluster_dir (i : Nat) (f : ClusterRec → ClusterRec) : (updCluster i f s).dir = s.dir := rfl
@[simp] theorem updCluster_sq (i : Nat) (f : ClusterRec → ClusterRec) : (updCluster i f s).sq = s.sq := rfl
@[simp] theorem updCluster_cq (i : Nat) (f : ClusterRec → ClusterRec) : (updCluster i f s).cq = s.cq := rfl
@[simp] theorem updCluster_tq (i : Nat) (f : ClusterRec → ClusterRec) : (updCluster i f s).tq = s.tq := rfl
@[simp] theorem updCluster_heldRecs (i : Nat) (f : ClusterRec → ClusterRec) : (updCluster i f s).heldRecs = s.heldRecs := rfl
@[simp] theorem updCluster_fns (i : Nat) (f : ClusterRec → ClusterRec) : (updCluster i f s).fns = s.fns := rfl
@[simp] theorem updCluster_link (i : Nat) (f : ClusterRec → ClusterRec) : (updCluster i f s).link = s.link := rfl
@[simp] theorem updCluster_hostOut (i : Nat) (f : ClusterRec → ClusterRec) : (updCluster i f s).hostOut = s.hostOut := rfl
@[simp] theorem updCluster_marks (i : Nat) (f : ClusterRec → ClusterRec) : (updCluster i f s).marks = s.marks := rfl
@[simp] theorem updCluster_net (i : Nat) (f : ClusterRec → ClusterRec) : (updCluster i f s).net = s.net := rfl
@[simp] theorem updCluster_chans (i : Nat) (f : ClusterRec → ClusterRec) : (updCluster i f s).chans = s.chans := rfl
@[simp] theorem updCluster_dimmWork (i : Nat) (f : ClusterRec → ClusterRec) : (updCluster i f s).dimmWork = s.dimmWork := rfl
@[simp] theorem updCluster_dimm (i : Nat) (f : ClusterRec → ClusterRec) : (updCluster i f s).dimm = s.dimm := rfl
@[simp] theorem updCluster_dimmBad (i : Nat) (f : ClusterRec → ClusterRec) : (updCluster i f s).dimmBad = s.dimmBad := rfl
@[simp] theorem updCluster_reck (i : Nat) (f : ClusterRec → ClusterRec) : (updCluster i f s).reck = s.reck := rfl
@[simp] theorem updCluster_power (i : Nat) (f : ClusterRec → ClusterRec) : (updCluster i f s).power = s.power := rfl
@[simp] theorem updCluster_errs (i : Nat) (f : ClusterRec → ClusterRec) : (updCluster i f s).errs = s.errs := rfl
@[simp] theorem updCluster_mgmt (i : Nat) (f : ClusterRec → ClusterRec) : (updCluster i f s).mgmt = s.mgmt := rfl
@[simp] theorem updCluster_pair (i : Nat) (f : ClusterRec → ClusterRec) : (updCluster i f s).pair = s.pair := rfl
@[simp] theorem updCluster_update (i : Nat) (f : ClusterRec → ClusterRec) : (updCluster i f s).update = s.update := rfl

/-! ### updStore -/

@[simp] theorem updStore_pending (m : StoreRef) (f : StoreRec → StoreRec) : (updStore m f s).pending = s.pending := rfl
@[simp] theorem updStore_freeIx (m : StoreRef) (f : StoreRec → StoreRec) : (updStore m f s).freeIx = s.freeIx := rfl
@[simp] theorem updStore_serial (m : StoreRef) (f : StoreRec → StoreRec) : (updStore m f s).serial = s.serial := rfl
@[simp] theorem updStore_life (m : StoreRef) (f : StoreRec → StoreRec) : (updStore m f s).life = s.life := rfl
@[simp] theorem updStore_build (m : StoreRef) (f : StoreRec → StoreRec) : (updStore m f s).build = s.build := rfl
@[simp] theorem updStore_flash0 (m : StoreRef) (f : StoreRec → StoreRec) : (updStore m f s).flash0 = s.flash0 := rfl
@[simp] theorem updStore_flash1 (m : StoreRef) (f : StoreRec → StoreRec) : (updStore m f s).flash1 = s.flash1 := rfl
@[simp] theorem updStore_log (m : StoreRef) (f : StoreRec → StoreRec) : (updStore m f s).log = s.log := rfl
@[simp] theorem updStore_settings (m : StoreRef) (f : StoreRec → StoreRec) : (updStore m f s).settings = s.settings := rfl
@[simp] theorem updStore_bin (m : StoreRef) (f : StoreRec → StoreRec) : (updStore m f s).bin = s.bin := rfl
@[simp] theorem updStore_wafer (m : StoreRef) (f : StoreRec → StoreRec) : (updStore m f s).wafer = s.wafer := rfl
@[simp] theorem updStore_sites (m : StoreRef) (f : StoreRec → StoreRec) : (updStore m f s).sites = s.sites := rfl
@[simp] theorem updStore_dies (m : StoreRef) (f : StoreRec → StoreRec) : (updStore m f s).dies = s.dies := rfl
@[simp] theorem updStore_clusters (m : StoreRef) (f : StoreRec → StoreRec) : (updStore m f s).clusters = s.clusters := rfl
@[simp] theorem updStore_stores (m : StoreRef) (f : StoreRec → StoreRec) : (updStore m f s).stores = s.stores.update (storeKey m) {} f := rfl
@[simp] theorem updStore_mem (m : StoreRef) (f : StoreRec → StoreRec) : (updStore m f s).mem = s.mem := rfl
@[simp] theorem updStore_memPoison (m : StoreRef) (f : StoreRec → StoreRec) : (updStore m f s).memPoison = s.memPoison := rfl
@[simp] theorem updStore_memForms (m : StoreRef) (f : StoreRec → StoreRec) : (updStore m f s).memForms = s.memForms := rfl
@[simp] theorem updStore_owners (m : StoreRef) (f : StoreRec → StoreRec) : (updStore m f s).owners = s.owners := rfl
@[simp] theorem updStore_scrubs (m : StoreRef) (f : StoreRec → StoreRec) : (updStore m f s).scrubs = s.scrubs := rfl
@[simp] theorem updStore_parts (m : StoreRef) (f : StoreRec → StoreRec) : (updStore m f s).parts = s.parts := rfl
@[simp] theorem updStore_ctxs (m : StoreRef) (f : StoreRec → StoreRec) : (updStore m f s).ctxs = s.ctxs := rfl
@[simp] theorem updStore_seqs (m : StoreRef) (f : StoreRec → StoreRec) : (updStore m f s).seqs = s.seqs := rfl
@[simp] theorem updStore_dir (m : StoreRef) (f : StoreRec → StoreRec) : (updStore m f s).dir = s.dir := rfl
@[simp] theorem updStore_sq (m : StoreRef) (f : StoreRec → StoreRec) : (updStore m f s).sq = s.sq := rfl
@[simp] theorem updStore_cq (m : StoreRef) (f : StoreRec → StoreRec) : (updStore m f s).cq = s.cq := rfl
@[simp] theorem updStore_tq (m : StoreRef) (f : StoreRec → StoreRec) : (updStore m f s).tq = s.tq := rfl
@[simp] theorem updStore_heldRecs (m : StoreRef) (f : StoreRec → StoreRec) : (updStore m f s).heldRecs = s.heldRecs := rfl
@[simp] theorem updStore_fns (m : StoreRef) (f : StoreRec → StoreRec) : (updStore m f s).fns = s.fns := rfl
@[simp] theorem updStore_link (m : StoreRef) (f : StoreRec → StoreRec) : (updStore m f s).link = s.link := rfl
@[simp] theorem updStore_hostOut (m : StoreRef) (f : StoreRec → StoreRec) : (updStore m f s).hostOut = s.hostOut := rfl
@[simp] theorem updStore_marks (m : StoreRef) (f : StoreRec → StoreRec) : (updStore m f s).marks = s.marks := rfl
@[simp] theorem updStore_net (m : StoreRef) (f : StoreRec → StoreRec) : (updStore m f s).net = s.net := rfl
@[simp] theorem updStore_chans (m : StoreRef) (f : StoreRec → StoreRec) : (updStore m f s).chans = s.chans := rfl
@[simp] theorem updStore_dimmWork (m : StoreRef) (f : StoreRec → StoreRec) : (updStore m f s).dimmWork = s.dimmWork := rfl
@[simp] theorem updStore_dimm (m : StoreRef) (f : StoreRec → StoreRec) : (updStore m f s).dimm = s.dimm := rfl
@[simp] theorem updStore_dimmBad (m : StoreRef) (f : StoreRec → StoreRec) : (updStore m f s).dimmBad = s.dimmBad := rfl
@[simp] theorem updStore_reck (m : StoreRef) (f : StoreRec → StoreRec) : (updStore m f s).reck = s.reck := rfl
@[simp] theorem updStore_power (m : StoreRef) (f : StoreRec → StoreRec) : (updStore m f s).power = s.power := rfl
@[simp] theorem updStore_errs (m : StoreRef) (f : StoreRec → StoreRec) : (updStore m f s).errs = s.errs := rfl
@[simp] theorem updStore_mgmt (m : StoreRef) (f : StoreRec → StoreRec) : (updStore m f s).mgmt = s.mgmt := rfl
@[simp] theorem updStore_pair (m : StoreRef) (f : StoreRec → StoreRec) : (updStore m f s).pair = s.pair := rfl
@[simp] theorem updStore_update (m : StoreRef) (f : StoreRec → StoreRec) : (updStore m f s).update = s.update := rfl

/-! ### updCounters -/

@[simp] theorem updCounters_pending (i : Nat) (f : DieCounters → DieCounters) : (updCounters i f s).pending = s.pending := rfl
@[simp] theorem updCounters_freeIx (i : Nat) (f : DieCounters → DieCounters) : (updCounters i f s).freeIx = s.freeIx := rfl
@[simp] theorem updCounters_serial (i : Nat) (f : DieCounters → DieCounters) : (updCounters i f s).serial = s.serial := rfl
@[simp] theorem updCounters_life (i : Nat) (f : DieCounters → DieCounters) : (updCounters i f s).life = s.life := rfl
@[simp] theorem updCounters_build (i : Nat) (f : DieCounters → DieCounters) : (updCounters i f s).build = s.build := rfl
@[simp] theorem updCounters_flash0 (i : Nat) (f : DieCounters → DieCounters) : (updCounters i f s).flash0 = s.flash0 := rfl
@[simp] theorem updCounters_flash1 (i : Nat) (f : DieCounters → DieCounters) : (updCounters i f s).flash1 = s.flash1 := rfl
@[simp] theorem updCounters_log (i : Nat) (f : DieCounters → DieCounters) : (updCounters i f s).log = s.log := rfl
@[simp] theorem updCounters_settings (i : Nat) (f : DieCounters → DieCounters) : (updCounters i f s).settings = s.settings := rfl
@[simp] theorem updCounters_bin (i : Nat) (f : DieCounters → DieCounters) : (updCounters i f s).bin = s.bin := rfl
@[simp] theorem updCounters_wafer (i : Nat) (f : DieCounters → DieCounters) : (updCounters i f s).wafer = s.wafer := rfl
@[simp] theorem updCounters_sites (i : Nat) (f : DieCounters → DieCounters) : (updCounters i f s).sites = s.sites := rfl
@[simp] theorem updCounters_dies (i : Nat) (f : DieCounters → DieCounters) : (updCounters i f s).dies = s.dies.update i {} (fun r => { r with counters := f r.counters }) := rfl
@[simp] theorem updCounters_clusters (i : Nat) (f : DieCounters → DieCounters) : (updCounters i f s).clusters = s.clusters := rfl
@[simp] theorem updCounters_stores (i : Nat) (f : DieCounters → DieCounters) : (updCounters i f s).stores = s.stores := rfl
@[simp] theorem updCounters_mem (i : Nat) (f : DieCounters → DieCounters) : (updCounters i f s).mem = s.mem := rfl
@[simp] theorem updCounters_memPoison (i : Nat) (f : DieCounters → DieCounters) : (updCounters i f s).memPoison = s.memPoison := rfl
@[simp] theorem updCounters_memForms (i : Nat) (f : DieCounters → DieCounters) : (updCounters i f s).memForms = s.memForms := rfl
@[simp] theorem updCounters_owners (i : Nat) (f : DieCounters → DieCounters) : (updCounters i f s).owners = s.owners := rfl
@[simp] theorem updCounters_scrubs (i : Nat) (f : DieCounters → DieCounters) : (updCounters i f s).scrubs = s.scrubs := rfl
@[simp] theorem updCounters_parts (i : Nat) (f : DieCounters → DieCounters) : (updCounters i f s).parts = s.parts := rfl
@[simp] theorem updCounters_ctxs (i : Nat) (f : DieCounters → DieCounters) : (updCounters i f s).ctxs = s.ctxs := rfl
@[simp] theorem updCounters_seqs (i : Nat) (f : DieCounters → DieCounters) : (updCounters i f s).seqs = s.seqs := rfl
@[simp] theorem updCounters_dir (i : Nat) (f : DieCounters → DieCounters) : (updCounters i f s).dir = s.dir := rfl
@[simp] theorem updCounters_sq (i : Nat) (f : DieCounters → DieCounters) : (updCounters i f s).sq = s.sq := rfl
@[simp] theorem updCounters_cq (i : Nat) (f : DieCounters → DieCounters) : (updCounters i f s).cq = s.cq := rfl
@[simp] theorem updCounters_tq (i : Nat) (f : DieCounters → DieCounters) : (updCounters i f s).tq = s.tq := rfl
@[simp] theorem updCounters_heldRecs (i : Nat) (f : DieCounters → DieCounters) : (updCounters i f s).heldRecs = s.heldRecs := rfl
@[simp] theorem updCounters_fns (i : Nat) (f : DieCounters → DieCounters) : (updCounters i f s).fns = s.fns := rfl
@[simp] theorem updCounters_link (i : Nat) (f : DieCounters → DieCounters) : (updCounters i f s).link = s.link := rfl
@[simp] theorem updCounters_hostOut (i : Nat) (f : DieCounters → DieCounters) : (updCounters i f s).hostOut = s.hostOut := rfl
@[simp] theorem updCounters_marks (i : Nat) (f : DieCounters → DieCounters) : (updCounters i f s).marks = s.marks := rfl
@[simp] theorem updCounters_net (i : Nat) (f : DieCounters → DieCounters) : (updCounters i f s).net = s.net := rfl
@[simp] theorem updCounters_chans (i : Nat) (f : DieCounters → DieCounters) : (updCounters i f s).chans = s.chans := rfl
@[simp] theorem updCounters_dimmWork (i : Nat) (f : DieCounters → DieCounters) : (updCounters i f s).dimmWork = s.dimmWork := rfl
@[simp] theorem updCounters_dimm (i : Nat) (f : DieCounters → DieCounters) : (updCounters i f s).dimm = s.dimm := rfl
@[simp] theorem updCounters_dimmBad (i : Nat) (f : DieCounters → DieCounters) : (updCounters i f s).dimmBad = s.dimmBad := rfl
@[simp] theorem updCounters_reck (i : Nat) (f : DieCounters → DieCounters) : (updCounters i f s).reck = s.reck := rfl
@[simp] theorem updCounters_power (i : Nat) (f : DieCounters → DieCounters) : (updCounters i f s).power = s.power := rfl
@[simp] theorem updCounters_errs (i : Nat) (f : DieCounters → DieCounters) : (updCounters i f s).errs = s.errs := rfl
@[simp] theorem updCounters_mgmt (i : Nat) (f : DieCounters → DieCounters) : (updCounters i f s).mgmt = s.mgmt := rfl
@[simp] theorem updCounters_pair (i : Nat) (f : DieCounters → DieCounters) : (updCounters i f s).pair = s.pair := rfl
@[simp] theorem updCounters_update (i : Nat) (f : DieCounters → DieCounters) : (updCounters i f s).update = s.update := rfl

end Sys2Proof.Machine
end

