-- ==== Sys2Proof/Laws/Ops.lean ====
section
/-! SUPPORT. What each operation that several families share can do: every part of the State that it leaves as it was. -/
set_option Elab.async false
namespace Sys2Proof.Machine

variable (s : State)

/-! ### ssWrite -/

@[simp] theorem ssWrite_pending (a : Nat) (bs : List Byte) : (ssWrite s a bs).pending = s.pending := rfl
@[simp] theorem ssWrite_freeIx (a : Nat) (bs : List Byte) : (ssWrite s a bs).freeIx = s.freeIx := rfl
@[simp] theorem ssWrite_serial (a : Nat) (bs : List Byte) : (ssWrite s a bs).serial = s.serial := rfl
@[simp] theorem ssWrite_life (a : Nat) (bs : List Byte) : (ssWrite s a bs).life = s.life := rfl
@[simp] theorem ssWrite_build (a : Nat) (bs : List Byte) : (ssWrite s a bs).build = s.build := rfl
@[simp] theorem ssWrite_flash0 (a : Nat) (bs : List Byte) : (ssWrite s a bs).flash0 = s.flash0 := rfl
@[simp] theorem ssWrite_flash1 (a : Nat) (bs : List Byte) : (ssWrite s a bs).flash1 = s.flash1 := rfl
@[simp] theorem ssWrite_log (a : Nat) (bs : List Byte) : (ssWrite s a bs).log = s.log := rfl
@[simp] theorem ssWrite_settings (a : Nat) (bs : List Byte) : (ssWrite s a bs).settings = s.settings := rfl
@[simp] theorem ssWrite_bin (a : Nat) (bs : List Byte) : (ssWrite s a bs).bin = s.bin := rfl
@[simp] theorem ssWrite_wafer (a : Nat) (bs : List Byte) : (ssWrite s a bs).wafer = s.wafer := rfl
@[simp] theorem ssWrite_sites (a : Nat) (bs : List Byte) : (ssWrite s a bs).sites = s.sites := rfl
@[simp] theorem ssWrite_dies (a : Nat) (bs : List Byte) : (ssWrite s a bs).dies = s.dies := rfl
@[simp] theorem ssWrite_clusters (a : Nat) (bs : List Byte) : (ssWrite s a bs).clusters = s.clusters := rfl
@[simp] theorem ssWrite_owners (a : Nat) (bs : List Byte) : (ssWrite s a bs).owners = s.owners := rfl
@[simp] theorem ssWrite_scrubs (a : Nat) (bs : List Byte) : (ssWrite s a bs).scrubs = s.scrubs := rfl
@[simp] theorem ssWrite_parts (a : Nat) (bs : List Byte) : (ssWrite s a bs).parts = s.parts := rfl
@[simp] theorem ssWrite_ctxs (a : Nat) (bs : List Byte) : (ssWrite s a bs).ctxs = s.ctxs := rfl
@[simp] theorem ssWrite_seqs (a : Nat) (bs : List Byte) : (ssWrite s a bs).seqs = s.seqs := rfl
@[simp] theorem ssWrite_dir (a : Nat) (bs : List Byte) : (ssWrite s a bs).dir = s.dir := rfl
@[simp] theorem ssWrite_sq (a : Nat) (bs : List Byte) : (ssWrite s a bs).sq = s.sq := rfl
@[simp] theorem ssWrite_cq (a : Nat) (bs : List Byte) : (ssWrite s a bs).cq = s.cq := rfl
@[simp] theorem ssWrite_tq (a : Nat) (bs : List Byte) : (ssWrite s a bs).tq = s.tq := rfl
@[simp] theorem ssWrite_heldRecs (a : Nat) (bs : List Byte) : (ssWrite s a bs).heldRecs = s.heldRecs := rfl
@[simp] theorem ssWrite_fns (a : Nat) (bs : List Byte) : (ssWrite s a bs).fns = s.fns := rfl
@[simp] theorem ssWrite_link (a : Nat) (bs : List Byte) : (ssWrite s a bs).link = s.link := rfl
@[simp] theorem ssWrite_hostOut (a : Nat) (bs : List Byte) : (ssWrite s a bs).hostOut = s.hostOut := rfl
@[simp] theorem ssWrite_marks (a : Nat) (bs : List Byte) : (ssWrite s a bs).marks = s.marks := rfl
@[simp] theorem ssWrite_net (a : Nat) (bs : List Byte) : (ssWrite s a bs).net = s.net := rfl
@[simp] theorem ssWrite_chans (a : Nat) (bs : List Byte) : (ssWrite s a bs).chans = s.chans := rfl
@[simp] theorem ssWrite_dimmWork (a : Nat) (bs : List Byte) : (ssWrite s a bs).dimmWork = s.dimmWork := rfl
@[simp] theorem ssWrite_dimm (a : Nat) (bs : List Byte) : (ssWrite s a bs).dimm = s.dimm := rfl
@[simp] theorem ssWrite_dimmBad (a : Nat) (bs : List Byte) : (ssWrite s a bs).dimmBad = s.dimmBad := rfl
@[simp] theorem ssWrite_reck (a : Nat) (bs : List Byte) : (ssWrite s a bs).reck = s.reck := rfl
@[simp] theorem ssWrite_power (a : Nat) (bs : List Byte) : (ssWrite s a bs).power = s.power := rfl
@[simp] theorem ssWrite_errs (a : Nat) (bs : List Byte) : (ssWrite s a bs).errs = s.errs := rfl
@[simp] theorem ssWrite_mgmt (a : Nat) (bs : List Byte) : (ssWrite s a bs).mgmt = s.mgmt := rfl
@[simp] theorem ssWrite_pair (a : Nat) (bs : List Byte) : (ssWrite s a bs).pair = s.pair := rfl
@[simp] theorem ssWrite_update (a : Nat) (bs : List Byte) : (ssWrite s a bs).update = s.update := rfl

/-! ### ssClear -/

@[simp] theorem ssClear_pending (a n : Nat) : (ssClear s a n).pending = s.pending := rfl
@[simp] theorem ssClear_freeIx (a n : Nat) : (ssClear s a n).freeIx = s.freeIx := rfl
@[simp] theorem ssClear_serial (a n : Nat) : (ssClear s a n).serial = s.serial := rfl
@[simp] theorem ssClear_life (a n : Nat) : (ssClear s a n).life = s.life := rfl
@[simp] theorem ssClear_build (a n : Nat) : (ssClear s a n).build = s.build := rfl
@[simp] theorem ssClear_flash0 (a n : Nat) : (ssClear s a n).flash0 = s.flash0 := rfl
@[simp] theorem ssClear_flash1 (a n : Nat) : (ssClear s a n).flash1 = s.flash1 := rfl
@[simp] theorem ssClear_log (a n : Nat) : (ssClear s a n).log = s.log := rfl
@[simp] theorem ssClear_settings (a n : Nat) : (ssClear s a n).settings = s.settings := rfl
@[simp] theorem ssClear_bin (a n : Nat) : (ssClear s a n).bin = s.bin := rfl
@[simp] theorem ssClear_wafer (a n : Nat) : (ssClear s a n).wafer = s.wafer := rfl
@[simp] theorem ssClear_sites (a n : Nat) : (ssClear s a n).sites = s.sites := rfl
@[simp] theorem ssClear_dies (a n : Nat) : (ssClear s a n).dies = s.dies := rfl
@[simp] theorem ssClear_clusters (a n : Nat) : (ssClear s a n).clusters = s.clusters := rfl
@[simp] theorem ssClear_owners (a n : Nat) : (ssClear s a n).owners = s.owners := rfl
@[simp] theorem ssClear_scrubs (a n : Nat) : (ssClear s a n).scrubs = s.scrubs := rfl
@[simp] theorem ssClear_parts (a n : Nat) : (ssClear s a n).parts = s.parts := rfl
@[simp] theorem ssClear_ctxs (a n : Nat) : (ssClear s a n).ctxs = s.ctxs := rfl
@[simp] theorem ssClear_seqs (a n : Nat) : (ssClear s a n).seqs = s.seqs := rfl
@[simp] theorem ssClear_dir (a n : Nat) : (ssClear s a n).dir = s.dir := rfl
@[simp] theorem ssClear_sq (a n : Nat) : (ssClear s a n).sq = s.sq := rfl
@[simp] theorem ssClear_cq (a n : Nat) : (ssClear s a n).cq = s.cq := rfl
@[simp] theorem ssClear_tq (a n : Nat) : (ssClear s a n).tq = s.tq := rfl
@[simp] theorem ssClear_heldRecs (a n : Nat) : (ssClear s a n).heldRecs = s.heldRecs := rfl
@[simp] theorem ssClear_fns (a n : Nat) : (ssClear s a n).fns = s.fns := rfl
@[simp] theorem ssClear_link (a n : Nat) : (ssClear s a n).link = s.link := rfl
@[simp] theorem ssClear_hostOut (a n : Nat) : (ssClear s a n).hostOut = s.hostOut := rfl
@[simp] theorem ssClear_marks (a n : Nat) : (ssClear s a n).marks = s.marks := rfl
@[simp] theorem ssClear_net (a n : Nat) : (ssClear s a n).net = s.net := rfl
@[simp] theorem ssClear_chans (a n : Nat) : (ssClear s a n).chans = s.chans := rfl
@[simp] theorem ssClear_dimmWork (a n : Nat) : (ssClear s a n).dimmWork = s.dimmWork := rfl
@[simp] theorem ssClear_dimm (a n : Nat) : (ssClear s a n).dimm = s.dimm := rfl
@[simp] theorem ssClear_dimmBad (a n : Nat) : (ssClear s a n).dimmBad = s.dimmBad := rfl
@[simp] theorem ssClear_reck (a n : Nat) : (ssClear s a n).reck = s.reck := rfl
@[simp] theorem ssClear_power (a n : Nat) : (ssClear s a n).power = s.power := rfl
@[simp] theorem ssClear_errs (a n : Nat) : (ssClear s a n).errs = s.errs := rfl
@[simp] theorem ssClear_mgmt (a n : Nat) : (ssClear s a n).mgmt = s.mgmt := rfl
@[simp] theorem ssClear_pair (a n : Nat) : (ssClear s a n).pair = s.pair := rfl
@[simp] theorem ssClear_update (a n : Nat) : (ssClear s a n).update = s.update := rfl

/-! ### ssPoison -/

@[simp] theorem ssPoison_pending (w : Nat) : (ssPoison s w).pending = s.pending := rfl
@[simp] theorem ssPoison_freeIx (w : Nat) : (ssPoison s w).freeIx = s.freeIx := rfl
@[simp] theorem ssPoison_serial (w : Nat) : (ssPoison s w).serial = s.serial := rfl
@[simp] theorem ssPoison_life (w : Nat) : (ssPoison s w).life = s.life := rfl
@[simp] theorem ssPoison_build (w : Nat) : (ssPoison s w).build = s.build := rfl
@[simp] theorem ssPoison_flash0 (w : Nat) : (ssPoison s w).flash0 = s.flash0 := rfl
@[simp] theorem ssPoison_flash1 (w : Nat) : (ssPoison s w).flash1 = s.flash1 := rfl
@[simp] theorem ssPoison_log (w : Nat) : (ssPoison s w).log = s.log := rfl
@[simp] theorem ssPoison_settings (w : Nat) : (ssPoison s w).settings = s.settings := rfl
@[simp] theorem ssPoison_bin (w : Nat) : (ssPoison s w).bin = s.bin := rfl
@[simp] theorem ssPoison_wafer (w : Nat) : (ssPoison s w).wafer = s.wafer := rfl
@[simp] theorem ssPoison_sites (w : Nat) : (ssPoison s w).sites = s.sites := rfl
@[simp] theorem ssPoison_dies (w : Nat) : (ssPoison s w).dies = s.dies := rfl
@[simp] theorem ssPoison_clusters (w : Nat) : (ssPoison s w).clusters = s.clusters := rfl
@[simp] theorem ssPoison_owners (w : Nat) : (ssPoison s w).owners = s.owners := rfl
@[simp] theorem ssPoison_scrubs (w : Nat) : (ssPoison s w).scrubs = s.scrubs := rfl
@[simp] theorem ssPoison_parts (w : Nat) : (ssPoison s w).parts = s.parts := rfl
@[simp] theorem ssPoison_ctxs (w : Nat) : (ssPoison s w).ctxs = s.ctxs := rfl
@[simp] theorem ssPoison_seqs (w : Nat) : (ssPoison s w).seqs = s.seqs := rfl
@[simp] theorem ssPoison_dir (w : Nat) : (ssPoison s w).dir = s.dir := rfl
@[simp] theorem ssPoison_sq (w : Nat) : (ssPoison s w).sq = s.sq := rfl
@[simp] theorem ssPoison_cq (w : Nat) : (ssPoison s w).cq = s.cq := rfl
@[simp] theorem ssPoison_tq (w : Nat) : (ssPoison s w).tq = s.tq := rfl
@[simp] theorem ssPoison_heldRecs (w : Nat) : (ssPoison s w).heldRecs = s.heldRecs := rfl
@[simp] theorem ssPoison_fns (w : Nat) : (ssPoison s w).fns = s.fns := rfl
@[simp] theorem ssPoison_link (w : Nat) : (ssPoison s w).link = s.link := rfl
@[simp] theorem ssPoison_hostOut (w : Nat) : (ssPoison s w).hostOut = s.hostOut := rfl
@[simp] theorem ssPoison_marks (w : Nat) : (ssPoison s w).marks = s.marks := rfl
@[simp] theorem ssPoison_net (w : Nat) : (ssPoison s w).net = s.net := rfl
@[simp] theorem ssPoison_chans (w : Nat) : (ssPoison s w).chans = s.chans := rfl
@[simp] theorem ssPoison_dimmWork (w : Nat) : (ssPoison s w).dimmWork = s.dimmWork := rfl
@[simp] theorem ssPoison_dimm (w : Nat) : (ssPoison s w).dimm = s.dimm := rfl
@[simp] theorem ssPoison_dimmBad (w : Nat) : (ssPoison s w).dimmBad = s.dimmBad := rfl
@[simp] theorem ssPoison_reck (w : Nat) : (ssPoison s w).reck = s.reck := rfl
@[simp] theorem ssPoison_power (w : Nat) : (ssPoison s w).power = s.power := rfl
@[simp] theorem ssPoison_errs (w : Nat) : (ssPoison s w).errs = s.errs := rfl
@[simp] theorem ssPoison_mgmt (w : Nat) : (ssPoison s w).mgmt = s.mgmt := rfl
@[simp] theorem ssPoison_pair (w : Nat) : (ssPoison s w).pair = s.pair := rfl
@[simp] theorem ssPoison_update (w : Nat) : (ssPoison s w).update = s.update := rfl

/-! ### dirtyRows -/

@[simp] theorem dirtyRows_pending (c : CtxId) (a n : Nat) : (dirtyRows c a n s).pending = s.pending := rfl
@[simp] theorem dirtyRows_freeIx (c : CtxId) (a n : Nat) : (dirtyRows c a n s).freeIx = s.freeIx := rfl
@[simp] theorem dirtyRows_serial (c : CtxId) (a n : Nat) : (dirtyRows c a n s).serial = s.serial := rfl
@[simp] theorem dirtyRows_life (c : CtxId) (a n : Nat) : (dirtyRows c a n s).life = s.life := rfl
@[simp] theorem dirtyRows_build (c : CtxId) (a n : Nat) : (dirtyRows c a n s).build = s.build := rfl
@[simp] theorem dirtyRows_flash0 (c : CtxId) (a n : Nat) : (dirtyRows c a n s).flash0 = s.flash0 := rfl
@[simp] theorem dirtyRows_flash1 (c : CtxId) (a n : Nat) : (dirtyRows c a n s).flash1 = s.flash1 := rfl
@[simp] theorem dirtyRows_log (c : CtxId) (a n : Nat) : (dirtyRows c a n s).log = s.log := rfl
@[simp] theorem dirtyRows_settings (c : CtxId) (a n : Nat) : (dirtyRows c a n s).settings = s.settings := rfl
@[simp] theorem dirtyRows_bin (c : CtxId) (a n : Nat) : (dirtyRows c a n s).bin = s.bin := rfl
@[simp] theorem dirtyRows_wafer (c : CtxId) (a n : Nat) : (dirtyRows c a n s).wafer = s.wafer := rfl
@[simp] theorem dirtyRows_sites (c : CtxId) (a n : Nat) : (dirtyRows c a n s).sites = s.sites := rfl
@[simp] theorem dirtyRows_dies (c : CtxId) (a n : Nat) : (dirtyRows c a n s).dies = s.dies := rfl
@[simp] theorem dirtyRows_clusters (c : CtxId) (a n : Nat) : (dirtyRows c a n s).clusters = s.clusters := rfl
@[simp] theorem dirtyRows_stores (c : CtxId) (a n : Nat) : (dirtyRows c a n s).stores = s.stores := rfl
@[simp] theorem dirtyRows_mem (c : CtxId) (a n : Nat) : (dirtyRows c a n s).mem = s.mem := rfl
@[simp] theorem dirtyRows_memPoison (c : CtxId) (a n : Nat) : (dirtyRows c a n s).memPoison = s.memPoison := rfl
@[simp] theorem dirtyRows_memForms (c : CtxId) (a n : Nat) : (dirtyRows c a n s).memForms = s.memForms := rfl
@[simp] theorem dirtyRows_owners (c : CtxId) (a n : Nat) : (dirtyRows c a n s).owners = s.owners := rfl
@[simp] theorem dirtyRows_scrubs (c : CtxId) (a n : Nat) : (dirtyRows c a n s).scrubs = s.scrubs := rfl
@[simp] theorem dirtyRows_parts (c : CtxId) (a n : Nat) : (dirtyRows c a n s).parts = s.parts := rfl
@[simp] theorem dirtyRows_seqs (c : CtxId) (a n : Nat) : (dirtyRows c a n s).seqs = s.seqs := rfl
@[simp] theorem dirtyRows_dir (c : CtxId) (a n : Nat) : (dirtyRows c a n s).dir = s.dir := rfl
@[simp] theorem dirtyRows_sq (c : CtxId) (a n : Nat) : (dirtyRows c a n s).sq = s.sq := rfl
@[simp] theorem dirtyRows_cq (c : CtxId) (a n : Nat) : (dirtyRows c a n s).cq = s.cq := rfl
@[simp] theorem dirtyRows_tq (c : CtxId) (a n : Nat) : (dirtyRows c a n s).tq = s.tq := rfl
@[simp] theorem dirtyRows_heldRecs (c : CtxId) (a n : Nat) : (dirtyRows c a n s).heldRecs = s.heldRecs := rfl
@[simp] theorem dirtyRows_fns (c : CtxId) (a n : Nat) : (dirtyRows c a n s).fns = s.fns := rfl
@[simp] theorem dirtyRows_link (c : CtxId) (a n : Nat) : (dirtyRows c a n s).link = s.link := rfl
@[simp] theorem dirtyRows_hostOut (c : CtxId) (a n : Nat) : (dirtyRows c a n s).hostOut = s.hostOut := rfl
@[simp] theorem dirtyRows_marks (c : CtxId) (a n : Nat) : (dirtyRows c a n s).marks = s.marks := rfl
@[simp] theorem dirtyRows_net (c : CtxId) (a n : Nat) : (dirtyRows c a n s).net = s.net := rfl
@[simp] theorem dirtyRows_chans (c : CtxId) (a n : Nat) : (dirtyRows c a n s).chans = s.chans := rfl
@[simp] theorem dirtyRows_dimmWork (c : CtxId) (a n : Nat) : (dirtyRows c a n s).dimmWork = s.dimmWork := rfl
@[simp] theorem dirtyRows_dimm (c : CtxId) (a n : Nat) : (dirtyRows c a n s).dimm = s.dimm := rfl
@[simp] theorem dirtyRows_dimmBad (c : CtxId) (a n : Nat) : (dirtyRows c a n s).dimmBad = s.dimmBad := rfl
@[simp] theorem dirtyRows_reck (c : CtxId) (a n : Nat) : (dirtyRows c a n s).reck = s.reck := rfl
@[simp] theorem dirtyRows_power (c : CtxId) (a n : Nat) : (dirtyRows c a n s).power = s.power := rfl
@[simp] theorem dirtyRows_errs (c : CtxId) (a n : Nat) : (dirtyRows c a n s).errs = s.errs := rfl
@[simp] theorem dirtyRows_mgmt (c : CtxId) (a n : Nat) : (dirtyRows c a n s).mgmt = s.mgmt := rfl
@[simp] theorem dirtyRows_pair (c : CtxId) (a n : Nat) : (dirtyRows c a n s).pair = s.pair := rfl
@[simp] theorem dirtyRows_update (c : CtxId) (a n : Nat) : (dirtyRows c a n s).update = s.update := rfl

/-! ### ctxWrite -/

@[simp] theorem ctxWrite_pending (c : CtxId) (a : Nat) (bs : List Byte) : (ctxWrite c a bs s).pending = s.pending := rfl
@[simp] theorem ctxWrite_freeIx (c : CtxId) (a : Nat) (bs : List Byte) : (ctxWrite c a bs s).freeIx = s.freeIx := rfl
@[simp] theorem ctxWrite_serial (c : CtxId) (a : Nat) (bs : List Byte) : (ctxWrite c a bs s).serial = s.serial := rfl
@[simp] theorem ctxWrite_life (c : CtxId) (a : Nat) (bs : List Byte) : (ctxWrite c a bs s).life = s.life := rfl
@[simp] theorem ctxWrite_build (c : CtxId) (a : Nat) (bs : List Byte) : (ctxWrite c a bs s).build = s.build := rfl
@[simp] theorem ctxWrite_flash0 (c : CtxId) (a : Nat) (bs : List Byte) : (ctxWrite c a bs s).flash0 = s.flash0 := rfl
@[simp] theorem ctxWrite_flash1 (c : CtxId) (a : Nat) (bs : List Byte) : (ctxWrite c a bs s).flash1 = s.flash1 := rfl
@[simp] theorem ctxWrite_log (c : CtxId) (a : Nat) (bs : List Byte) : (ctxWrite c a bs s).log = s.log := rfl
@[simp] theorem ctxWrite_settings (c : CtxId) (a : Nat) (bs : List Byte) : (ctxWrite c a bs s).settings = s.settings := rfl
@[simp] theorem ctxWrite_bin (c : CtxId) (a : Nat) (bs : List Byte) : (ctxWrite c a bs s).bin = s.bin := rfl
@[simp] theorem ctxWrite_wafer (c : CtxId) (a : Nat) (bs : List Byte) : (ctxWrite c a bs s).wafer = s.wafer := rfl
@[simp] theorem ctxWrite_sites (c : CtxId) (a : Nat) (bs : List Byte) : (ctxWrite c a bs s).sites = s.sites := rfl
@[simp] theorem ctxWrite_dies (c : CtxId) (a : Nat) (bs : List Byte) : (ctxWrite c a bs s).dies = s.dies := rfl
@[simp] theorem ctxWrite_clusters (c : CtxId) (a : Nat) (bs : List Byte) : (ctxWrite c a bs s).clusters = s.clusters := rfl
@[simp] theorem ctxWrite_owners (c : CtxId) (a : Nat) (bs : List Byte) : (ctxWrite c a bs s).owners = s.owners := rfl
@[simp] theorem ctxWrite_scrubs (c : CtxId) (a : Nat) (bs : List Byte) : (ctxWrite c a bs s).scrubs = s.scrubs := rfl
@[simp] theorem ctxWrite_parts (c : CtxId) (a : Nat) (bs : List Byte) : (ctxWrite c a bs s).parts = s.parts := rfl
@[simp] theorem ctxWrite_seqs (c : CtxId) (a : Nat) (bs : List Byte) : (ctxWrite c a bs s).seqs = s.seqs := rfl
@[simp] theorem ctxWrite_dir (c : CtxId) (a : Nat) (bs : List Byte) : (ctxWrite c a bs s).dir = s.dir := rfl
@[simp] theorem ctxWrite_sq (c : CtxId) (a : Nat) (bs : List Byte) : (ctxWrite c a bs s).sq = s.sq := rfl
@[simp] theorem ctxWrite_cq (c : CtxId) (a : Nat) (bs : List Byte) : (ctxWrite c a bs s).cq = s.cq := rfl
@[simp] theorem ctxWrite_tq (c : CtxId) (a : Nat) (bs : List Byte) : (ctxWrite c a bs s).tq = s.tq := rfl
@[simp] theorem ctxWrite_heldRecs (c : CtxId) (a : Nat) (bs : List Byte) : (ctxWrite c a bs s).heldRecs = s.heldRecs := rfl
@[simp] theorem ctxWrite_fns (c : CtxId) (a : Nat) (bs : List Byte) : (ctxWrite c a bs s).fns = s.fns := rfl
@[simp] theorem ctxWrite_link (c : CtxId) (a : Nat) (bs : List Byte) : (ctxWrite c a bs s).link = s.link := rfl
@[simp] theorem ctxWrite_hostOut (c : CtxId) (a : Nat) (bs : List Byte) : (ctxWrite c a bs s).hostOut = s.hostOut := rfl
@[simp] theorem ctxWrite_marks (c : CtxId) (a : Nat) (bs : List Byte) : (ctxWrite c a bs s).marks = s.marks := rfl
@[simp] theorem ctxWrite_net (c : CtxId) (a : Nat) (bs : List Byte) : (ctxWrite c a bs s).net = s.net := rfl
@[simp] theorem ctxWrite_chans (c : CtxId) (a : Nat) (bs : List Byte) : (ctxWrite c a bs s).chans = s.chans := rfl
@[simp] theorem ctxWrite_dimmWork (c : CtxId) (a : Nat) (bs : List Byte) : (ctxWrite c a bs s).dimmWork = s.dimmWork := rfl
@[simp] theorem ctxWrite_dimm (c : CtxId) (a : Nat) (bs : List Byte) : (ctxWrite c a bs s).dimm = s.dimm := rfl
@[simp] theorem ctxWrite_dimmBad (c : CtxId) (a : Nat) (bs : List Byte) : (ctxWrite c a bs s).dimmBad = s.dimmBad := rfl
@[simp] theorem ctxWrite_reck (c : CtxId) (a : Nat) (bs : List Byte) : (ctxWrite c a bs s).reck = s.reck := rfl
@[simp] theorem ctxWrite_power (c : CtxId) (a : Nat) (bs : List Byte) : (ctxWrite c a bs s).power = s.power := rfl
@[simp] theorem ctxWrite_errs (c : CtxId) (a : Nat) (bs : List Byte) : (ctxWrite c a bs s).errs = s.errs := rfl
@[simp] theorem ctxWrite_mgmt (c : CtxId) (a : Nat) (bs : List Byte) : (ctxWrite c a bs s).mgmt = s.mgmt := rfl
@[simp] theorem ctxWrite_pair (c : CtxId) (a : Nat) (bs : List Byte) : (ctxWrite c a bs s).pair = s.pair := rfl
@[simp] theorem ctxWrite_update (c : CtxId) (a : Nat) (bs : List Byte) : (ctxWrite c a bs s).update = s.update := rfl

/-! ### dimmWrite -/

@[simp] theorem dimmWrite_pending (a : Nat) (bs : List Byte) : (dimmWrite a bs s).pending = s.pending := rfl
@[simp] theorem dimmWrite_freeIx (a : Nat) (bs : List Byte) : (dimmWrite a bs s).freeIx = s.freeIx := rfl
@[simp] theorem dimmWrite_serial (a : Nat) (bs : List Byte) : (dimmWrite a bs s).serial = s.serial := rfl
@[simp] theorem dimmWrite_life (a : Nat) (bs : List Byte) : (dimmWrite a bs s).life = s.life := rfl
@[simp] theorem dimmWrite_build (a : Nat) (bs : List Byte) : (dimmWrite a bs s).build = s.build := rfl
@[simp] theorem dimmWrite_flash0 (a : Nat) (bs : List Byte) : (dimmWrite a bs s).flash0 = s.flash0 := rfl
@[simp] theorem dimmWrite_flash1 (a : Nat) (bs : List Byte) : (dimmWrite a bs s).flash1 = s.flash1 := rfl
@[simp] theorem dimmWrite_log (a : Nat) (bs : List Byte) : (dimmWrite a bs s).log = s.log := rfl
@[simp] theorem dimmWrite_settings (a : Nat) (bs : List Byte) : (dimmWrite a bs s).settings = s.settings := rfl
@[simp] theorem dimmWrite_bin (a : Nat) (bs : List Byte) : (dimmWrite a bs s).bin = s.bin := rfl
@[simp] theorem dimmWrite_wafer (a : Nat) (bs : List Byte) : (dimmWrite a bs s).wafer = s.wafer := rfl
@[simp] theorem dimmWrite_sites (a : Nat) (bs : List Byte) : (dimmWrite a bs s).sites = s.sites := rfl
@[simp] theorem dimmWrite_dies (a : Nat) (bs : List Byte) : (dimmWrite a bs s).dies = s.dies := rfl
@[simp] theorem dimmWrite_clusters (a : Nat) (bs : List Byte) : (dimmWrite a bs s).clusters = s.clusters := rfl
@[simp] theorem dimmWrite_stores (a : Nat) (bs : List Byte) : (dimmWrite a bs s).stores = s.stores := rfl
@[simp] theorem dimmWrite_mem (a : Nat) (bs : List Byte) : (dimmWrite a bs s).mem = s.mem := rfl
@[simp] theorem dimmWrite_memPoison (a : Nat) (bs : List Byte) : (dimmWrite a bs s).memPoison = s.memPoison := rfl
@[simp] theorem dimmWrite_memForms (a : Nat) (bs : List Byte) : (dimmWrite a bs s).memForms = s.memForms := rfl
@[simp] theorem dimmWrite_owners (a : Nat) (bs : List Byte) : (dimmWrite a bs s).owners = s.owners := rfl
@[simp] theorem dimmWrite_scrubs (a : Nat) (bs : List Byte) : (dimmWrite a bs s).scrubs = s.scrubs := rfl
@[simp] theorem dimmWrite_parts (a : Nat) (bs : List Byte) : (dimmWrite a bs s).parts = s.parts := rfl
@[simp] theorem dimmWrite_ctxs (a : Nat) (bs : List Byte) : (dimmWrite a bs s).ctxs = s.ctxs := rfl
@[simp] theorem dimmWrite_seqs (a : Nat) (bs : List Byte) : (dimmWrite a bs s).seqs = s.seqs := rfl
@[simp] theorem dimmWrite_dir (a : Nat) (bs : List Byte) : (dimmWrite a bs s).dir = s.dir := rfl
@[simp] theorem dimmWrite_sq (a : Nat) (bs : List Byte) : (dimmWrite a bs s).sq = s.sq := rfl
@[simp] theorem dimmWrite_cq (a : Nat) (bs : List Byte) : (dimmWrite a bs s).cq = s.cq := rfl
@[simp] theorem dimmWrite_tq (a : Nat) (bs : List Byte) : (dimmWrite a bs s).tq = s.tq := rfl
@[simp] theorem dimmWrite_heldRecs (a : Nat) (bs : List Byte) : (dimmWrite a bs s).heldRecs = s.heldRecs := rfl
@[simp] theorem dimmWrite_fns (a : Nat) (bs : List Byte) : (dimmWrite a bs s).fns = s.fns := rfl
@[simp] theorem dimmWrite_link (a : Nat) (bs : List Byte) : (dimmWrite a bs s).link = s.link := rfl
@[simp] theorem dimmWrite_hostOut (a : Nat) (bs : List Byte) : (dimmWrite a bs s).hostOut = s.hostOut := rfl
@[simp] theorem dimmWrite_marks (a : Nat) (bs : List Byte) : (dimmWrite a bs s).marks = s.marks := rfl
@[simp] theorem dimmWrite_net (a : Nat) (bs : List Byte) : (dimmWrite a bs s).net = s.net := rfl
@[simp] theorem dimmWrite_chans (a : Nat) (bs : List Byte) : (dimmWrite a bs s).chans = s.chans := rfl
@[simp] theorem dimmWrite_dimmWork (a : Nat) (bs : List Byte) : (dimmWrite a bs s).dimmWork = s.dimmWork := rfl
@[simp] theorem dimmWrite_reck (a : Nat) (bs : List Byte) : (dimmWrite a bs s).reck = s.reck := rfl
@[simp] theorem dimmWrite_power (a : Nat) (bs : List Byte) : (dimmWrite a bs s).power = s.power := rfl
@[simp] theorem dimmWrite_errs (a : Nat) (bs : List Byte) : (dimmWrite a bs s).errs = s.errs := rfl
@[simp] theorem dimmWrite_mgmt (a : Nat) (bs : List Byte) : (dimmWrite a bs s).mgmt = s.mgmt := rfl
@[simp] theorem dimmWrite_pair (a : Nat) (bs : List Byte) : (dimmWrite a bs s).pair = s.pair := rfl
@[simp] theorem dimmWrite_update (a : Nat) (bs : List Byte) : (dimmWrite a bs s).update = s.update := rfl

/-! ### dimmClear -/

@[simp] theorem dimmClear_pending (a n : Nat) : (dimmClear a n s).pending = s.pending := rfl
@[simp] theorem dimmClear_freeIx (a n : Nat) : (dimmClear a n s).freeIx = s.freeIx := rfl
@[simp] theorem dimmClear_serial (a n : Nat) : (dimmClear a n s).serial = s.serial := rfl
@[simp] theorem dimmClear_life (a n : Nat) : (dimmClear a n s).life = s.life := rfl
@[simp] theorem dimmClear_build (a n : Nat) : (dimmClear a n s).build = s.build := rfl
@[simp] theorem dimmClear_flash0 (a n : Nat) : (dimmClear a n s).flash0 = s.flash0 := rfl
@[simp] theorem dimmClear_flash1 (a n : Nat) : (dimmClear a n s).flash1 = s.flash1 := rfl
@[simp] theorem dimmClear_log (a n : Nat) : (dimmClear a n s).log = s.log := rfl
@[simp] theorem dimmClear_settings (a n : Nat) : (dimmClear a n s).settings = s.settings := rfl
@[simp] theorem dimmClear_bin (a n : Nat) : (dimmClear a n s).bin = s.bin := rfl
@[simp] theorem dimmClear_wafer (a n : Nat) : (dimmClear a n s).wafer = s.wafer := rfl
@[simp] theorem dimmClear_sites (a n : Nat) : (dimmClear a n s).sites = s.sites := rfl
@[simp] theorem dimmClear_dies (a n : Nat) : (dimmClear a n s).dies = s.dies := rfl
@[simp] theorem dimmClear_clusters (a n : Nat) : (dimmClear a n s).clusters = s.clusters := rfl
@[simp] theorem dimmClear_stores (a n : Nat) : (dimmClear a n s).stores = s.stores := rfl
@[simp] theorem dimmClear_mem (a n : Nat) : (dimmClear a n s).mem = s.mem := rfl
@[simp] theorem dimmClear_memPoison (a n : Nat) : (dimmClear a n s).memPoison = s.memPoison := rfl
@[simp] theorem dimmClear_memForms (a n : Nat) : (dimmClear a n s).memForms = s.memForms := rfl
@[simp] theorem dimmClear_owners (a n : Nat) : (dimmClear a n s).owners = s.owners := rfl
@[simp] theorem dimmClear_scrubs (a n : Nat) : (dimmClear a n s).scrubs = s.scrubs := rfl
@[simp] theorem dimmClear_parts (a n : Nat) : (dimmClear a n s).parts = s.parts := rfl
@[simp] theorem dimmClear_ctxs (a n : Nat) : (dimmClear a n s).ctxs = s.ctxs := rfl
@[simp] theorem dimmClear_seqs (a n : Nat) : (dimmClear a n s).seqs = s.seqs := rfl
@[simp] theorem dimmClear_dir (a n : Nat) : (dimmClear a n s).dir = s.dir := rfl
@[simp] theorem dimmClear_sq (a n : Nat) : (dimmClear a n s).sq = s.sq := rfl
@[simp] theorem dimmClear_cq (a n : Nat) : (dimmClear a n s).cq = s.cq := rfl
@[simp] theorem dimmClear_tq (a n : Nat) : (dimmClear a n s).tq = s.tq := rfl
@[simp] theorem dimmClear_heldRecs (a n : Nat) : (dimmClear a n s).heldRecs = s.heldRecs := rfl
@[simp] theorem dimmClear_fns (a n : Nat) : (dimmClear a n s).fns = s.fns := rfl
@[simp] theorem dimmClear_link (a n : Nat) : (dimmClear a n s).link = s.link := rfl
@[simp] theorem dimmClear_hostOut (a n : Nat) : (dimmClear a n s).hostOut = s.hostOut := rfl
@[simp] theorem dimmClear_marks (a n : Nat) : (dimmClear a n s).marks = s.marks := rfl
@[simp] theorem dimmClear_net (a n : Nat) : (dimmClear a n s).net = s.net := rfl
@[simp] theorem dimmClear_chans (a n : Nat) : (dimmClear a n s).chans = s.chans := rfl
@[simp] theorem dimmClear_dimmWork (a n : Nat) : (dimmClear a n s).dimmWork = s.dimmWork := rfl
@[simp] theorem dimmClear_reck (a n : Nat) : (dimmClear a n s).reck = s.reck := rfl
@[simp] theorem dimmClear_power (a n : Nat) : (dimmClear a n s).power = s.power := rfl
@[simp] theorem dimmClear_errs (a n : Nat) : (dimmClear a n s).errs = s.errs := rfl
@[simp] theorem dimmClear_mgmt (a n : Nat) : (dimmClear a n s).mgmt = s.mgmt := rfl
@[simp] theorem dimmClear_pair (a n : Nat) : (dimmClear a n s).pair = s.pair := rfl
@[simp] theorem dimmClear_update (a n : Nat) : (dimmClear a n s).update = s.update := rfl

/-! ### keepRecord -/

@[simp] theorem keepRecord_pending (r : Report) : (keepRecord r s).pending = s.pending := by
  unfold keepRecord; (try dsimp only); repeat' split
  all_goals simp
@[simp] theorem keepRecord_freeIx (r : Report) : (keepRecord r s).freeIx = s.freeIx := by
  unfold keepRecord; (try dsimp only); repeat' split
  all_goals simp
@[simp] theorem keepRecord_serial (r : Report) : (keepRecord r s).serial = s.serial := by
  unfold keepRecord; (try dsimp only); repeat' split
  all_goals simp
@[simp] theorem keepRecord_life (r : Report) : (keepRecord r s).life = s.life := by
  unfold keepRecord; (try dsimp only); repeat' split
  all_goals simp
@[simp] theorem keepRecord_build (r : Report) : (keepRecord r s).build = s.build := by
  unfold keepRecord; (try dsimp only); repeat' split
  all_goals simp
@[simp] theorem keepRecord_flash0 (r : Report) : (keepRecord r s).flash0 = s.flash0 := by
  unfold keepRecord; (try dsimp only); repeat' split
  all_goals simp
@[simp] theorem keepRecord_flash1 (r : Report) : (keepRecord r s).flash1 = s.flash1 := by
  unfold keepRecord; (try dsimp only); repeat' split
  all_goals simp
@[simp] theorem keepRecord_log (r : Report) : (keepRecord r s).log = s.log := by
  unfold keepRecord; (try dsimp only); repeat' split
  all_goals simp
@[simp] theorem keepRecord_settings (r : Report) : (keepRecord r s).settings = s.settings := by
  unfold keepRecord; (try dsimp only); repeat' split
  all_goals simp
@[simp] theorem keepRecord_bin (r : Report) : (keepRecord r s).bin = s.bin := by
  unfold keepRecord; (try dsimp only); repeat' split
  all_goals simp
@[simp] theorem keepRecord_wafer (r : Report) : (keepRecord r s).wafer = s.wafer := by
  unfold keepRecord; (try dsimp only); repeat' split
  all_goals simp
@[simp] theorem keepRecord_sites (r : Report) : (keepRecord r s).sites = s.sites := by
  unfold keepRecord; (try dsimp only); repeat' split
  all_goals simp
@[simp] theorem keepRecord_dies (r : Report) : (keepRecord r s).dies = s.dies := by
  unfold keepRecord; (try dsimp only); repeat' split
  all_goals simp
@[simp] theorem keepRecord_clusters (r : Report) : (keepRecord r s).clusters = s.clusters := by
  unfold keepRecord; (try dsimp only); repeat' split
  all_goals simp
@[simp] theorem keepRecord_stores (r : Report) : (keepRecord r s).stores = s.stores := by
  unfold keepRecord; (try dsimp only); repeat' split
  all_goals simp
@[simp] theorem keepRecord_mem (r : Report) : (keepRecord r s).mem = s.mem := by
  unfold keepRecord; (try dsimp only); repeat' split
  all_goals simp
@[simp] theorem keepRecord_memPoison (r : Report) : (keepRecord r s).memPoison = s.memPoison := by
  unfold keepRecord; (try dsimp only); repeat' split
  all_goals simp
@[simp] theorem keepRecord_memForms (r : Report) : (keepRecord r s).memForms = s.memForms := by
  unfold keepRecord; (try dsimp only); repeat' split
  all_goals simp
@[simp] theorem keepRecord_owners (r : Report) : (keepRecord r s).owners = s.owners := by
  unfold keepRecord; (try dsimp only); repeat' split
  all_goals simp
@[simp] theorem keepRecord_scrubs (r : Report) : (keepRecord r s).scrubs = s.scrubs := by
  unfold keepRecord; (try dsimp only); repeat' split
  all_goals simp
@[simp] theorem keepRecord_parts (r : Report) : (keepRecord r s).parts = s.parts := by
  unfold keepRecord; (try dsimp only); repeat' split
  all_goals simp
@[simp] theorem keepRecord_ctxs (r : Report) : (keepRecord r s).ctxs = s.ctxs := by
  unfold keepRecord; (try dsimp only); repeat' split
  all_goals simp
@[simp] theorem keepRecord_seqs (r : Report) : (keepRecord r s).seqs = s.seqs := by
  unfold keepRecord; (try dsimp only); repeat' split
  all_goals simp
@[simp] theorem keepRecord_dir (r : Report) : (keepRecord r s).dir = s.dir := by
  unfold keepRecord; (try dsimp only); repeat' split
  all_goals simp
@[simp] theorem keepRecord_sq (r : Report) : (keepRecord r s).sq = s.sq := by
  unfold keepRecord; (try dsimp only); repeat' split
  all_goals simp
@[simp] theorem keepRecord_cq (r : Report) : (keepRecord r s).cq = s.cq := by
  unfold keepRecord; (try dsimp only); repeat' split
  all_goals simp
@[simp] theorem keepRecord_tq (r : Report) : (keepRecord r s).tq = s.tq := by
  unfold keepRecord; (try dsimp only); repeat' split
  all_goals simp
@[simp] theorem keepRecord_heldRecs (r : Report) : (keepRecord r s).heldRecs = s.heldRecs := by
  unfold keepRecord; (try dsimp only); repeat' split
  all_goals simp
@[simp] theorem keepRecord_fns (r : Report) : (keepRecord r s).fns = s.fns := by
  unfold keepRecord; (try dsimp only); repeat' split
  all_goals simp
@[simp] theorem keepRecord_link (r : Report) : (keepRecord r s).link = s.link := by
  unfold keepRecord; (try dsimp only); repeat' split
  all_goals simp
@[simp] theorem keepRecord_hostOut (r : Report) : (keepRecord r s).hostOut = s.hostOut := by
  unfold keepRecord; (try dsimp only); repeat' split
  all_goals simp
@[simp] theorem keepRecord_marks (r : Report) : (keepRecord r s).marks = s.marks := by
  unfold keepRecord; (try dsimp only); repeat' split
  all_goals simp
@[simp] theorem keepRecord_net (r : Report) : (keepRecord r s).net = s.net := by
  unfold keepRecord; (try dsimp only); repeat' split
  all_goals simp
@[simp] theorem keepRecord_chans (r : Report) : (keepRecord r s).chans = s.chans := by
  unfold keepRecord; (try dsimp only); repeat' split
  all_goals simp
@[simp] theorem keepRecord_dimmWork (r : Report) : (keepRecord r s).dimmWork = s.dimmWork := by
  unfold keepRecord; (try dsimp only); repeat' split
  all_goals simp
@[simp] theorem keepRecord_dimm (r : Report) : (keepRecord r s).dimm = s.dimm := by
  unfold keepRecord; (try dsimp only); repeat' split
  all_goals simp
@[simp] theorem keepRecord_dimmBad (r : Report) : (keepRecord r s).dimmBad = s.dimmBad := by
  unfold keepRecord; (try dsimp only); repeat' split
  all_goals simp
@[simp] theorem keepRecord_reck (r : Report) : (keepRecord r s).reck = s.reck := by
  unfold keepRecord; (try dsimp only); repeat' split
  all_goals simp
@[simp] theorem keepRecord_power (r : Report) : (keepRecord r s).power = s.power := by
  unfold keepRecord; (try dsimp only); repeat' split
  all_goals simp
@[simp] theorem keepRecord_pair (r : Report) : (keepRecord r s).pair = s.pair := by
  unfold keepRecord; (try dsimp only); repeat' split
  all_goals simp
@[simp] theorem keepRecord_update (r : Report) : (keepRecord r s).update = s.update := by
  unfold keepRecord; (try dsimp only); repeat' split
  all_goals simp

/-! ### sendNow -/

@[simp] theorem sendNow_pending (r : Report) : (sendNow r s).pending = s.pending := rfl
@[simp] theorem sendNow_freeIx (r : Report) : (sendNow r s).freeIx = s.freeIx := rfl
@[simp] theorem sendNow_serial (r : Report) : (sendNow r s).serial = s.serial := rfl
@[simp] theorem sendNow_life (r : Report) : (sendNow r s).life = s.life := rfl
@[simp] theorem sendNow_build (r : Report) : (sendNow r s).build = s.build := rfl
@[simp] theorem sendNow_flash0 (r : Report) : (sendNow r s).flash0 = s.flash0 := rfl
@[simp] theorem sendNow_flash1 (r : Report) : (sendNow r s).flash1 = s.flash1 := rfl
@[simp] theorem sendNow_log (r : Report) : (sendNow r s).log = s.log := rfl
@[simp] theorem sendNow_settings (r : Report) : (sendNow r s).settings = s.settings := rfl
@[simp] theorem sendNow_bin (r : Report) : (sendNow r s).bin = s.bin := rfl
@[simp] theorem sendNow_wafer (r : Report) : (sendNow r s).wafer = s.wafer := rfl
@[simp] theorem sendNow_sites (r : Report) : (sendNow r s).sites = s.sites := rfl
@[simp] theorem sendNow_dies (r : Report) : (sendNow r s).dies = s.dies := rfl
@[simp] theorem sendNow_clusters (r : Report) : (sendNow r s).clusters = s.clusters := rfl
@[simp] theorem sendNow_stores (r : Report) : (sendNow r s).stores = s.stores := rfl
@[simp] theorem sendNow_mem (r : Report) : (sendNow r s).mem = s.mem := rfl
@[simp] theorem sendNow_memPoison (r : Report) : (sendNow r s).memPoison = s.memPoison := rfl
@[simp] theorem sendNow_memForms (r : Report) : (sendNow r s).memForms = s.memForms := rfl
@[simp] theorem sendNow_owners (r : Report) : (sendNow r s).owners = s.owners := rfl
@[simp] theorem sendNow_scrubs (r : Report) : (sendNow r s).scrubs = s.scrubs := rfl
@[simp] theorem sendNow_parts (r : Report) : (sendNow r s).parts = s.parts := rfl
@[simp] theorem sendNow_ctxs (r : Report) : (sendNow r s).ctxs = s.ctxs := rfl
@[simp] theorem sendNow_seqs (r : Report) : (sendNow r s).seqs = s.seqs := rfl
@[simp] theorem sendNow_dir (r : Report) : (sendNow r s).dir = s.dir := rfl
@[simp] theorem sendNow_sq (r : Report) : (sendNow r s).sq = s.sq := rfl
@[simp] theorem sendNow_cq (r : Report) : (sendNow r s).cq = s.cq := rfl
@[simp] theorem sendNow_tq (r : Report) : (sendNow r s).tq = s.tq := rfl
@[simp] theorem sendNow_heldRecs (r : Report) : (sendNow r s).heldRecs = s.heldRecs := rfl
@[simp] theorem sendNow_fns (r : Report) : (sendNow r s).fns = s.fns := rfl
@[simp] theorem sendNow_link (r : Report) : (sendNow r s).link = s.link := rfl
@[simp] theorem sendNow_hostOut (r : Report) : (sendNow r s).hostOut = s.hostOut := rfl
@[simp] theorem sendNow_marks (r : Report) : (sendNow r s).marks = s.marks := rfl
@[simp] theorem sendNow_net (r : Report) : (sendNow r s).net = s.net := rfl
@[simp] theorem sendNow_chans (r : Report) : (sendNow r s).chans = s.chans := rfl
@[simp] theorem sendNow_dimmWork (r : Report) : (sendNow r s).dimmWork = s.dimmWork := rfl
@[simp] theorem sendNow_dimm (r : Report) : (sendNow r s).dimm = s.dimm := rfl
@[simp] theorem sendNow_dimmBad (r : Report) : (sendNow r s).dimmBad = s.dimmBad := rfl
@[simp] theorem sendNow_reck (r : Report) : (sendNow r s).reck = s.reck := rfl
@[simp] theorem sendNow_power (r : Report) : (sendNow r s).power = s.power := rfl
@[simp] theorem sendNow_errs (r : Report) : (sendNow r s).errs = s.errs := rfl
@[simp] theorem sendNow_pair (r : Report) : (sendNow r s).pair = s.pair := rfl
@[simp] theorem sendNow_update (r : Report) : (sendNow r s).update = s.update := rfl

/-! ### sendRecord -/

@[simp] theorem sendRecord_pending (r : Report) : (sendRecord r s).pending = s.pending := by
  unfold sendRecord; (try dsimp only); repeat' split
  all_goals simp
@[simp] theorem sendRecord_freeIx (r : Report) : (sendRecord r s).freeIx = s.freeIx := by
  unfold sendRecord; (try dsimp only); repeat' split
  all_goals simp
@[simp] theorem sendRecord_serial (r : Report) : (sendRecord r s).serial = s.serial := by
  unfold sendRecord; (try dsimp only); repeat' split
  all_goals simp
@[simp] theorem sendRecord_life (r : Report) : (sendRecord r s).life = s.life := by
  unfold sendRecord; (try dsimp only); repeat' split
  all_goals simp
@[simp] theorem sendRecord_build (r : Report) : (sendRecord r s).build = s.build := by
  unfold sendRecord; (try dsimp only); repeat' split
  all_goals simp
@[simp] theorem sendRecord_flash0 (r : Report) : (sendRecord r s).flash0 = s.flash0 := by
  unfold sendRecord; (try dsimp only); repeat' split
  all_goals simp
@[simp] theorem sendRecord_flash1 (r : Report) : (sendRecord r s).flash1 = s.flash1 := by
  unfold sendRecord; (try dsimp only); repeat' split
  all_goals simp
@[simp] theorem sendRecord_log (r : Report) : (sendRecord r s).log = s.log := by
  unfold sendRecord; (try dsimp only); repeat' split
  all_goals simp
@[simp] theorem sendRecord_settings (r : Report) : (sendRecord r s).settings = s.settings := by
  unfold sendRecord; (try dsimp only); repeat' split
  all_goals simp
@[simp] theorem sendRecord_bin (r : Report) : (sendRecord r s).bin = s.bin := by
  unfold sendRecord; (try dsimp only); repeat' split
  all_goals simp
@[simp] theorem sendRecord_wafer (r : Report) : (sendRecord r s).wafer = s.wafer := by
  unfold sendRecord; (try dsimp only); repeat' split
  all_goals simp
@[simp] theorem sendRecord_sites (r : Report) : (sendRecord r s).sites = s.sites := by
  unfold sendRecord; (try dsimp only); repeat' split
  all_goals simp
@[simp] theorem sendRecord_dies (r : Report) : (sendRecord r s).dies = s.dies := by
  unfold sendRecord; (try dsimp only); repeat' split
  all_goals simp
@[simp] theorem sendRecord_clusters (r : Report) : (sendRecord r s).clusters = s.clusters := by
  unfold sendRecord; (try dsimp only); repeat' split
  all_goals simp
@[simp] theorem sendRecord_stores (r : Report) : (sendRecord r s).stores = s.stores := by
  unfold sendRecord; (try dsimp only); repeat' split
  all_goals simp
@[simp] theorem sendRecord_mem (r : Report) : (sendRecord r s).mem = s.mem := by
  unfold sendRecord; (try dsimp only); repeat' split
  all_goals simp
@[simp] theorem sendRecord_memPoison (r : Report) : (sendRecord r s).memPoison = s.memPoison := by
  unfold sendRecord; (try dsimp only); repeat' split
  all_goals simp
@[simp] theorem sendRecord_memForms (r : Report) : (sendRecord r s).memForms = s.memForms := by
  unfold sendRecord; (try dsimp only); repeat' split
  all_goals simp
@[simp] theorem sendRecord_owners (r : Report) : (sendRecord r s).owners = s.owners := by
  unfold sendRecord; (try dsimp only); repeat' split
  all_goals simp
@[simp] theorem sendRecord_scrubs (r : Report) : (sendRecord r s).scrubs = s.scrubs := by
  unfold sendRecord; (try dsimp only); repeat' split
  all_goals simp
@[simp] theorem sendRecord_parts (r : Report) : (sendRecord r s).parts = s.parts := by
  unfold sendRecord; (try dsimp only); repeat' split
  all_goals simp
@[simp] theorem sendRecord_ctxs (r : Report) : (sendRecord r s).ctxs = s.ctxs := by
  unfold sendRecord; (try dsimp only); repeat' split
  all_goals simp
@[simp] theorem sendRecord_seqs (r : Report) : (sendRecord r s).seqs = s.seqs := by
  unfold sendRecord; (try dsimp only); repeat' split
  all_goals simp
@[simp] theorem sendRecord_dir (r : Report) : (sendRecord r s).dir = s.dir := by
  unfold sendRecord; (try dsimp only); repeat' split
  all_goals simp
@[simp] theorem sendRecord_sq (r : Report) : (sendRecord r s).sq = s.sq := by
  unfold sendRecord; (try dsimp only); repeat' split
  all_goals simp
@[simp] theorem sendRecord_cq (r : Report) : (sendRecord r s).cq = s.cq := by
  unfold sendRecord; (try dsimp only); repeat' split
  all_goals simp
@[simp] theorem sendRecord_tq (r : Report) : (sendRecord r s).tq = s.tq := by
  unfold sendRecord; (try dsimp only); repeat' split
  all_goals simp
@[simp] theorem sendRecord_heldRecs (r : Report) : (sendRecord r s).heldRecs = s.heldRecs := by
  unfold sendRecord; (try dsimp only); repeat' split
  all_goals simp
@[simp] theorem sendRecord_fns (r : Report) : (sendRecord r s).fns = s.fns := by
  unfold sendRecord; (try dsimp only); repeat' split
  all_goals simp
@[simp] theorem sendRecord_link (r : Report) : (sendRecord r s).link = s.link := by
  unfold sendRecord; (try dsimp only); repeat' split
  all_goals simp
@[simp] theorem sendRecord_hostOut (r : Report) : (sendRecord r s).hostOut = s.hostOut := by
  unfold sendRecord; (try dsimp only); repeat' split
  all_goals simp
@[simp] theorem sendRecord_marks (r : Report) : (sendRecord r s).marks = s.marks := by
  unfold sendRecord; (try dsimp only); repeat' split
  all_goals simp
@[simp] theorem sendRecord_net (r : Report) : (sendRecord r s).net = s.net := by
  unfold sendRecord; (try dsimp only); repeat' split
  all_goals simp
@[simp] theorem sendRecord_chans (r : Report) : (sendRecord r s).chans = s.chans := by
  unfold sendRecord; (try dsimp only); repeat' split
  all_goals simp
@[simp] theorem sendRecord_dimmWork (r : Report) : (sendRecord r s).dimmWork = s.dimmWork := by
  unfold sendRecord; (try dsimp only); repeat' split
  all_goals simp
@[simp] theorem sendRecord_dimm (r : Report) : (sendRecord r s).dimm = s.dimm := by
  unfold sendRecord; (try dsimp only); repeat' split
  all_goals simp
@[simp] theorem sendRecord_dimmBad (r : Report) : (sendRecord r s).dimmBad = s.dimmBad := by
  unfold sendRecord; (try dsimp only); repeat' split
  all_goals simp
@[simp] theorem sendRecord_reck (r : Report) : (sendRecord r s).reck = s.reck := by
  unfold sendRecord; (try dsimp only); repeat' split
  all_goals simp
@[simp] theorem sendRecord_power (r : Report) : (sendRecord r s).power = s.power := by
  unfold sendRecord; (try dsimp only); repeat' split
  all_goals simp
@[simp] theorem sendRecord_pair (r : Report) : (sendRecord r s).pair = s.pair := by
  unfold sendRecord; (try dsimp only); repeat' split
  all_goals simp
@[simp] theorem sendRecord_update (r : Report) : (sendRecord r s).update = s.update := by
  unfold sendRecord; (try dsimp only); repeat' split
  all_goals simp

/-! ### note -/

@[simp] theorem note_pending (k : NoteKind) (a b : Nat) : (note k a b s).pending = s.pending := by
  unfold note; (try dsimp only); repeat' split
  all_goals simp
@[simp] theorem note_freeIx (k : NoteKind) (a b : Nat) : (note k a b s).freeIx = s.freeIx := by
  unfold note; (try dsimp only); repeat' split
  all_goals simp
@[simp] theorem note_serial (k : NoteKind) (a b : Nat) : (note k a b s).serial = s.serial := by
  unfold note; (try dsimp only); repeat' split
  all_goals simp
@[simp] theorem note_life (k : NoteKind) (a b : Nat) : (note k a b s).life = s.life := by
  unfold note; (try dsimp only); repeat' split
  all_goals simp
@[simp] theorem note_build (k : NoteKind) (a b : Nat) : (note k a b s).build = s.build := by
  unfold note; (try dsimp only); repeat' split
  all_goals simp
@[simp] theorem note_flash0 (k : NoteKind) (a b : Nat) : (note k a b s).flash0 = s.flash0 := by
  unfold note; (try dsimp only); repeat' split
  all_goals simp
@[simp] theorem note_flash1 (k : NoteKind) (a b : Nat) : (note k a b s).flash1 = s.flash1 := by
  unfold note; (try dsimp only); repeat' split
  all_goals simp
@[simp] theorem note_log (k : NoteKind) (a b : Nat) : (note k a b s).log = s.log := by
  unfold note; (try dsimp only); repeat' split
  all_goals simp
@[simp] theorem note_settings (k : NoteKind) (a b : Nat) : (note k a b s).settings = s.settings := by
  unfold note; (try dsimp only); repeat' split
  all_goals simp
@[simp] theorem note_bin (k : NoteKind) (a b : Nat) : (note k a b s).bin = s.bin := by
  unfold note; (try dsimp only); repeat' split
  all_goals simp
@[simp] theorem note_wafer (k : NoteKind) (a b : Nat) : (note k a b s).wafer = s.wafer := by
  unfold note; (try dsimp only); repeat' split
  all_goals simp
@[simp] theorem note_sites (k : NoteKind) (a b : Nat) : (note k a b s).sites = s.sites := by
  unfold note; (try dsimp only); repeat' split
  all_goals simp
@[simp] theorem note_dies (k : NoteKind) (a b : Nat) : (note k a b s).dies = s.dies := by
  unfold note; (try dsimp only); repeat' split
  all_goals simp
@[simp] theorem note_clusters (k : NoteKind) (a b : Nat) : (note k a b s).clusters = s.clusters := by
  unfold note; (try dsimp only); repeat' split
  all_goals simp
@[simp] theorem note_stores (k : NoteKind) (a b : Nat) : (note k a b s).stores = s.stores := by
  unfold note; (try dsimp only); repeat' split
  all_goals simp
@[simp] theorem note_mem (k : NoteKind) (a b : Nat) : (note k a b s).mem = s.mem := by
  unfold note; (try dsimp only); repeat' split
  all_goals simp
@[simp] theorem note_memPoison (k : NoteKind) (a b : Nat) : (note k a b s).memPoison = s.memPoison := by
  unfold note; (try dsimp only); repeat' split
  all_goals simp
@[simp] theorem note_memForms (k : NoteKind) (a b : Nat) : (note k a b s).memForms = s.memForms := by
  unfold note; (try dsimp only); repeat' split
  all_goals simp
@[simp] theorem note_owners (k : NoteKind) (a b : Nat) : (note k a b s).owners = s.owners := by
  unfold note; (try dsimp only); repeat' split
  all_goals simp
@[simp] theorem note_scrubs (k : NoteKind) (a b : Nat) : (note k a b s).scrubs = s.scrubs := by
  unfold note; (try dsimp only); repeat' split
  all_goals simp
@[simp] theorem note_parts (k : NoteKind) (a b : Nat) : (note k a b s).parts = s.parts := by
  unfold note; (try dsimp only); repeat' split
  all_goals simp
@[simp] theorem note_ctxs (k : NoteKind) (a b : Nat) : (note k a b s).ctxs = s.ctxs := by
  unfold note; (try dsimp only); repeat' split
  all_goals simp
@[simp] theorem note_seqs (k : NoteKind) (a b : Nat) : (note k a b s).seqs = s.seqs := by
  unfold note; (try dsimp only); repeat' split
  all_goals simp
@[simp] theorem note_dir (k : NoteKind) (a b : Nat) : (note k a b s).dir = s.dir := by
  unfold note; (try dsimp only); repeat' split
  all_goals simp
@[simp] theorem note_sq (k : NoteKind) (a b : Nat) : (note k a b s).sq = s.sq := by
  unfold note; (try dsimp only); repeat' split
  all_goals simp
@[simp] theorem note_cq (k : NoteKind) (a b : Nat) : (note k a b s).cq = s.cq := by
  unfold note; (try dsimp only); repeat' split
  all_goals simp
@[simp] theorem note_tq (k : NoteKind) (a b : Nat) : (note k a b s).tq = s.tq := by
  unfold note; (try dsimp only); repeat' split
  all_goals simp
@[simp] theorem note_heldRecs (k : NoteKind) (a b : Nat) : (note k a b s).heldRecs = s.heldRecs := by
  unfold note; (try dsimp only); repeat' split
  all_goals simp
@[simp] theorem note_fns (k : NoteKind) (a b : Nat) : (note k a b s).fns = s.fns := by
  unfold note; (try dsimp only); repeat' split
  all_goals simp
@[simp] theorem note_link (k : NoteKind) (a b : Nat) : (note k a b s).link = s.link := by
  unfold note; (try dsimp only); repeat' split
  all_goals simp
@[simp] theorem note_hostOut (k : NoteKind) (a b : Nat) : (note k a b s).hostOut = s.hostOut := by
  unfold note; (try dsimp only); repeat' split
  all_goals simp
@[simp] theorem note_marks (k : NoteKind) (a b : Nat) : (note k a b s).marks = s.marks := by
  unfold note; (try dsimp only); repeat' split
  all_goals simp
@[simp] theorem note_net (k : NoteKind) (a b : Nat) : (note k a b s).net = s.net := by
  unfold note; (try dsimp only); repeat' split
  all_goals simp
@[simp] theorem note_chans (k : NoteKind) (a b : Nat) : (note k a b s).chans = s.chans := by
  unfold note; (try dsimp only); repeat' split
  all_goals simp
@[simp] theorem note_dimmWork (k : NoteKind) (a b : Nat) : (note k a b s).dimmWork = s.dimmWork := by
  unfold note; (try dsimp only); repeat' split
  all_goals simp
@[simp] theorem note_dimm (k : NoteKind) (a b : Nat) : (note k a b s).dimm = s.dimm := by
  unfold note; (try dsimp only); repeat' split
  all_goals simp
@[simp] theorem note_dimmBad (k : NoteKind) (a b : Nat) : (note k a b s).dimmBad = s.dimmBad := by
  unfold note; (try dsimp only); repeat' split
  all_goals simp
@[simp] theorem note_reck (k : NoteKind) (a b : Nat) : (note k a b s).reck = s.reck := by
  unfold note; (try dsimp only); repeat' split
  all_goals simp
@[simp] theorem note_power (k : NoteKind) (a b : Nat) : (note k a b s).power = s.power := by
  unfold note; (try dsimp only); repeat' split
  all_goals simp
@[simp] theorem note_errs (k : NoteKind) (a b : Nat) : (note k a b s).errs = s.errs := by
  unfold note; (try dsimp only); repeat' split
  all_goals simp
@[simp] theorem note_pair (k : NoteKind) (a b : Nat) : (note k a b s).pair = s.pair := by
  unfold note; (try dsimp only); repeat' split
  all_goals simp
@[simp] theorem note_update (k : NoteKind) (a b : Nat) : (note k a b s).update = s.update := by
  unfold note; (try dsimp only); repeat' split
  all_goals simp

/-! ### platformEvent -/

@[simp] theorem platformEvent_pending (k : PlatformKind) (a : Nat) : (platformEvent k a s).pending = s.pending := by
  unfold platformEvent; (try dsimp only); repeat' split
  all_goals simp
@[simp] theorem platformEvent_freeIx (k : PlatformKind) (a : Nat) : (platformEvent k a s).freeIx = s.freeIx := by
  unfold platformEvent; (try dsimp only); repeat' split
  all_goals simp
@[simp] theorem platformEvent_serial (k : PlatformKind) (a : Nat) : (platformEvent k a s).serial = s.serial := by
  unfold platformEvent; (try dsimp only); repeat' split
  all_goals simp
@[simp] theorem platformEvent_life (k : PlatformKind) (a : Nat) : (platformEvent k a s).life = s.life := by
  unfold platformEvent; (try dsimp only); repeat' split
  all_goals simp
@[simp] theorem platformEvent_build (k : PlatformKind) (a : Nat) : (platformEvent k a s).build = s.build := by
  unfold platformEvent; (try dsimp only); repeat' split
  all_goals simp
@[simp] theorem platformEvent_flash0 (k : PlatformKind) (a : Nat) : (platformEvent k a s).flash0 = s.flash0 := by
  unfold platformEvent; (try dsimp only); repeat' split
  all_goals simp
@[simp] theorem platformEvent_flash1 (k : PlatformKind) (a : Nat) : (platformEvent k a s).flash1 = s.flash1 := by
  unfold platformEvent; (try dsimp only); repeat' split
  all_goals simp
@[simp] theorem platformEvent_log (k : PlatformKind) (a : Nat) : (platformEvent k a s).log = s.log := by
  unfold platformEvent; (try dsimp only); repeat' split
  all_goals simp
@[simp] theorem platformEvent_settings (k : PlatformKind) (a : Nat) : (platformEvent k a s).settings = s.settings := by
  unfold platformEvent; (try dsimp only); repeat' split
  all_goals simp
@[simp] theorem platformEvent_bin (k : PlatformKind) (a : Nat) : (platformEvent k a s).bin = s.bin := by
  unfold platformEvent; (try dsimp only); repeat' split
  all_goals simp
@[simp] theorem platformEvent_wafer (k : PlatformKind) (a : Nat) : (platformEvent k a s).wafer = s.wafer := by
  unfold platformEvent; (try dsimp only); repeat' split
  all_goals simp
@[simp] theorem platformEvent_sites (k : PlatformKind) (a : Nat) : (platformEvent k a s).sites = s.sites := by
  unfold platformEvent; (try dsimp only); repeat' split
  all_goals simp
@[simp] theorem platformEvent_dies (k : PlatformKind) (a : Nat) : (platformEvent k a s).dies = s.dies := by
  unfold platformEvent; (try dsimp only); repeat' split
  all_goals simp
@[simp] theorem platformEvent_clusters (k : PlatformKind) (a : Nat) : (platformEvent k a s).clusters = s.clusters := by
  unfold platformEvent; (try dsimp only); repeat' split
  all_goals simp
@[simp] theorem platformEvent_stores (k : PlatformKind) (a : Nat) : (platformEvent k a s).stores = s.stores := by
  unfold platformEvent; (try dsimp only); repeat' split
  all_goals simp
@[simp] theorem platformEvent_mem (k : PlatformKind) (a : Nat) : (platformEvent k a s).mem = s.mem := by
  unfold platformEvent; (try dsimp only); repeat' split
  all_goals simp
@[simp] theorem platformEvent_memPoison (k : PlatformKind) (a : Nat) : (platformEvent k a s).memPoison = s.memPoison := by
  unfold platformEvent; (try dsimp only); repeat' split
  all_goals simp
@[simp] theorem platformEvent_memForms (k : PlatformKind) (a : Nat) : (platformEvent k a s).memForms = s.memForms := by
  unfold platformEvent; (try dsimp only); repeat' split
  all_goals simp
@[simp] theorem platformEvent_owners (k : PlatformKind) (a : Nat) : (platformEvent k a s).owners = s.owners := by
  unfold platformEvent; (try dsimp only); repeat' split
  all_goals simp
@[simp] theorem platformEvent_scrubs (k : PlatformKind) (a : Nat) : (platformEvent k a s).scrubs = s.scrubs := by
  unfold platformEvent; (try dsimp only); repeat' split
  all_goals simp
@[simp] theorem platformEvent_parts (k : PlatformKind) (a : Nat) : (platformEvent k a s).parts = s.parts := by
  unfold platformEvent; (try dsimp only); repeat' split
  all_goals simp
@[simp] theorem platformEvent_ctxs (k : PlatformKind) (a : Nat) : (platformEvent k a s).ctxs = s.ctxs := by
  unfold platformEvent; (try dsimp only); repeat' split
  all_goals simp
@[simp] theorem platformEvent_seqs (k : PlatformKind) (a : Nat) : (platformEvent k a s).seqs = s.seqs := by
  unfold platformEvent; (try dsimp only); repeat' split
  all_goals simp
@[simp] theorem platformEvent_dir (k : PlatformKind) (a : Nat) : (platformEvent k a s).dir = s.dir := by
  unfold platformEvent; (try dsimp only); repeat' split
  all_goals simp
@[simp] theorem platformEvent_sq (k : PlatformKind) (a : Nat) : (platformEvent k a s).sq = s.sq := by
  unfold platformEvent; (try dsimp only); repeat' split
  all_goals simp
@[simp] theorem platformEvent_cq (k : PlatformKind) (a : Nat) : (platformEvent k a s).cq = s.cq := by
  unfold platformEvent; (try dsimp only); repeat' split
  all_goals simp
@[simp] theorem platformEvent_tq (k : PlatformKind) (a : Nat) : (platformEvent k a s).tq = s.tq := by
  unfold platformEvent; (try dsimp only); repeat' split
  all_goals simp
@[simp] theorem platformEvent_heldRecs (k : PlatformKind) (a : Nat) : (platformEvent k a s).heldRecs = s.heldRecs := by
  unfold platformEvent; (try dsimp only); repeat' split
  all_goals simp
@[simp] theorem platformEvent_fns (k : PlatformKind) (a : Nat) : (platformEvent k a s).fns = s.fns := by
  unfold platformEvent; (try dsimp only); repeat' split
  all_goals simp
@[simp] theorem platformEvent_link (k : PlatformKind) (a : Nat) : (platformEvent k a s).link = s.link := by
  unfold platformEvent; (try dsimp only); repeat' split
  all_goals simp
@[simp] theorem platformEvent_hostOut (k : PlatformKind) (a : Nat) : (platformEvent k a s).hostOut = s.hostOut := by
  unfold platformEvent; (try dsimp only); repeat' split
  all_goals simp
@[simp] theorem platformEvent_marks (k : PlatformKind) (a : Nat) : (platformEvent k a s).marks = s.marks := by
  unfold platformEvent; (try dsimp only); repeat' split
  all_goals simp
@[simp] theorem platformEvent_net (k : PlatformKind) (a : Nat) : (platformEvent k a s).net = s.net := by
  unfold platformEvent; (try dsimp only); repeat' split
  all_goals simp
@[simp] theorem platformEvent_chans (k : PlatformKind) (a : Nat) : (platformEvent k a s).chans = s.chans := by
  unfold platformEvent; (try dsimp only); repeat' split
  all_goals simp
@[simp] theorem platformEvent_dimmWork (k : PlatformKind) (a : Nat) : (platformEvent k a s).dimmWork = s.dimmWork := by
  unfold platformEvent; (try dsimp only); repeat' split
  all_goals simp
@[simp] theorem platformEvent_dimm (k : PlatformKind) (a : Nat) : (platformEvent k a s).dimm = s.dimm := by
  unfold platformEvent; (try dsimp only); repeat' split
  all_goals simp
@[simp] theorem platformEvent_dimmBad (k : PlatformKind) (a : Nat) : (platformEvent k a s).dimmBad = s.dimmBad := by
  unfold platformEvent; (try dsimp only); repeat' split
  all_goals simp
@[simp] theorem platformEvent_reck (k : PlatformKind) (a : Nat) : (platformEvent k a s).reck = s.reck := by
  unfold platformEvent; (try dsimp only); repeat' split
  all_goals simp
@[simp] theorem platformEvent_power (k : PlatformKind) (a : Nat) : (platformEvent k a s).power = s.power := by
  unfold platformEvent; (try dsimp only); repeat' split
  all_goals simp
@[simp] theorem platformEvent_errs (k : PlatformKind) (a : Nat) : (platformEvent k a s).errs = s.errs := by
  unfold platformEvent; (try dsimp only); repeat' split
  all_goals simp
@[simp] theorem platformEvent_pair (k : PlatformKind) (a : Nat) : (platformEvent k a s).pair = s.pair := by
  unfold platformEvent; (try dsimp only); repeat' split
  all_goals simp
@[simp] theorem platformEvent_update (k : PlatformKind) (a : Nat) : (platformEvent k a s).update = s.update := by
  unfold platformEvent; (try dsimp only); repeat' split
  all_goals simp

/-! ### answer -/

@[simp] theorem answer_pending (a : Answer) : (answer a s).pending = s.pending := rfl
@[simp] theorem answer_freeIx (a : Answer) : (answer a s).freeIx = s.freeIx := rfl
@[simp] theorem answer_serial (a : Answer) : (answer a s).serial = s.serial := rfl
@[simp] theorem answer_life (a : Answer) : (answer a s).life = s.life := rfl
@[simp] theorem answer_build (a : Answer) : (answer a s).build = s.build := rfl
@[simp] theorem answer_flash0 (a : Answer) : (answer a s).flash0 = s.flash0 := rfl
@[simp] theorem answer_flash1 (a : Answer) : (answer a s).flash1 = s.flash1 := rfl
@[simp] theorem answer_log (a : Answer) : (answer a s).log = s.log := rfl
@[simp] theorem answer_settings (a : Answer) : (answer a s).settings = s.settings := rfl
@[simp] theorem answer_bin (a : Answer) : (answer a s).bin = s.bin := rfl
@[simp] theorem answer_wafer (a : Answer) : (answer a s).wafer = s.wafer := rfl
@[simp] theorem answer_sites (a : Answer) : (answer a s).sites = s.sites := rfl
@[simp] theorem answer_dies (a : Answer) : (answer a s).dies = s.dies := rfl
@[simp] theorem answer_clusters (a : Answer) : (answer a s).clusters = s.clusters := rfl
@[simp] theorem answer_stores (a : Answer) : (answer a s).stores = s.stores := rfl
@[simp] theorem answer_mem (a : Answer) : (answer a s).mem = s.mem := rfl
@[simp] theorem answer_memPoison (a : Answer) : (answer a s).memPoison = s.memPoison := rfl
@[simp] theorem answer_memForms (a : Answer) : (answer a s).memForms = s.memForms := rfl
@[simp] theorem answer_owners (a : Answer) : (answer a s).owners = s.owners := rfl
@[simp] theorem answer_scrubs (a : Answer) : (answer a s).scrubs = s.scrubs := rfl
@[simp] theorem answer_parts (a : Answer) : (answer a s).parts = s.parts := rfl
@[simp] theorem answer_ctxs (a : Answer) : (answer a s).ctxs = s.ctxs := rfl
@[simp] theorem answer_seqs (a : Answer) : (answer a s).seqs = s.seqs := rfl
@[simp] theorem answer_dir (a : Answer) : (answer a s).dir = s.dir := rfl
@[simp] theorem answer_sq (a : Answer) : (answer a s).sq = s.sq := rfl
@[simp] theorem answer_cq (a : Answer) : (answer a s).cq = s.cq := rfl
@[simp] theorem answer_tq (a : Answer) : (answer a s).tq = s.tq := rfl
@[simp] theorem answer_heldRecs (a : Answer) : (answer a s).heldRecs = s.heldRecs := rfl
@[simp] theorem answer_fns (a : Answer) : (answer a s).fns = s.fns := rfl
@[simp] theorem answer_link (a : Answer) : (answer a s).link = s.link := rfl
@[simp] theorem answer_hostOut (a : Answer) : (answer a s).hostOut = s.hostOut := rfl
@[simp] theorem answer_marks (a : Answer) : (answer a s).marks = s.marks := rfl
@[simp] theorem answer_net (a : Answer) : (answer a s).net = s.net := rfl
@[simp] theorem answer_chans (a : Answer) : (answer a s).chans = s.chans := rfl
@[simp] theorem answer_dimmWork (a : Answer) : (answer a s).dimmWork = s.dimmWork := rfl
@[simp] theorem answer_dimm (a : Answer) : (answer a s).dimm = s.dimm := rfl
@[simp] theorem answer_dimmBad (a : Answer) : (answer a s).dimmBad = s.dimmBad := rfl
@[simp] theorem answer_reck (a : Answer) : (answer a s).reck = s.reck := rfl
@[simp] theorem answer_power (a : Answer) : (answer a s).power = s.power := rfl
@[simp] theorem answer_errs (a : Answer) : (answer a s).errs = s.errs := rfl
@[simp] theorem answer_pair (a : Answer) : (answer a s).pair = s.pair := rfl
@[simp] theorem answer_update (a : Answer) : (answer a s).update = s.update := rfl

/-! ### binnacleEvent -/

@[simp] theorem binnacleEvent_pending (event bay : Byte) (detail : W16) : (binnacleEvent event bay detail s).pending = s.pending := by
  unfold binnacleEvent; (try dsimp only); repeat' split
  all_goals simp
@[simp] theorem binnacleEvent_freeIx (event bay : Byte) (detail : W16) : (binnacleEvent event bay detail s).freeIx = s.freeIx := by
  unfold binnacleEvent; (try dsimp only); repeat' split
  all_goals simp
@[simp] theorem binnacleEvent_serial (event bay : Byte) (detail : W16) : (binnacleEvent event bay detail s).serial = s.serial := by
  unfold binnacleEvent; (try dsimp only); repeat' split
  all_goals simp
@[simp] theorem binnacleEvent_life (event bay : Byte) (detail : W16) : (binnacleEvent event bay detail s).life = s.life := by
  unfold binnacleEvent; (try dsimp only); repeat' split
  all_goals simp
@[simp] theorem binnacleEvent_build (event bay : Byte) (detail : W16) : (binnacleEvent event bay detail s).build = s.build := by
  unfold binnacleEvent; (try dsimp only); repeat' split
  all_goals simp
@[simp] theorem binnacleEvent_flash0 (event bay : Byte) (detail : W16) : (binnacleEvent event bay detail s).flash0 = s.flash0 := by
  unfold binnacleEvent; (try dsimp only); repeat' split
  all_goals simp
@[simp] theorem binnacleEvent_flash1 (event bay : Byte) (detail : W16) : (binnacleEvent event bay detail s).flash1 = s.flash1 := by
  unfold binnacleEvent; (try dsimp only); repeat' split
  all_goals simp
@[simp] theorem binnacleEvent_settings (event bay : Byte) (detail : W16) : (binnacleEvent event bay detail s).settings = s.settings := by
  unfold binnacleEvent; (try dsimp only); repeat' split
  all_goals simp
@[simp] theorem binnacleEvent_bin (event bay : Byte) (detail : W16) : (binnacleEvent event bay detail s).bin = s.bin := by
  unfold binnacleEvent; (try dsimp only); repeat' split
  all_goals simp
@[simp] theorem binnacleEvent_wafer (event bay : Byte) (detail : W16) : (binnacleEvent event bay detail s).wafer = s.wafer := by
  unfold binnacleEvent; (try dsimp only); repeat' split
  all_goals simp
@[simp] theorem binnacleEvent_sites (event bay : Byte) (detail : W16) : (binnacleEvent event bay detail s).sites = s.sites := by
  unfold binnacleEvent; (try dsimp only); repeat' split
  all_goals simp
@[simp] theorem binnacleEvent_dies (event bay : Byte) (detail : W16) : (binnacleEvent event bay detail s).dies = s.dies := by
  unfold binnacleEvent; (try dsimp only); repeat' split
  all_goals simp
@[simp] theorem binnacleEvent_clusters (event bay : Byte) (detail : W16) : (binnacleEvent event bay detail s).clusters = s.clusters := by
  unfold binnacleEvent; (try dsimp only); repeat' split
  all_goals simp
@[simp] theorem binnacleEvent_stores (event bay : Byte) (detail : W16) : (binnacleEvent event bay detail s).stores = s.stores := by
  unfold binnacleEvent; (try dsimp only); repeat' split
  all_goals simp
@[simp] theorem binnacleEvent_mem (event bay : Byte) (detail : W16) : (binnacleEvent event bay detail s).mem = s.mem := by
  unfold binnacleEvent; (try dsimp only); repeat' split
  all_goals simp
@[simp] theorem binnacleEvent_memPoison (event bay : Byte) (detail : W16) : (binnacleEvent event bay detail s).memPoison = s.memPoison := by
  unfold binnacleEvent; (try dsimp only); repeat' split
  all_goals simp
@[simp] theorem binnacleEvent_memForms (event bay : Byte) (detail : W16) : (binnacleEvent event bay detail s).memForms = s.memForms := by
  unfold binnacleEvent; (try dsimp only); repeat' split
  all_goals simp
@[simp] theorem binnacleEvent_owners (event bay : Byte) (detail : W16) : (binnacleEvent event bay detail s).owners = s.owners := by
  unfold binnacleEvent; (try dsimp only); repeat' split
  all_goals simp
@[simp] theorem binnacleEvent_scrubs (event bay : Byte) (detail : W16) : (binnacleEvent event bay detail s).scrubs = s.scrubs := by
  unfold binnacleEvent; (try dsimp only); repeat' split
  all_goals simp
@[simp] theorem binnacleEvent_parts (event bay : Byte) (detail : W16) : (binnacleEvent event bay detail s).parts = s.parts := by
  unfold binnacleEvent; (try dsimp only); repeat' split
  all_goals simp
@[simp] theorem binnacleEvent_ctxs (event bay : Byte) (detail : W16) : (binnacleEvent event bay detail s).ctxs = s.ctxs := by
  unfold binnacleEvent; (try dsimp only); repeat' split
  all_goals simp
@[simp] theorem binnacleEvent_seqs (event bay : Byte) (detail : W16) : (binnacleEvent event bay detail s).seqs = s.seqs := by
  unfold binnacleEvent; (try dsimp only); repeat' split
  all_goals simp
@[simp] theorem binnacleEvent_dir (event bay : Byte) (detail : W16) : (binnacleEvent event bay detail s).dir = s.dir := by
  unfold binnacleEvent; (try dsimp only); repeat' split
  all_goals simp
@[simp] theorem binnacleEvent_sq (event bay : Byte) (detail : W16) : (binnacleEvent event bay detail s).sq = s.sq := by
  unfold binnacleEvent; (try dsimp only); repeat' split
  all_goals simp
@[simp] theorem binnacleEvent_cq (event bay : Byte) (detail : W16) : (binnacleEvent event bay detail s).cq = s.cq := by
  unfold binnacleEvent; (try dsimp only); repeat' split
  all_goals simp
@[simp] theorem binnacleEvent_tq (event bay : Byte) (detail : W16) : (binnacleEvent event bay detail s).tq = s.tq := by
  unfold binnacleEvent; (try dsimp only); repeat' split
  all_goals simp
@[simp] theorem binnacleEvent_heldRecs (event bay : Byte) (detail : W16) : (binnacleEvent event bay detail s).heldRecs = s.heldRecs := by
  unfold binnacleEvent; (try dsimp only); repeat' split
  all_goals simp
@[simp] theorem binnacleEvent_fns (event bay : Byte) (detail : W16) : (binnacleEvent event bay detail s).fns = s.fns := by
  unfold binnacleEvent; (try dsimp only); repeat' split
  all_goals simp
@[simp] theorem binnacleEvent_link (event bay : Byte) (detail : W16) : (binnacleEvent event bay detail s).link = s.link := by
  unfold binnacleEvent; (try dsimp only); repeat' split
  all_goals simp
@[simp] theorem binnacleEvent_hostOut (event bay : Byte) (detail : W16) : (binnacleEvent event bay detail s).hostOut = s.hostOut := by
  unfold binnacleEvent; (try dsimp only); repeat' split
  all_goals simp
@[simp] theorem binnacleEvent_marks (event bay : Byte) (detail : W16) : (binnacleEvent event bay detail s).marks = s.marks := by
  unfold binnacleEvent; (try dsimp only); repeat' split
  all_goals simp
@[simp] theorem binnacleEvent_net (event bay : Byte) (detail : W16) : (binnacleEvent event bay detail s).net = s.net := by
  unfold binnacleEvent; (try dsimp only); repeat' split
  all_goals simp
@[simp] theorem binnacleEvent_chans (event bay : Byte) (detail : W16) : (binnacleEvent event bay detail s).chans = s.chans := by
  unfold binnacleEvent; (try dsimp only); repeat' split
  all_goals simp
@[simp] theorem binnacleEvent_dimmWork (event bay : Byte) (detail : W16) : (binnacleEvent event bay detail s).dimmWork = s.dimmWork := by
  unfold binnacleEvent; (try dsimp only); repeat' split
  all_goals simp
@[simp] theorem binnacleEvent_dimm (event bay : Byte) (detail : W16) : (binnacleEvent event bay detail s).dimm = s.dimm := by
  unfold binnacleEvent; (try dsimp only); repeat' split
  all_goals simp
@[simp] theorem binnacleEvent_dimmBad (event bay : Byte) (detail : W16) : (binnacleEvent event bay detail s).dimmBad = s.dimmBad := by
  unfold binnacleEvent; (try dsimp only); repeat' split
  all_goals simp
@[simp] theorem binnacleEvent_reck (event bay : Byte) (detail : W16) : (binnacleEvent event bay detail s).reck = s.reck := by
  unfold binnacleEvent; (try dsimp only); repeat' split
  all_goals simp
@[simp] theorem binnacleEvent_power (event bay : Byte) (detail : W16) : (binnacleEvent event bay detail s).power = s.power := by
  unfold binnacleEvent; (try dsimp only); repeat' split
  all_goals simp
@[simp] theorem binnacleEvent_pair (event bay : Byte) (detail : W16) : (binnacleEvent event bay detail s).pair = s.pair := by
  unfold binnacleEvent; (try dsimp only); repeat' split
  all_goals simp
@[simp] theorem binnacleEvent_update (event bay : Byte) (detail : W16) : (binnacleEvent event bay detail s).update = s.update := by
  unfold binnacleEvent; (try dsimp only); repeat' split
  all_goals simp

/-! ### emit -/

@[simp] theorem emit_pending (f : Nat) (w : HostWrite) : (emit f w s).pending = s.pending := by
  unfold emit; (try dsimp only); repeat' split
  all_goals simp
@[simp] theorem emit_freeIx (f : Nat) (w : HostWrite) : (emit f w s).freeIx = s.freeIx := by
  unfold emit; (try dsimp only); repeat' split
  all_goals simp
@[simp] theorem emit_serial (f : Nat) (w : HostWrite) : (emit f w s).serial = s.serial := by
  unfold emit; (try dsimp only); repeat' split
  all_goals simp
@[simp] theorem emit_life (f : Nat) (w : HostWrite) : (emit f w s).life = s.life := by
  unfold emit; (try dsimp only); repeat' split
  all_goals simp
@[simp] theorem emit_build (f : Nat) (w : HostWrite) : (emit f w s).build = s.build := by
  unfold emit; (try dsimp only); repeat' split
  all_goals simp
@[simp] theorem emit_flash0 (f : Nat) (w : HostWrite) : (emit f w s).flash0 = s.flash0 := by
  unfold emit; (try dsimp only); repeat' split
  all_goals simp
@[simp] theorem emit_flash1 (f : Nat) (w : HostWrite) : (emit f w s).flash1 = s.flash1 := by
  unfold emit; (try dsimp only); repeat' split
  all_goals simp
@[simp] theorem emit_log (f : Nat) (w : HostWrite) : (emit f w s).log = s.log := by
  unfold emit; (try dsimp only); repeat' split
  all_goals simp
@[simp] theorem emit_settings (f : Nat) (w : HostWrite) : (emit f w s).settings = s.settings := by
  unfold emit; (try dsimp only); repeat' split
  all_goals simp
@[simp] theorem emit_bin (f : Nat) (w : HostWrite) : (emit f w s).bin = s.bin := by
  unfold emit; (try dsimp only); repeat' split
  all_goals simp
@[simp] theorem emit_wafer (f : Nat) (w : HostWrite) : (emit f w s).wafer = s.wafer := by
  unfold emit; (try dsimp only); repeat' split
  all_goals simp
@[simp] theorem emit_sites (f : Nat) (w : HostWrite) : (emit f w s).sites = s.sites := by
  unfold emit; (try dsimp only); repeat' split
  all_goals simp
@[simp] theorem emit_dies (f : Nat) (w : HostWrite) : (emit f w s).dies = s.dies := by
  unfold emit; (try dsimp only); repeat' split
  all_goals simp
@[simp] theorem emit_clusters (f : Nat) (w : HostWrite) : (emit f w s).clusters = s.clusters := by
  unfold emit; (try dsimp only); repeat' split
  all_goals simp
@[simp] theorem emit_stores (f : Nat) (w : HostWrite) : (emit f w s).stores = s.stores := by
  unfold emit; (try dsimp only); repeat' split
  all_goals simp
@[simp] theorem emit_mem (f : Nat) (w : HostWrite) : (emit f w s).mem = s.mem := by
  unfold emit; (try dsimp only); repeat' split
  all_goals simp
@[simp] theorem emit_memPoison (f : Nat) (w : HostWrite) : (emit f w s).memPoison = s.memPoison := by
  unfold emit; (try dsimp only); repeat' split
  all_goals simp
@[simp] theorem emit_memForms (f : Nat) (w : HostWrite) : (emit f w s).memForms = s.memForms := by
  unfold emit; (try dsimp only); repeat' split
  all_goals simp
@[simp] theorem emit_owners (f : Nat) (w : HostWrite) : (emit f w s).owners = s.owners := by
  unfold emit; (try dsimp only); repeat' split
  all_goals simp
@[simp] theorem emit_scrubs (f : Nat) (w : HostWrite) : (emit f w s).scrubs = s.scrubs := by
  unfold emit; (try dsimp only); repeat' split
  all_goals simp
@[simp] theorem emit_parts (f : Nat) (w : HostWrite) : (emit f w s).parts = s.parts := by
  unfold emit; (try dsimp only); repeat' split
  all_goals simp
@[simp] theorem emit_ctxs (f : Nat) (w : HostWrite) : (emit f w s).ctxs = s.ctxs := by
  unfold emit; (try dsimp only); repeat' split
  all_goals simp
@[simp] theorem emit_seqs (f : Nat) (w : HostWrite) : (emit f w s).seqs = s.seqs := by
  unfold emit; (try dsimp only); repeat' split
  all_goals simp
@[simp] theorem emit_dir (f : Nat) (w : HostWrite) : (emit f w s).dir = s.dir := by
  unfold emit; (try dsimp only); repeat' split
  all_goals simp
@[simp] theorem emit_sq (f : Nat) (w : HostWrite) : (emit f w s).sq = s.sq := by
  unfold emit; (try dsimp only); repeat' split
  all_goals simp
@[simp] theorem emit_cq (f : Nat) (w : HostWrite) : (emit f w s).cq = s.cq := by
  unfold emit; (try dsimp only); repeat' split
  all_goals simp
@[simp] theorem emit_tq (f : Nat) (w : HostWrite) : (emit f w s).tq = s.tq := by
  unfold emit; (try dsimp only); repeat' split
  all_goals simp
@[simp] theorem emit_heldRecs (f : Nat) (w : HostWrite) : (emit f w s).heldRecs = s.heldRecs := by
  unfold emit; (try dsimp only); repeat' split
  all_goals simp
@[simp] theorem emit_link (f : Nat) (w : HostWrite) : (emit f w s).link = s.link := by
  unfold emit; (try dsimp only); repeat' split
  all_goals simp
@[simp] theorem emit_marks (f : Nat) (w : HostWrite) : (emit f w s).marks = s.marks := by
  unfold emit; (try dsimp only); repeat' split
  all_goals simp
@[simp] theorem emit_net (f : Nat) (w : HostWrite) : (emit f w s).net = s.net := by
  unfold emit; (try dsimp only); repeat' split
  all_goals simp
@[simp] theorem emit_chans (f : Nat) (w : HostWrite) : (emit f w s).chans = s.chans := by
  unfold emit; (try dsimp only); repeat' split
  all_goals simp
@[simp] theorem emit_dimmWork (f : Nat) (w : HostWrite) : (emit f w s).dimmWork = s.dimmWork := by
  unfold emit; (try dsimp only); repeat' split
  all_goals simp
@[simp] theorem emit_dimm (f : Nat) (w : HostWrite) : (emit f w s).dimm = s.dimm := by
  unfold emit; (try dsimp only); repeat' split
  all_goals simp
@[simp] theorem emit_dimmBad (f : Nat) (w : HostWrite) : (emit f w s).dimmBad = s.dimmBad := by
  unfold emit; (try dsimp only); repeat' split
  all_goals simp
@[simp] theorem emit_reck (f : Nat) (w : HostWrite) : (emit f w s).reck = s.reck := by
  unfold emit; (try dsimp only); repeat' split
  all_goals simp
@[simp] theorem emit_power (f : Nat) (w : HostWrite) : (emit f w s).power = s.power := by
  unfold emit; (try dsimp only); repeat' split
  all_goals simp
@[simp] theorem emit_errs (f : Nat) (w : HostWrite) : (emit f w s).errs = s.errs := by
  unfold emit; (try dsimp only); repeat' split
  all_goals simp
@[simp] theorem emit_mgmt (f : Nat) (w : HostWrite) : (emit f w s).mgmt = s.mgmt := by
  unfold emit; (try dsimp only); repeat' split
  all_goals simp
@[simp] theorem emit_pair (f : Nat) (w : HostWrite) : (emit f w s).pair = s.pair := by
  unfold emit; (try dsimp only); repeat' split
  all_goals simp
@[simp] theorem emit_update (f : Nat) (w : HostWrite) : (emit f w s).update = s.update := by
  unfold emit; (try dsimp only); repeat' split
  all_goals simp

/-! ### interrupt -/

@[simp] theorem interrupt_pending (f v : Nat) : (interrupt f v s).pending = s.pending := by
  unfold interrupt; (try dsimp only); repeat' split
  all_goals simp
@[simp] theorem interrupt_freeIx (f v : Nat) : (interrupt f v s).freeIx = s.freeIx := by
  unfold interrupt; (try dsimp only); repeat' split
  all_goals simp
@[simp] theorem interrupt_serial (f v : Nat) : (interrupt f v s).serial = s.serial := by
  unfold interrupt; (try dsimp only); repeat' split
  all_goals simp
@[simp] theorem interrupt_life (f v : Nat) : (interrupt f v s).life = s.life := by
  unfold interrupt; (try dsimp only); repeat' split
  all_goals simp
@[simp] theorem interrupt_build (f v : Nat) : (interrupt f v s).build = s.build := by
  unfold interrupt; (try dsimp only); repeat' split
  all_goals simp
@[simp] theorem interrupt_flash0 (f v : Nat) : (interrupt f v s).flash0 = s.flash0 := by
  unfold interrupt; (try dsimp only); repeat' split
  all_goals simp
@[simp] theorem interrupt_flash1 (f v : Nat) : (interrupt f v s).flash1 = s.flash1 := by
  unfold interrupt; (try dsimp only); repeat' split
  all_goals simp
@[simp] theorem interrupt_log (f v : Nat) : (interrupt f v s).log = s.log := by
  unfold interrupt; (try dsimp only); repeat' split
  all_goals simp
@[simp] theorem interrupt_settings (f v : Nat) : (interrupt f v s).settings = s.settings := by
  unfold interrupt; (try dsimp only); repeat' split
  all_goals simp
@[simp] theorem interrupt_bin (f v : Nat) : (interrupt f v s).bin = s.bin := by
  unfold interrupt; (try dsimp only); repeat' split
  all_goals simp
@[simp] theorem interrupt_wafer (f v : Nat) : (interrupt f v s).wafer = s.wafer := by
  unfold interrupt; (try dsimp only); repeat' split
  all_goals simp
@[simp] theorem interrupt_sites (f v : Nat) : (interrupt f v s).sites = s.sites := by
  unfold interrupt; (try dsimp only); repeat' split
  all_goals simp
@[simp] theorem interrupt_dies (f v : Nat) : (interrupt f v s).dies = s.dies := by
  unfold interrupt; (try dsimp only); repeat' split
  all_goals simp
@[simp] theorem interrupt_clusters (f v : Nat) : (interrupt f v s).clusters = s.clusters := by
  unfold interrupt; (try dsimp only); repeat' split
  all_goals simp
@[simp] theorem interrupt_stores (f v : Nat) : (interrupt f v s).stores = s.stores := by
  unfold interrupt; (try dsimp only); repeat' split
  all_goals simp
@[simp] theorem interrupt_mem (f v : Nat) : (interrupt f v s).mem = s.mem := by
  unfold interrupt; (try dsimp only); repeat' split
  all_goals simp
@[simp] theorem interrupt_memPoison (f v : Nat) : (interrupt f v s).memPoison = s.memPoison := by
  unfold interrupt; (try dsimp only); repeat' split
  all_goals simp
@[simp] theorem interrupt_memForms (f v : Nat) : (interrupt f v s).memForms = s.memForms := by
  unfold interrupt; (try dsimp only); repeat' split
  all_goals simp
@[simp] theorem interrupt_owners (f v : Nat) : (interrupt f v s).owners = s.owners := by
  unfold interrupt; (try dsimp only); repeat' split
  all_goals simp
@[simp] theorem interrupt_scrubs (f v : Nat) : (interrupt f v s).scrubs = s.scrubs := by
  unfold interrupt; (try dsimp only); repeat' split
  all_goals simp
@[simp] theorem interrupt_parts (f v : Nat) : (interrupt f v s).parts = s.parts := by
  unfold interrupt; (try dsimp only); repeat' split
  all_goals simp
@[simp] theorem interrupt_ctxs (f v : Nat) : (interrupt f v s).ctxs = s.ctxs := by
  unfold interrupt; (try dsimp only); repeat' split
  all_goals simp
@[simp] theorem interrupt_seqs (f v : Nat) : (interrupt f v s).seqs = s.seqs := by
  unfold interrupt; (try dsimp only); repeat' split
  all_goals simp
@[simp] theorem interrupt_dir (f v : Nat) : (interrupt f v s).dir = s.dir := by
  unfold interrupt; (try dsimp only); repeat' split
  all_goals simp
@[simp] theorem interrupt_sq (f v : Nat) : (interrupt f v s).sq = s.sq := by
  unfold interrupt; (try dsimp only); repeat' split
  all_goals simp
@[simp] theorem interrupt_cq (f v : Nat) : (interrupt f v s).cq = s.cq := by
  unfold interrupt; (try dsimp only); repeat' split
  all_goals simp
@[simp] theorem interrupt_tq (f v : Nat) : (interrupt f v s).tq = s.tq := by
  unfold interrupt; (try dsimp only); repeat' split
  all_goals simp
@[simp] theorem interrupt_heldRecs (f v : Nat) : (interrupt f v s).heldRecs = s.heldRecs := by
  unfold interrupt; (try dsimp only); repeat' split
  all_goals simp
@[simp] theorem interrupt_link (f v : Nat) : (interrupt f v s).link = s.link := by
  unfold interrupt; (try dsimp only); repeat' split
  all_goals simp
@[simp] theorem interrupt_marks (f v : Nat) : (interrupt f v s).marks = s.marks := by
  unfold interrupt; (try dsimp only); repeat' split
  all_goals simp
@[simp] theorem interrupt_net (f v : Nat) : (interrupt f v s).net = s.net := by
  unfold interrupt; (try dsimp only); repeat' split
  all_goals simp
@[simp] theorem interrupt_chans (f v : Nat) : (interrupt f v s).chans = s.chans := by
  unfold interrupt; (try dsimp only); repeat' split
  all_goals simp
@[simp] theorem interrupt_dimmWork (f v : Nat) : (interrupt f v s).dimmWork = s.dimmWork := by
  unfold interrupt; (try dsimp only); repeat' split
  all_goals simp
@[simp] theorem interrupt_dimm (f v : Nat) : (interrupt f v s).dimm = s.dimm := by
  unfold interrupt; (try dsimp only); repeat' split
  all_goals simp
@[simp] theorem interrupt_dimmBad (f v : Nat) : (interrupt f v s).dimmBad = s.dimmBad := by
  unfold interrupt; (try dsimp only); repeat' split
  all_goals simp
@[simp] theorem interrupt_reck (f v : Nat) : (interrupt f v s).reck = s.reck := by
  unfold interrupt; (try dsimp only); repeat' split
  all_goals simp
@[simp] theorem interrupt_power (f v : Nat) : (interrupt f v s).power = s.power := by
  unfold interrupt; (try dsimp only); repeat' split
  all_goals simp
@[simp] theorem interrupt_errs (f v : Nat) : (interrupt f v s).errs = s.errs := by
  unfold interrupt; (try dsimp only); repeat' split
  all_goals simp
@[simp] theorem interrupt_mgmt (f v : Nat) : (interrupt f v s).mgmt = s.mgmt := by
  unfold interrupt; (try dsimp only); repeat' split
  all_goals simp
@[simp] theorem interrupt_pair (f v : Nat) : (interrupt f v s).pair = s.pair := by
  unfold interrupt; (try dsimp only); repeat' split
  all_goals simp
@[simp] theorem interrupt_update (f v : Nat) : (interrupt f v s).update = s.update := by
  unfold interrupt; (try dsimp only); repeat' split
  all_goals simp

/-! ### raise -/

@[simp] theorem raise_pending (f : Nat) (n : Nat) : (raise f n s).pending = s.pending := by
  unfold raise; (try dsimp only); repeat' split
  all_goals simp
@[simp] theorem raise_freeIx (f : Nat) (n : Nat) : (raise f n s).freeIx = s.freeIx := by
  unfold raise; (try dsimp only); repeat' split
  all_goals simp
@[simp] theorem raise_serial (f : Nat) (n : Nat) : (raise f n s).serial = s.serial := by
  unfold raise; (try dsimp only); repeat' split
  all_goals simp
@[simp] theorem raise_life (f : Nat) (n : Nat) : (raise f n s).life = s.life := by
  unfold raise; (try dsimp only); repeat' split
  all_goals simp
@[simp] theorem raise_build (f : Nat) (n : Nat) : (raise f n s).build = s.build := by
  unfold raise; (try dsimp only); repeat' split
  all_goals simp
@[simp] theorem raise_flash0 (f : Nat) (n : Nat) : (raise f n s).flash0 = s.flash0 := by
  unfold raise; (try dsimp only); repeat' split
  all_goals simp
@[simp] theorem raise_flash1 (f : Nat) (n : Nat) : (raise f n s).flash1 = s.flash1 := by
  unfold raise; (try dsimp only); repeat' split
  all_goals simp
@[simp] theorem raise_log (f : Nat) (n : Nat) : (raise f n s).log = s.log := by
  unfold raise; (try dsimp only); repeat' split
  all_goals simp
@[simp] theorem raise_settings (f : Nat) (n : Nat) : (raise f n s).settings = s.settings := by
  unfold raise; (try dsimp only); repeat' split
  all_goals simp
@[simp] theorem raise_bin (f : Nat) (n : Nat) : (raise f n s).bin = s.bin := by
  unfold raise; (try dsimp only); repeat' split
  all_goals simp
@[simp] theorem raise_wafer (f : Nat) (n : Nat) : (raise f n s).wafer = s.wafer := by
  unfold raise; (try dsimp only); repeat' split
  all_goals simp
@[simp] theorem raise_sites (f : Nat) (n : Nat) : (raise f n s).sites = s.sites := by
  unfold raise; (try dsimp only); repeat' split
  all_goals simp
@[simp] theorem raise_dies (f : Nat) (n : Nat) : (raise f n s).dies = s.dies := by
  unfold raise; (try dsimp only); repeat' split
  all_goals simp
@[simp] theorem raise_clusters (f : Nat) (n : Nat) : (raise f n s).clusters = s.clusters := by
  unfold raise; (try dsimp only); repeat' split
  all_goals simp
@[simp] theorem raise_stores (f : Nat) (n : Nat) : (raise f n s).stores = s.stores := by
  unfold raise; (try dsimp only); repeat' split
  all_goals simp
@[simp] theorem raise_mem (f : Nat) (n : Nat) : (raise f n s).mem = s.mem := by
  unfold raise; (try dsimp only); repeat' split
  all_goals simp
@[simp] theorem raise_memPoison (f : Nat) (n : Nat) : (raise f n s).memPoison = s.memPoison := by
  unfold raise; (try dsimp only); repeat' split
  all_goals simp
@[simp] theorem raise_memForms (f : Nat) (n : Nat) : (raise f n s).memForms = s.memForms := by
  unfold raise; (try dsimp only); repeat' split
  all_goals simp
@[simp] theorem raise_owners (f : Nat) (n : Nat) : (raise f n s).owners = s.owners := by
  unfold raise; (try dsimp only); repeat' split
  all_goals simp
@[simp] theorem raise_scrubs (f : Nat) (n : Nat) : (raise f n s).scrubs = s.scrubs := by
  unfold raise; (try dsimp only); repeat' split
  all_goals simp
@[simp] theorem raise_parts (f : Nat) (n : Nat) : (raise f n s).parts = s.parts := by
  unfold raise; (try dsimp only); repeat' split
  all_goals simp
@[simp] theorem raise_ctxs (f : Nat) (n : Nat) : (raise f n s).ctxs = s.ctxs := by
  unfold raise; (try dsimp only); repeat' split
  all_goals simp
@[simp] theorem raise_seqs (f : Nat) (n : Nat) : (raise f n s).seqs = s.seqs := by
  unfold raise; (try dsimp only); repeat' split
  all_goals simp
@[simp] theorem raise_dir (f : Nat) (n : Nat) : (raise f n s).dir = s.dir := by
  unfold raise; (try dsimp only); repeat' split
  all_goals simp
@[simp] theorem raise_sq (f : Nat) (n : Nat) : (raise f n s).sq = s.sq := by
  unfold raise; (try dsimp only); repeat' split
  all_goals simp
@[simp] theorem raise_cq (f : Nat) (n : Nat) : (raise f n s).cq = s.cq := by
  unfold raise; (try dsimp only); repeat' split
  all_goals simp
@[simp] theorem raise_tq (f : Nat) (n : Nat) : (raise f n s).tq = s.tq := by
  unfold raise; (try dsimp only); repeat' split
  all_goals simp
@[simp] theorem raise_heldRecs (f : Nat) (n : Nat) : (raise f n s).heldRecs = s.heldRecs := by
  unfold raise; (try dsimp only); repeat' split
  all_goals simp
@[simp] theorem raise_link (f : Nat) (n : Nat) : (raise f n s).link = s.link := by
  unfold raise; (try dsimp only); repeat' split
  all_goals simp
@[simp] theorem raise_marks (f : Nat) (n : Nat) : (raise f n s).marks = s.marks := by
  unfold raise; (try dsimp only); repeat' split
  all_goals simp
@[simp] theorem raise_net (f : Nat) (n : Nat) : (raise f n s).net = s.net := by
  unfold raise; (try dsimp only); repeat' split
  all_goals simp
@[simp] theorem raise_chans (f : Nat) (n : Nat) : (raise f n s).chans = s.chans := by
  unfold raise; (try dsimp only); repeat' split
  all_goals simp
@[simp] theorem raise_dimmWork (f : Nat) (n : Nat) : (raise f n s).dimmWork = s.dimmWork := by
  unfold raise; (try dsimp only); repeat' split
  all_goals simp
@[simp] theorem raise_dimm (f : Nat) (n : Nat) : (raise f n s).dimm = s.dimm := by
  unfold raise; (try dsimp only); repeat' split
  all_goals simp
@[simp] theorem raise_dimmBad (f : Nat) (n : Nat) : (raise f n s).dimmBad = s.dimmBad := by
  unfold raise; (try dsimp only); repeat' split
  all_goals simp
@[simp] theorem raise_reck (f : Nat) (n : Nat) : (raise f n s).reck = s.reck := by
  unfold raise; (try dsimp only); repeat' split
  all_goals simp
@[simp] theorem raise_power (f : Nat) (n : Nat) : (raise f n s).power = s.power := by
  unfold raise; (try dsimp only); repeat' split
  all_goals simp
@[simp] theorem raise_errs (f : Nat) (n : Nat) : (raise f n s).errs = s.errs := by
  unfold raise; (try dsimp only); repeat' split
  all_goals simp
@[simp] theorem raise_mgmt (f : Nat) (n : Nat) : (raise f n s).mgmt = s.mgmt := by
  unfold raise; (try dsimp only); repeat' split
  all_goals simp
@[simp] theorem raise_pair (f : Nat) (n : Nat) : (raise f n s).pair = s.pair := by
  unfold raise; (try dsimp only); repeat' split
  all_goals simp
@[simp] theorem raise_update (f : Nat) (n : Nat) : (raise f n s).update = s.update := by
  unfold raise; (try dsimp only); repeat' split
  all_goals simp

/-! ### noteGrade -/

@[simp] theorem noteGrade_pending (g : Nat) : (noteGrade g s).pending = s.pending := by
  unfold noteGrade; (try dsimp only); repeat' split
  all_goals simp
@[simp] theorem noteGrade_freeIx (g : Nat) : (noteGrade g s).freeIx = s.freeIx := by
  unfold noteGrade; (try dsimp only); repeat' split
  all_goals simp
@[simp] theorem noteGrade_serial (g : Nat) : (noteGrade g s).serial = s.serial := by
  unfold noteGrade; (try dsimp only); repeat' split
  all_goals simp
@[simp] theorem noteGrade_life (g : Nat) : (noteGrade g s).life = s.life := by
  unfold noteGrade; (try dsimp only); repeat' split
  all_goals simp
@[simp] theorem noteGrade_build (g : Nat) : (noteGrade g s).build = s.build := by
  unfold noteGrade; (try dsimp only); repeat' split
  all_goals simp
@[simp] theorem noteGrade_flash0 (g : Nat) : (noteGrade g s).flash0 = s.flash0 := by
  unfold noteGrade; (try dsimp only); repeat' split
  all_goals simp
@[simp] theorem noteGrade_flash1 (g : Nat) : (noteGrade g s).flash1 = s.flash1 := by
  unfold noteGrade; (try dsimp only); repeat' split
  all_goals simp
@[simp] theorem noteGrade_log (g : Nat) : (noteGrade g s).log = s.log := by
  unfold noteGrade; (try dsimp only); repeat' split
  all_goals simp
@[simp] theorem noteGrade_settings (g : Nat) : (noteGrade g s).settings = s.settings := by
  unfold noteGrade; (try dsimp only); repeat' split
  all_goals simp
@[simp] theorem noteGrade_bin (g : Nat) : (noteGrade g s).bin = s.bin := by
  unfold noteGrade; (try dsimp only); repeat' split
  all_goals simp
@[simp] theorem noteGrade_wafer (g : Nat) : (noteGrade g s).wafer = s.wafer := by
  unfold noteGrade; (try dsimp only); repeat' split
  all_goals simp
@[simp] theorem noteGrade_sites (g : Nat) : (noteGrade g s).sites = s.sites := by
  unfold noteGrade; (try dsimp only); repeat' split
  all_goals simp
@[simp] theorem noteGrade_dies (g : Nat) : (noteGrade g s).dies = s.dies := by
  unfold noteGrade; (try dsimp only); repeat' split
  all_goals simp
@[simp] theorem noteGrade_clusters (g : Nat) : (noteGrade g s).clusters = s.clusters := by
  unfold noteGrade; (try dsimp only); repeat' split
  all_goals simp
@[simp] theorem noteGrade_stores (g : Nat) : (noteGrade g s).stores = s.stores := by
  unfold noteGrade; (try dsimp only); repeat' split
  all_goals simp
@[simp] theorem noteGrade_mem (g : Nat) : (noteGrade g s).mem = s.mem := by
  unfold noteGrade; (try dsimp only); repeat' split
  all_goals simp
@[simp] theorem noteGrade_memPoison (g : Nat) : (noteGrade g s).memPoison = s.memPoison := by
  unfold noteGrade; (try dsimp only); repeat' split
  all_goals simp
@[simp] theorem noteGrade_memForms (g : Nat) : (noteGrade g s).memForms = s.memForms := by
  unfold noteGrade; (try dsimp only); repeat' split
  all_goals simp
@[simp] theorem noteGrade_owners (g : Nat) : (noteGrade g s).owners = s.owners := by
  unfold noteGrade; (try dsimp only); repeat' split
  all_goals simp
@[simp] theorem noteGrade_scrubs (g : Nat) : (noteGrade g s).scrubs = s.scrubs := by
  unfold noteGrade; (try dsimp only); repeat' split
  all_goals simp
@[simp] theorem noteGrade_parts (g : Nat) : (noteGrade g s).parts = s.parts := by
  unfold noteGrade; (try dsimp only); repeat' split
  all_goals simp
@[simp] theorem noteGrade_ctxs (g : Nat) : (noteGrade g s).ctxs = s.ctxs := by
  unfold noteGrade; (try dsimp only); repeat' split
  all_goals simp
@[simp] theorem noteGrade_seqs (g : Nat) : (noteGrade g s).seqs = s.seqs := by
  unfold noteGrade; (try dsimp only); repeat' split
  all_goals simp
@[simp] theorem noteGrade_dir (g : Nat) : (noteGrade g s).dir = s.dir := by
  unfold noteGrade; (try dsimp only); repeat' split
  all_goals simp
@[simp] theorem noteGrade_sq (g : Nat) : (noteGrade g s).sq = s.sq := by
  unfold noteGrade; (try dsimp only); repeat' split
  all_goals simp
@[simp] theorem noteGrade_cq (g : Nat) : (noteGrade g s).cq = s.cq := by
  unfold noteGrade; (try dsimp only); repeat' split
  all_goals simp
@[simp] theorem noteGrade_tq (g : Nat) : (noteGrade g s).tq = s.tq := by
  unfold noteGrade; (try dsimp only); repeat' split
  all_goals simp
@[simp] theorem noteGrade_heldRecs (g : Nat) : (noteGrade g s).heldRecs = s.heldRecs := by
  unfold noteGrade; (try dsimp only); repeat' split
  all_goals simp
@[simp] theorem noteGrade_fns (g : Nat) : (noteGrade g s).fns = s.fns := by
  unfold noteGrade; (try dsimp only); repeat' split
  all_goals simp
@[simp] theorem noteGrade_link (g : Nat) : (noteGrade g s).link = s.link := by
  unfold noteGrade; (try dsimp only); repeat' split
  all_goals simp
@[simp] theorem noteGrade_hostOut (g : Nat) : (noteGrade g s).hostOut = s.hostOut := by
  unfold noteGrade; (try dsimp only); repeat' split
  all_goals simp
@[simp] theorem noteGrade_marks (g : Nat) : (noteGrade g s).marks = s.marks := by
  unfold noteGrade; (try dsimp only); repeat' split
  all_goals simp
@[simp] theorem noteGrade_net (g : Nat) : (noteGrade g s).net = s.net := by
  unfold noteGrade; (try dsimp only); repeat' split
  all_goals simp
@[simp] theorem noteGrade_chans (g : Nat) : (noteGrade g s).chans = s.chans := by
  unfold noteGrade; (try dsimp only); repeat' split
  all_goals simp
@[simp] theorem noteGrade_dimmWork (g : Nat) : (noteGrade g s).dimmWork = s.dimmWork := by
  unfold noteGrade; (try dsimp only); repeat' split
  all_goals simp
@[simp] theorem noteGrade_dimm (g : Nat) : (noteGrade g s).dimm = s.dimm := by
  unfold noteGrade; (try dsimp only); repeat' split
  all_goals simp
@[simp] theorem noteGrade_dimmBad (g : Nat) : (noteGrade g s).dimmBad = s.dimmBad := by
  unfold noteGrade; (try dsimp only); repeat' split
  all_goals simp
@[simp] theorem noteGrade_reck (g : Nat) : (noteGrade g s).reck = s.reck := by
  unfold noteGrade; (try dsimp only); repeat' split
  all_goals simp
@[simp] theorem noteGrade_power (g : Nat) : (noteGrade g s).power = s.power := by
  unfold noteGrade; (try dsimp only); repeat' split
  all_goals simp
@[simp] theorem noteGrade_errs (g : Nat) : (noteGrade g s).errs = s.errs := by
  unfold noteGrade; (try dsimp only); repeat' split
  all_goals simp
@[simp] theorem noteGrade_pair (g : Nat) : (noteGrade g s).pair = s.pair := by
  unfold noteGrade; (try dsimp only); repeat' split
  all_goals simp
@[simp] theorem noteGrade_update (g : Nat) : (noteGrade g s).update = s.update := by
  unfold noteGrade; (try dsimp only); repeat' split
  all_goals simp

/-! ### regrade -/

@[simp] theorem regrade_pending  : (regrade s).pending = s.pending := by
  unfold regrade; (try dsimp only); repeat' split
  all_goals simp
@[simp] theorem regrade_freeIx  : (regrade s).freeIx = s.freeIx := by
  unfold regrade; (try dsimp only); repeat' split
  all_goals simp
@[simp] theorem regrade_serial  : (regrade s).serial = s.serial := by
  unfold regrade; (try dsimp only); repeat' split
  all_goals simp
@[simp] theorem regrade_life  : (regrade s).life = s.life := by
  unfold regrade; (try dsimp only); repeat' split
  all_goals simp
@[simp] theorem regrade_flash0  : (regrade s).flash0 = s.flash0 := by
  unfold regrade; (try dsimp only); repeat' split
  all_goals simp
@[simp] theorem regrade_flash1  : (regrade s).flash1 = s.flash1 := by
  unfold regrade; (try dsimp only); repeat' split
  all_goals simp
@[simp] theorem regrade_log  : (regrade s).log = s.log := by
  unfold regrade; (try dsimp only); repeat' split
  all_goals simp
@[simp] theorem regrade_settings  : (regrade s).settings = s.settings := by
  unfold regrade; (try dsimp only); repeat' split
  all_goals simp
@[simp] theorem regrade_bin  : (regrade s).bin = s.bin := by
  unfold regrade; (try dsimp only); repeat' split
  all_goals simp
@[simp] theorem regrade_wafer  : (regrade s).wafer = s.wafer := by
  unfold regrade; (try dsimp only); repeat' split
  all_goals simp
@[simp] theorem regrade_sites  : (regrade s).sites = s.sites := by
  unfold regrade; (try dsimp only); repeat' split
  all_goals simp
@[simp] theorem regrade_dies  : (regrade s).dies = s.dies := by
  unfold regrade; (try dsimp only); repeat' split
  all_goals simp
@[simp] theorem regrade_clusters  : (regrade s).clusters = s.clusters := by
  unfold regrade; (try dsimp only); repeat' split
  all_goals simp
@[simp] theorem regrade_stores  : (regrade s).stores = s.stores := by
  unfold regrade; (try dsimp only); repeat' split
  all_goals simp
@[simp] theorem regrade_mem  : (regrade s).mem = s.mem := by
  unfold regrade; (try dsimp only); repeat' split
  all_goals simp
@[simp] theorem regrade_memPoison  : (regrade s).memPoison = s.memPoison := by
  unfold regrade; (try dsimp only); repeat' split
  all_goals simp
@[simp] theorem regrade_memForms  : (regrade s).memForms = s.memForms := by
  unfold regrade; (try dsimp only); repeat' split
  all_goals simp
@[simp] theorem regrade_owners  : (regrade s).owners = s.owners := by
  unfold regrade; (try dsimp only); repeat' split
  all_goals simp
@[simp] theorem regrade_scrubs  : (regrade s).scrubs = s.scrubs := by
  unfold regrade; (try dsimp only); repeat' split
  all_goals simp
@[simp] theorem regrade_parts  : (regrade s).parts = s.parts := by
  unfold regrade; (try dsimp only); repeat' split
  all_goals simp
@[simp] theorem regrade_ctxs  : (regrade s).ctxs = s.ctxs := by
  unfold regrade; (try dsimp only); repeat' split
  all_goals simp
@[simp] theorem regrade_seqs  : (regrade s).seqs = s.seqs := by
  unfold regrade; (try dsimp only); repeat' split
  all_goals simp
@[simp] theorem regrade_dir  : (regrade s).dir = s.dir := by
  unfold regrade; (try dsimp only); repeat' split
  all_goals simp
@[simp] theorem regrade_sq  : (regrade s).sq = s.sq := by
  unfold regrade; (try dsimp only); repeat' split
  all_goals simp
@[simp] theorem regrade_cq  : (regrade s).cq = s.cq := by
  unfold regrade; (try dsimp only); repeat' split
  all_goals simp
@[simp] theorem regrade_tq  : (regrade s).tq = s.tq := by
  unfold regrade; (try dsimp only); repeat' split
  all_goals simp
@[simp] theorem regrade_heldRecs  : (regrade s).heldRecs = s.heldRecs := by
  unfold regrade; (try dsimp only); repeat' split
  all_goals simp
@[simp] theorem regrade_fns  : (regrade s).fns = s.fns := by
  unfold regrade; (try dsimp only); repeat' split
  all_goals simp
@[simp] theorem regrade_link  : (regrade s).link = s.link := by
  unfold regrade; (try dsimp only); repeat' split
  all_goals simp
@[simp] theorem regrade_hostOut  : (regrade s).hostOut = s.hostOut := by
  unfold regrade; (try dsimp only); repeat' split
  all_goals simp
@[simp] theorem regrade_marks  : (regrade s).marks = s.marks := by
  unfold regrade; (try dsimp only); repeat' split
  all_goals simp
@[simp] theorem regrade_net  : (regrade s).net = s.net := by
  unfold regrade; (try dsimp only); repeat' split
  all_goals simp
@[simp] theorem regrade_chans  : (regrade s).chans = s.chans := by
  unfold regrade; (try dsimp only); repeat' split
  all_goals simp
@[simp] theorem regrade_dimmWork  : (regrade s).dimmWork = s.dimmWork := by
  unfold regrade; (try dsimp only); repeat' split
  all_goals simp
@[simp] theorem regrade_dimm  : (regrade s).dimm = s.dimm := by
  unfold regrade; (try dsimp only); repeat' split
  all_goals simp
@[simp] theorem regrade_dimmBad  : (regrade s).dimmBad = s.dimmBad := by
  unfold regrade; (try dsimp only); repeat' split
  all_goals simp
@[simp] theorem regrade_reck  : (regrade s).reck = s.reck := by
  unfold regrade; (try dsimp only); repeat' split
  all_goals simp
@[simp] theorem regrade_power  : (regrade s).power = s.power := by
  unfold regrade; (try dsimp only); repeat' split
  all_goals simp
@[simp] theorem regrade_errs  : (regrade s).errs = s.errs := by
  unfold regrade; (try dsimp only); repeat' split
  all_goals simp
@[simp] theorem regrade_mgmt  : (regrade s).mgmt = s.mgmt := by
  unfold regrade; (try dsimp only); repeat' split
  all_goals simp
@[simp] theorem regrade_pair  : (regrade s).pair = s.pair := by
  unfold regrade; (try dsimp only); repeat' split
  all_goals simp
@[simp] theorem regrade_update  : (regrade s).update = s.update := by
  unfold regrade; (try dsimp only); repeat' split
  all_goals simp

/-! ### reportGrade -/

@[simp] theorem reportGrade_pending  : (reportGrade s).pending = s.pending := by
  unfold reportGrade; (try dsimp only); repeat' split
  all_goals simp
@[simp] theorem reportGrade_freeIx  : (reportGrade s).freeIx = s.freeIx := by
  unfold reportGrade; (try dsimp only); repeat' split
  all_goals simp
@[simp] theorem reportGrade_serial  : (reportGrade s).serial = s.serial := by
  unfold reportGrade; (try dsimp only); repeat' split
  all_goals simp
@[simp] theorem reportGrade_life  : (reportGrade s).life = s.life := by
  unfold reportGrade; (try dsimp only); repeat' split
  all_goals simp
@[simp] theorem reportGrade_flash0  : (reportGrade s).flash0 = s.flash0 := by
  unfold reportGrade; (try dsimp only); repeat' split
  all_goals simp
@[simp] theorem reportGrade_flash1  : (reportGrade s).flash1 = s.flash1 := by
  unfold reportGrade; (try dsimp only); repeat' split
  all_goals simp
@[simp] theorem reportGrade_log  : (reportGrade s).log = s.log := by
  unfold reportGrade; (try dsimp only); repeat' split
  all_goals simp
@[simp] theorem reportGrade_settings  : (reportGrade s).settings = s.settings := by
  unfold reportGrade; (try dsimp only); repeat' split
  all_goals simp
@[simp] theorem reportGrade_bin  : (reportGrade s).bin = s.bin := by
  unfold reportGrade; (try dsimp only); repeat' split
  all_goals simp
@[simp] theorem reportGrade_wafer  : (reportGrade s).wafer = s.wafer := by
  unfold reportGrade; (try dsimp only); repeat' split
  all_goals simp
@[simp] theorem reportGrade_sites  : (reportGrade s).sites = s.sites := by
  unfold reportGrade; (try dsimp only); repeat' split
  all_goals simp
@[simp] theorem reportGrade_dies  : (reportGrade s).dies = s.dies := by
  unfold reportGrade; (try dsimp only); repeat' split
  all_goals simp
@[simp] theorem reportGrade_clusters  : (reportGrade s).clusters = s.clusters := by
  unfold reportGrade; (try dsimp only); repeat' split
  all_goals simp
@[simp] theorem reportGrade_stores  : (reportGrade s).stores = s.stores := by
  unfold reportGrade; (try dsimp only); repeat' split
  all_goals simp
@[simp] theorem reportGrade_mem  : (reportGrade s).mem = s.mem := by
  unfold reportGrade; (try dsimp only); repeat' split
  all_goals simp
@[simp] theorem reportGrade_memPoison  : (reportGrade s).memPoison = s.memPoison := by
  unfold reportGrade; (try dsimp only); repeat' split
  all_goals simp
@[simp] theorem reportGrade_memForms  : (reportGrade s).memForms = s.memForms := by
  unfold reportGrade; (try dsimp only); repeat' split
  all_goals simp
@[simp] theorem reportGrade_owners  : (reportGrade s).owners = s.owners := by
  unfold reportGrade; (try dsimp only); repeat' split
  all_goals simp
@[simp] theorem reportGrade_scrubs  : (reportGrade s).scrubs = s.scrubs := by
  unfold reportGrade; (try dsimp only); repeat' split
  all_goals simp
@[simp] theorem reportGrade_parts  : (reportGrade s).parts = s.parts := by
  unfold reportGrade; (try dsimp only); repeat' split
  all_goals simp
@[simp] theorem reportGrade_ctxs  : (reportGrade s).ctxs = s.ctxs := by
  unfold reportGrade; (try dsimp only); repeat' split
  all_goals simp
@[simp] theorem reportGrade_seqs  : (reportGrade s).seqs = s.seqs := by
  unfold reportGrade; (try dsimp only); repeat' split
  all_goals simp
@[simp] theorem reportGrade_dir  : (reportGrade s).dir = s.dir := by
  unfold reportGrade; (try dsimp only); repeat' split
  all_goals simp
@[simp] theorem reportGrade_sq  : (reportGrade s).sq = s.sq := by
  unfold reportGrade; (try dsimp only); repeat' split
  all_goals simp
@[simp] theorem reportGrade_cq  : (reportGrade s).cq = s.cq := by
  unfold reportGrade; (try dsimp only); repeat' split
  all_goals simp
@[simp] theorem reportGrade_tq  : (reportGrade s).tq = s.tq := by
  unfold reportGrade; (try dsimp only); repeat' split
  all_goals simp
@[simp] theorem reportGrade_heldRecs  : (reportGrade s).heldRecs = s.heldRecs := by
  unfold reportGrade; (try dsimp only); repeat' split
  all_goals simp
@[simp] theorem reportGrade_fns  : (reportGrade s).fns = s.fns := by
  unfold reportGrade; (try dsimp only); repeat' split
  all_goals simp
@[simp] theorem reportGrade_link  : (reportGrade s).link = s.link := by
  unfold reportGrade; (try dsimp only); repeat' split
  all_goals simp
@[simp] theorem reportGrade_hostOut  : (reportGrade s).hostOut = s.hostOut := by
  unfold reportGrade; (try dsimp only); repeat' split
  all_goals simp
@[simp] theorem reportGrade_marks  : (reportGrade s).marks = s.marks := by
  unfold reportGrade; (try dsimp only); repeat' split
  all_goals simp
@[simp] theorem reportGrade_net  : (reportGrade s).net = s.net := by
  unfold reportGrade; (try dsimp only); repeat' split
  all_goals simp
@[simp] theorem reportGrade_chans  : (reportGrade s).chans = s.chans := by
  unfold reportGrade; (try dsimp only); repeat' split
  all_goals simp
@[simp] theorem reportGrade_dimmWork  : (reportGrade s).dimmWork = s.dimmWork := by
  unfold reportGrade; (try dsimp only); repeat' split
  all_goals simp
@[simp] theorem reportGrade_dimm  : (reportGrade s).dimm = s.dimm := by
  unfold reportGrade; (try dsimp only); repeat' split
  all_goals simp
@[simp] theorem reportGrade_dimmBad  : (reportGrade s).dimmBad = s.dimmBad := by
  unfold reportGrade; (try dsimp only); repeat' split
  all_goals simp
@[simp] theorem reportGrade_reck  : (reportGrade s).reck = s.reck := by
  unfold reportGrade; (try dsimp only); repeat' split
  all_goals simp
@[simp] theorem reportGrade_power  : (reportGrade s).power = s.power := by
  unfold reportGrade; (try dsimp only); repeat' split
  all_goals simp
@[simp] theorem reportGrade_errs  : (reportGrade s).errs = s.errs := by
  unfold reportGrade; (try dsimp only); repeat' split
  all_goals simp
@[simp] theorem reportGrade_pair  : (reportGrade s).pair = s.pair := by
  unfold reportGrade; (try dsimp only); repeat' split
  all_goals simp
@[simp] theorem reportGrade_update  : (reportGrade s).update = s.update := by
  unfold reportGrade; (try dsimp only); repeat' split
  all_goals simp

/-! ### settle -/

@[simp] theorem settle_pending (before : State) : (settle before s).pending = s.pending := by
  unfold settle; (try dsimp only); repeat' split
  all_goals simp
@[simp] theorem settle_freeIx (before : State) : (settle before s).freeIx = s.freeIx := by
  unfold settle; (try dsimp only); repeat' split
  all_goals simp
@[simp] theorem settle_serial (before : State) : (settle before s).serial = s.serial := by
  unfold settle; (try dsimp only); repeat' split
  all_goals simp
@[simp] theorem settle_life (before : State) : (settle before s).life = s.life := by
  unfold settle; (try dsimp only); repeat' split
  all_goals simp
@[simp] theorem settle_flash0 (before : State) : (settle before s).flash0 = s.flash0 := by
  unfold settle; (try dsimp only); repeat' split
  all_goals simp
@[simp] theorem settle_flash1 (before : State) : (settle before s).flash1 = s.flash1 := by
  unfold settle; (try dsimp only); repeat' split
  all_goals simp
@[simp] theorem settle_log (before : State) : (settle before s).log = s.log := by
  unfold settle; (try dsimp only); repeat' split
  all_goals simp
@[simp] theorem settle_settings (before : State) : (settle before s).settings = s.settings := by
  unfold settle; (try dsimp only); repeat' split
  all_goals simp
@[simp] theorem settle_bin (before : State) : (settle before s).bin = s.bin := by
  unfold settle; (try dsimp only); repeat' split
  all_goals simp
@[simp] theorem settle_wafer (before : State) : (settle before s).wafer = s.wafer := by
  unfold settle; (try dsimp only); repeat' split
  all_goals simp
@[simp] theorem settle_sites (before : State) : (settle before s).sites = s.sites := by
  unfold settle; (try dsimp only); repeat' split
  all_goals simp
@[simp] theorem settle_dies (before : State) : (settle before s).dies = s.dies := by
  unfold settle; (try dsimp only); repeat' split
  all_goals simp
@[simp] theorem settle_clusters (before : State) : (settle before s).clusters = s.clusters := by
  unfold settle; (try dsimp only); repeat' split
  all_goals simp
@[simp] theorem settle_stores (before : State) : (settle before s).stores = s.stores := by
  unfold settle; (try dsimp only); repeat' split
  all_goals simp
@[simp] theorem settle_mem (before : State) : (settle before s).mem = s.mem := by
  unfold settle; (try dsimp only); repeat' split
  all_goals simp
@[simp] theorem settle_memPoison (before : State) : (settle before s).memPoison = s.memPoison := by
  unfold settle; (try dsimp only); repeat' split
  all_goals simp
@[simp] theorem settle_memForms (before : State) : (settle before s).memForms = s.memForms := by
  unfold settle; (try dsimp only); repeat' split
  all_goals simp
@[simp] theorem settle_owners (before : State) : (settle before s).owners = s.owners := by
  unfold settle; (try dsimp only); repeat' split
  all_goals simp
@[simp] theorem settle_scrubs (before : State) : (settle before s).scrubs = s.scrubs := by
  unfold settle; (try dsimp only); repeat' split
  all_goals simp
@[simp] theorem settle_parts (before : State) : (settle before s).parts = s.parts := by
  unfold settle; (try dsimp only); repeat' split
  all_goals simp
@[simp] theorem settle_ctxs (before : State) : (settle before s).ctxs = s.ctxs := by
  unfold settle; (try dsimp only); repeat' split
  all_goals simp
@[simp] theorem settle_seqs (before : State) : (settle before s).seqs = s.seqs := by
  unfold settle; (try dsimp only); repeat' split
  all_goals simp
@[simp] theorem settle_dir (before : State) : (settle before s).dir = s.dir := by
  unfold settle; (try dsimp only); repeat' split
  all_goals simp
@[simp] theorem settle_sq (before : State) : (settle before s).sq = s.sq := by
  unfold settle; (try dsimp only); repeat' split
  all_goals simp
@[simp] theorem settle_cq (before : State) : (settle before s).cq = s.cq := by
  unfold settle; (try dsimp only); repeat' split
  all_goals simp
@[simp] theorem settle_tq (before : State) : (settle before s).tq = s.tq := by
  unfold settle; (try dsimp only); repeat' split
  all_goals simp
@[simp] theorem settle_heldRecs (before : State) : (settle before s).heldRecs = s.heldRecs := by
  unfold settle; (try dsimp only); repeat' split
  all_goals simp
@[simp] theorem settle_link (before : State) : (settle before s).link = s.link := by
  unfold settle; (try dsimp only); repeat' split
  all_goals simp
@[simp] theorem settle_marks (before : State) : (settle before s).marks = s.marks := by
  unfold settle; (try dsimp only); repeat' split
  all_goals simp
@[simp] theorem settle_net (before : State) : (settle before s).net = s.net := by
  unfold settle; (try dsimp only); repeat' split
  all_goals simp
@[simp] theorem settle_chans (before : State) : (settle before s).chans = s.chans := by
  unfold settle; (try dsimp only); repeat' split
  all_goals simp
@[simp] theorem settle_dimmWork (before : State) : (settle before s).dimmWork = s.dimmWork := by
  unfold settle; (try dsimp only); repeat' split
  all_goals simp
@[simp] theorem settle_dimm (before : State) : (settle before s).dimm = s.dimm := by
  unfold settle; (try dsimp only); repeat' split
  all_goals simp
@[simp] theorem settle_dimmBad (before : State) : (settle before s).dimmBad = s.dimmBad := by
  unfold settle; (try dsimp only); repeat' split
  all_goals simp
@[simp] theorem settle_reck (before : State) : (settle before s).reck = s.reck := by
  unfold settle; (try dsimp only); repeat' split
  all_goals simp
@[simp] theorem settle_power (before : State) : (settle before s).power = s.power := by
  unfold settle; (try dsimp only); repeat' split
  all_goals simp
@[simp] theorem settle_errs (before : State) : (settle before s).errs = s.errs := by
  unfold settle; (try dsimp only); repeat' split
  all_goals simp
@[simp] theorem settle_pair (before : State) : (settle before s).pair = s.pair := by
  unfold settle; (try dsimp only); repeat' split
  all_goals simp
@[simp] theorem settle_update (before : State) : (settle before s).update = s.update := by
  unfold settle; (try dsimp only); repeat' split
  all_goals simp

/-! ### haltCtx -/

@[simp] theorem haltCtx_pending (c : Nat) : (haltCtx c s).pending = s.pending := by
  unfold haltCtx; (try dsimp only); repeat' split
  all_goals simp
@[simp] theorem haltCtx_freeIx (c : Nat) : (haltCtx c s).freeIx = s.freeIx := by
  unfold haltCtx; (try dsimp only); repeat' split
  all_goals simp
@[simp] theorem haltCtx_serial (c : Nat) : (haltCtx c s).serial = s.serial := by
  unfold haltCtx; (try dsimp only); repeat' split
  all_goals simp
@[simp] theorem haltCtx_life (c : Nat) : (haltCtx c s).life = s.life := by
  unfold haltCtx; (try dsimp only); repeat' split
  all_goals simp
@[simp] theorem haltCtx_build (c : Nat) : (haltCtx c s).build = s.build := by
  unfold haltCtx; (try dsimp only); repeat' split
  all_goals simp
@[simp] theorem haltCtx_flash0 (c : Nat) : (haltCtx c s).flash0 = s.flash0 := by
  unfold haltCtx; (try dsimp only); repeat' split
  all_goals simp
@[simp] theorem haltCtx_flash1 (c : Nat) : (haltCtx c s).flash1 = s.flash1 := by
  unfold haltCtx; (try dsimp only); repeat' split
  all_goals simp
@[simp] theorem haltCtx_log (c : Nat) : (haltCtx c s).log = s.log := by
  unfold haltCtx; (try dsimp only); repeat' split
  all_goals simp
@[simp] theorem haltCtx_settings (c : Nat) : (haltCtx c s).settings = s.settings := by
  unfold haltCtx; (try dsimp only); repeat' split
  all_goals simp
@[simp] theorem haltCtx_bin (c : Nat) : (haltCtx c s).bin = s.bin := by
  unfold haltCtx; (try dsimp only); repeat' split
  all_goals simp
@[simp] theorem haltCtx_wafer (c : Nat) : (haltCtx c s).wafer = s.wafer := by
  unfold haltCtx; (try dsimp only); repeat' split
  all_goals simp
@[simp] theorem haltCtx_sites (c : Nat) : (haltCtx c s).sites = s.sites := by
  unfold haltCtx; (try dsimp only); repeat' split
  all_goals simp
@[simp] theorem haltCtx_dies (c : Nat) : (haltCtx c s).dies = s.dies := by
  unfold haltCtx; (try dsimp only); repeat' split
  all_goals simp
@[simp] theorem haltCtx_clusters (c : Nat) : (haltCtx c s).clusters = s.clusters := by
  unfold haltCtx; (try dsimp only); repeat' split
  all_goals simp
@[simp] theorem haltCtx_stores (c : Nat) : (haltCtx c s).stores = s.stores := by
  unfold haltCtx; (try dsimp only); repeat' split
  all_goals simp
@[simp] theorem haltCtx_mem (c : Nat) : (haltCtx c s).mem = s.mem := by
  unfold haltCtx; (try dsimp only); repeat' split
  all_goals simp
@[simp] theorem haltCtx_memPoison (c : Nat) : (haltCtx c s).memPoison = s.memPoison := by
  unfold haltCtx; (try dsimp only); repeat' split
  all_goals simp
@[simp] theorem haltCtx_memForms (c : Nat) : (haltCtx c s).memForms = s.memForms := by
  unfold haltCtx; (try dsimp only); repeat' split
  all_goals simp
@[simp] theorem haltCtx_owners (c : Nat) : (haltCtx c s).owners = s.owners := by
  unfold haltCtx; (try dsimp only); repeat' split
  all_goals simp
@[simp] theorem haltCtx_scrubs (c : Nat) : (haltCtx c s).scrubs = s.scrubs := by
  unfold haltCtx; (try dsimp only); repeat' split
  all_goals simp
@[simp] theorem haltCtx_parts (c : Nat) : (haltCtx c s).parts = s.parts := by
  unfold haltCtx; (try dsimp only); repeat' split
  all_goals simp
@[simp] theorem haltCtx_seqs (c : Nat) : (haltCtx c s).seqs = s.seqs := by
  unfold haltCtx; (try dsimp only); repeat' split
  all_goals simp
@[simp] theorem haltCtx_dir (c : Nat) : (haltCtx c s).dir = s.dir := by
  unfold haltCtx; (try dsimp only); repeat' split
  all_goals simp
@[simp] theorem haltCtx_sq (c : Nat) : (haltCtx c s).sq = s.sq := by
  unfold haltCtx; (try dsimp only); repeat' split
  all_goals simp
@[simp] theorem haltCtx_cq (c : Nat) : (haltCtx c s).cq = s.cq := by
  unfold haltCtx; (try dsimp only); repeat' split
  all_goals simp
@[simp] theorem haltCtx_tq (c : Nat) : (haltCtx c s).tq = s.tq := by
  unfold haltCtx; (try dsimp only); repeat' split
  all_goals simp
@[simp] theorem haltCtx_heldRecs (c : Nat) : (haltCtx c s).heldRecs = s.heldRecs := by
  unfold haltCtx; (try dsimp only); repeat' split
  all_goals simp
@[simp] theorem haltCtx_link (c : Nat) : (haltCtx c s).link = s.link := by
  unfold haltCtx; (try dsimp only); repeat' split
  all_goals simp
@[simp] theorem haltCtx_marks (c : Nat) : (haltCtx c s).marks = s.marks := by
  unfold haltCtx; (try dsimp only); repeat' split
  all_goals simp
@[simp] theorem haltCtx_net (c : Nat) : (haltCtx c s).net = s.net := by
  unfold haltCtx; (try dsimp only); repeat' split
  all_goals simp
@[simp] theorem haltCtx_chans (c : Nat) : (haltCtx c s).chans = s.chans := by
  unfold haltCtx; (try dsimp only); repeat' split
  all_goals simp
@[simp] theorem haltCtx_dimmWork (c : Nat) : (haltCtx c s).dimmWork = s.dimmWork := by
  unfold haltCtx; (try dsimp only); repeat' split
  all_goals simp
@[simp] theorem haltCtx_dimm (c : Nat) : (haltCtx c s).dimm = s.dimm := by
  unfold haltCtx; (try dsimp only); repeat' split
  all_goals simp
@[simp] theorem haltCtx_dimmBad (c : Nat) : (haltCtx c s).dimmBad = s.dimmBad := by
  unfold haltCtx; (try dsimp only); repeat' split
  all_goals simp
@[simp] theorem haltCtx_reck (c : Nat) : (haltCtx c s).reck = s.reck := by
  unfold haltCtx; (try dsimp only); repeat' split
  all_goals simp
@[simp] theorem haltCtx_power (c : Nat) : (haltCtx c s).power = s.power := by
  unfold haltCtx; (try dsimp only); repeat' split
  all_goals simp
@[simp] theorem haltCtx_errs (c : Nat) : (haltCtx c s).errs = s.errs := by
  unfold haltCtx; (try dsimp only); repeat' split
  all_goals simp
@[simp] theorem haltCtx_mgmt (c : Nat) : (haltCtx c s).mgmt = s.mgmt := by
  unfold haltCtx; (try dsimp only); repeat' split
  all_goals simp
@[simp] theorem haltCtx_pair (c : Nat) : (haltCtx c s).pair = s.pair := by
  unfold haltCtx; (try dsimp only); repeat' split
  all_goals simp
@[simp] theorem haltCtx_update (c : Nat) : (haltCtx c s).update = s.update := by
  unfold haltCtx; (try dsimp only); repeat' split
  all_goals simp

/-! ### recordEvent -/

@[simp] theorem recordEvent_pending (r : EventRecord) : (recordEvent r s).pending = s.pending := by
  unfold recordEvent; (try dsimp only); repeat' split
  all_goals simp
@[simp] theorem recordEvent_freeIx (r : EventRecord) : (recordEvent r s).freeIx = s.freeIx := by
  unfold recordEvent; (try dsimp only); repeat' split
  all_goals simp
@[simp] theorem recordEvent_serial (r : EventRecord) : (recordEvent r s).serial = s.serial := by
  unfold recordEvent; (try dsimp only); repeat' split
  all_goals simp
@[simp] theorem recordEvent_life (r : EventRecord) : (recordEvent r s).life = s.life := by
  unfold recordEvent; (try dsimp only); repeat' split
  all_goals simp
@[simp] theorem recordEvent_build (r : EventRecord) : (recordEvent r s).build = s.build := by
  unfold recordEvent; (try dsimp only); repeat' split
  all_goals simp
@[simp] theorem recordEvent_flash0 (r : EventRecord) : (recordEvent r s).flash0 = s.flash0 := by
  unfold recordEvent; (try dsimp only); repeat' split
  all_goals simp
@[simp] theorem recordEvent_flash1 (r : EventRecord) : (recordEvent r s).flash1 = s.flash1 := by
  unfold recordEvent; (try dsimp only); repeat' split
  all_goals simp
@[simp] theorem recordEvent_settings (r : EventRecord) : (recordEvent r s).settings = s.settings := by
  unfold recordEvent; (try dsimp only); repeat' split
  all_goals simp
@[simp] theorem recordEvent_bin (r : EventRecord) : (recordEvent r s).bin = s.bin := by
  unfold recordEvent; (try dsimp only); repeat' split
  all_goals simp
@[simp] theorem recordEvent_wafer (r : EventRecord) : (recordEvent r s).wafer = s.wafer := by
  unfold recordEvent; (try dsimp only); repeat' split
  all_goals simp
@[simp] theorem recordEvent_sites (r : EventRecord) : (recordEvent r s).sites = s.sites := by
  unfold recordEvent; (try dsimp only); repeat' split
  all_goals simp
@[simp] theorem recordEvent_dies (r : EventRecord) : (recordEvent r s).dies = s.dies := by
  unfold recordEvent; (try dsimp only); repeat' split
  all_goals simp
@[simp] theorem recordEvent_clusters (r : EventRecord) : (recordEvent r s).clusters = s.clusters := by
  unfold recordEvent; (try dsimp only); repeat' split
  all_goals simp
@[simp] theorem recordEvent_stores (r : EventRecord) : (recordEvent r s).stores = s.stores := by
  unfold recordEvent; (try dsimp only); repeat' split
  all_goals simp
@[simp] theorem recordEvent_mem (r : EventRecord) : (recordEvent r s).mem = s.mem := by
  unfold recordEvent; (try dsimp only); repeat' split
  all_goals simp
@[simp] theorem recordEvent_memPoison (r : EventRecord) : (recordEvent r s).memPoison = s.memPoison := by
  unfold recordEvent; (try dsimp only); repeat' split
  all_goals simp
@[simp] theorem recordEvent_memForms (r : EventRecord) : (recordEvent r s).memForms = s.memForms := by
  unfold recordEvent; (try dsimp only); repeat' split
  all_goals simp
@[simp] theorem recordEvent_owners (r : EventRecord) : (recordEvent r s).owners = s.owners := by
  unfold recordEvent; (try dsimp only); repeat' split
  all_goals simp
@[simp] theorem recordEvent_scrubs (r : EventRecord) : (recordEvent r s).scrubs = s.scrubs := by
  unfold recordEvent; (try dsimp only); repeat' split
  all_goals simp
@[simp] theorem recordEvent_parts (r : EventRecord) : (recordEvent r s).parts = s.parts := by
  unfold recordEvent; (try dsimp only); repeat' split
  all_goals simp
@[simp] theorem recordEvent_ctxs (r : EventRecord) : (recordEvent r s).ctxs = s.ctxs := by
  unfold recordEvent; (try dsimp only); repeat' split
  all_goals simp
@[simp] theorem recordEvent_seqs (r : EventRecord) : (recordEvent r s).seqs = s.seqs := by
  unfold recordEvent; (try dsimp only); repeat' split
  all_goals simp
@[simp] theorem recordEvent_dir (r : EventRecord) : (recordEvent r s).dir = s.dir := by
  unfold recordEvent; (try dsimp only); repeat' split
  all_goals simp
@[simp] theorem recordEvent_sq (r : EventRecord) : (recordEvent r s).sq = s.sq := by
  unfold recordEvent; (try dsimp only); repeat' split
  all_goals simp
@[simp] theorem recordEvent_cq (r : EventRecord) : (recordEvent r s).cq = s.cq := by
  unfold recordEvent; (try dsimp only); repeat' split
  all_goals simp
@[simp] theorem recordEvent_tq (r : EventRecord) : (recordEvent r s).tq = s.tq := by
  unfold recordEvent; (try dsimp only); repeat' split
  all_goals simp
@[simp] theorem recordEvent_heldRecs (r : EventRecord) : (recordEvent r s).heldRecs = s.heldRecs := by
  unfold recordEvent; (try dsimp only); repeat' split
  all_goals simp
@[simp] theorem recordEvent_fns (r : EventRecord) : (recordEvent r s).fns = s.fns := by
  unfold recordEvent; (try dsimp only); repeat' split
  all_goals simp
@[simp] theorem recordEvent_link (r : EventRecord) : (recordEvent r s).link = s.link := by
  unfold recordEvent; (try dsimp only); repeat' split
  all_goals simp
@[simp] theorem recordEvent_hostOut (r : EventRecord) : (recordEvent r s).hostOut = s.hostOut := by
  unfold recordEvent; (try dsimp only); repeat' split
  all_goals simp
@[simp] theorem recordEvent_marks (r : EventRecord) : (recordEvent r s).marks = s.marks := by
  unfold recordEvent; (try dsimp only); repeat' split
  all_goals simp
@[simp] theorem recordEvent_net (r : EventRecord) : (recordEvent r s).net = s.net := by
  unfold recordEvent; (try dsimp only); repeat' split
  all_goals simp
@[simp] theorem recordEvent_chans (r : EventRecord) : (recordEvent r s).chans = s.chans := by
  unfold recordEvent; (try dsimp only); repeat' split
  all_goals simp
@[simp] theorem recordEvent_dimmWork (r : EventRecord) : (recordEvent r s).dimmWork = s.dimmWork := by
  unfold recordEvent; (try dsimp only); repeat' split
  all_goals simp
@[simp] theorem recordEvent_dimm (r : EventRecord) : (recordEvent r s).dimm = s.dimm := by
  unfold recordEvent; (try dsimp only); repeat' split
  all_goals simp
@[simp] theorem recordEvent_dimmBad (r : EventRecord) : (recordEvent r s).dimmBad = s.dimmBad := by
  unfold recordEvent; (try dsimp only); repeat' split
  all_goals simp
@[simp] theorem recordEvent_reck (r : EventRecord) : (recordEvent r s).reck = s.reck := by
  unfold recordEvent; (try dsimp only); repeat' split
  all_goals simp
@[simp] theorem recordEvent_power (r : EventRecord) : (recordEvent r s).power = s.power := by
  unfold recordEvent; (try dsimp only); repeat' split
  all_goals simp
@[simp] theorem recordEvent_pair (r : EventRecord) : (recordEvent r s).pair = s.pair := by
  unfold recordEvent; (try dsimp only); repeat' split
  all_goals simp
@[simp] theorem recordEvent_update (r : EventRecord) : (recordEvent r s).update = s.update := by
  unfold recordEvent; (try dsimp only); repeat' split
  all_goals simp

/-! ### detect -/

@[simp] theorem detect_pending (cls : Byte) (u : UnitRef) (m : Met) : (detect cls u m s).pending = s.pending := by
  unfold detect; (try dsimp only); repeat' split
  all_goals simp
@[simp] theorem detect_freeIx (cls : Byte) (u : UnitRef) (m : Met) : (detect cls u m s).freeIx = s.freeIx := by
  unfold detect; (try dsimp only); repeat' split
  all_goals simp
@[simp] theorem detect_serial (cls : Byte) (u : UnitRef) (m : Met) : (detect cls u m s).serial = s.serial := by
  unfold detect; (try dsimp only); repeat' split
  all_goals simp
@[simp] theorem detect_life (cls : Byte) (u : UnitRef) (m : Met) : (detect cls u m s).life = s.life := by
  unfold detect; (try dsimp only); repeat' split
  all_goals simp
@[simp] theorem detect_build (cls : Byte) (u : UnitRef) (m : Met) : (detect cls u m s).build = s.build := by
  unfold detect; (try dsimp only); repeat' split
  all_goals simp
@[simp] theorem detect_flash0 (cls : Byte) (u : UnitRef) (m : Met) : (detect cls u m s).flash0 = s.flash0 := by
  unfold detect; (try dsimp only); repeat' split
  all_goals simp
@[simp] theorem detect_flash1 (cls : Byte) (u : UnitRef) (m : Met) : (detect cls u m s).flash1 = s.flash1 := by
  unfold detect; (try dsimp only); repeat' split
  all_goals simp
@[simp] theorem detect_settings (cls : Byte) (u : UnitRef) (m : Met) : (detect cls u m s).settings = s.settings := by
  unfold detect; (try dsimp only); repeat' split
  all_goals simp
@[simp] theorem detect_bin (cls : Byte) (u : UnitRef) (m : Met) : (detect cls u m s).bin = s.bin := by
  unfold detect; (try dsimp only); repeat' split
  all_goals simp
@[simp] theorem detect_wafer (cls : Byte) (u : UnitRef) (m : Met) : (detect cls u m s).wafer = s.wafer := by
  unfold detect; (try dsimp only); repeat' split
  all_goals simp
@[simp] theorem detect_sites (cls : Byte) (u : UnitRef) (m : Met) : (detect cls u m s).sites = s.sites := by
  unfold detect; (try dsimp only); repeat' split
  all_goals simp
@[simp] theorem detect_clusters (cls : Byte) (u : UnitRef) (m : Met) : (detect cls u m s).clusters = s.clusters := by
  unfold detect; (try dsimp only); repeat' split
  all_goals simp
@[simp] theorem detect_stores (cls : Byte) (u : UnitRef) (m : Met) : (detect cls u m s).stores = s.stores := by
  unfold detect; (try dsimp only); repeat' split
  all_goals simp
@[simp] theorem detect_mem (cls : Byte) (u : UnitRef) (m : Met) : (detect cls u m s).mem = s.mem := by
  unfold detect; (try dsimp only); repeat' split
  all_goals simp
@[simp] theorem detect_memPoison (cls : Byte) (u : UnitRef) (m : Met) : (detect cls u m s).memPoison = s.memPoison := by
  unfold detect; (try dsimp only); repeat' split
  all_goals simp
@[simp] theorem detect_memForms (cls : Byte) (u : UnitRef) (m : Met) : (detect cls u m s).memForms = s.memForms := by
  unfold detect; (try dsimp only); repeat' split
  all_goals simp
@[simp] theorem detect_owners (cls : Byte) (u : UnitRef) (m : Met) : (detect cls u m s).owners = s.owners := by
  unfold detect; (try dsimp only); repeat' split
  all_goals simp
@[simp] theorem detect_scrubs (cls : Byte) (u : UnitRef) (m : Met) : (detect cls u m s).scrubs = s.scrubs := by
  unfold detect; (try dsimp only); repeat' split
  all_goals simp
@[simp] theorem detect_parts (cls : Byte) (u : UnitRef) (m : Met) : (detect cls u m s).parts = s.parts := by
  unfold detect; (try dsimp only); repeat' split
  all_goals simp
@[simp] theorem detect_ctxs (cls : Byte) (u : UnitRef) (m : Met) : (detect cls u m s).ctxs = s.ctxs := by
  unfold detect; (try dsimp only); repeat' split
  all_goals simp
@[simp] theorem detect_seqs (cls : Byte) (u : UnitRef) (m : Met) : (detect cls u m s).seqs = s.seqs := by
  unfold detect; (try dsimp only); repeat' split
  all_goals simp
@[simp] theorem detect_dir (cls : Byte) (u : UnitRef) (m : Met) : (detect cls u m s).dir = s.dir := by
  unfold detect; (try dsimp only); repeat' split
  all_goals simp
@[simp] theorem detect_sq (cls : Byte) (u : UnitRef) (m : Met) : (detect cls u m s).sq = s.sq := by
  unfold detect; (try dsimp only); repeat' split
  all_goals simp
@[simp] theorem detect_cq (cls : Byte) (u : UnitRef) (m : Met) : (detect cls u m s).cq = s.cq := by
  unfold detect; (try dsimp only); repeat' split
  all_goals simp
@[simp] theorem detect_tq (cls : Byte) (u : UnitRef) (m : Met) : (detect cls u m s).tq = s.tq := by
  unfold detect; (try dsimp only); repeat' split
  all_goals simp
@[simp] theorem detect_heldRecs (cls : Byte) (u : UnitRef) (m : Met) : (detect cls u m s).heldRecs = s.heldRecs := by
  unfold detect; (try dsimp only); repeat' split
  all_goals simp
@[simp] theorem detect_fns (cls : Byte) (u : UnitRef) (m : Met) : (detect cls u m s).fns = s.fns := by
  unfold detect; (try dsimp only); repeat' split
  all_goals simp
@[simp] theorem detect_link (cls : Byte) (u : UnitRef) (m : Met) : (detect cls u m s).link = s.link := by
  unfold detect; (try dsimp only); repeat' split
  all_goals simp
@[simp] theorem detect_hostOut (cls : Byte) (u : UnitRef) (m : Met) : (detect cls u m s).hostOut = s.hostOut := by
  unfold detect; (try dsimp only); repeat' split
  all_goals simp
@[simp] theorem detect_marks (cls : Byte) (u : UnitRef) (m : Met) : (detect cls u m s).marks = s.marks := by
  unfold detect; (try dsimp only); repeat' split
  all_goals simp
@[simp] theorem detect_net (cls : Byte) (u : UnitRef) (m : Met) : (detect cls u m s).net = s.net := by
  unfold detect; (try dsimp only); repeat' split
  all_goals simp
@[simp] theorem detect_chans (cls : Byte) (u : UnitRef) (m : Met) : (detect cls u m s).chans = s.chans := by
  unfold detect; (try dsimp only); repeat' split
  all_goals simp
@[simp] theorem detect_dimmWork (cls : Byte) (u : UnitRef) (m : Met) : (detect cls u m s).dimmWork = s.dimmWork := by
  unfold detect; (try dsimp only); repeat' split
  all_goals simp
@[simp] theorem detect_dimm (cls : Byte) (u : UnitRef) (m : Met) : (detect cls u m s).dimm = s.dimm := by
  unfold detect; (try dsimp only); repeat' split
  all_goals simp
@[simp] theorem detect_dimmBad (cls : Byte) (u : UnitRef) (m : Met) : (detect cls u m s).dimmBad = s.dimmBad := by
  unfold detect; (try dsimp only); repeat' split
  all_goals simp
@[simp] theorem detect_reck (cls : Byte) (u : UnitRef) (m : Met) : (detect cls u m s).reck = s.reck := by
  unfold detect; (try dsimp only); repeat' split
  all_goals simp
@[simp] theorem detect_power (cls : Byte) (u : UnitRef) (m : Met) : (detect cls u m s).power = s.power := by
  unfold detect; (try dsimp only); repeat' split
  all_goals simp
@[simp] theorem detect_pair (cls : Byte) (u : UnitRef) (m : Met) : (detect cls u m s).pair = s.pair := by
  unfold detect; (try dsimp only); repeat' split
  all_goals simp
@[simp] theorem detect_update (cls : Byte) (u : UnitRef) (m : Met) : (detect cls u m s).update = s.update := by
  unfold detect; (try dsimp only); repeat' split
  all_goals simp

/-! ### outcomeRecord -/

@[simp] theorem outcomeRecord_pending (t : TestRec) (outcome : Byte) (chartSeq : W32) : (outcomeRecord t outcome chartSeq s).pending = s.pending := by
  unfold outcomeRecord; (try dsimp only); repeat' split
  all_goals simp
@[simp] theorem outcomeRecord_freeIx (t : TestRec) (outcome : Byte) (chartSeq : W32) : (outcomeRecord t outcome chartSeq s).freeIx = s.freeIx := by
  unfold outcomeRecord; (try dsimp only); repeat' split
  all_goals simp
@[simp] theorem outcomeRecord_serial (t : TestRec) (outcome : Byte) (chartSeq : W32) : (outcomeRecord t outcome chartSeq s).serial = s.serial := by
  unfold outcomeRecord; (try dsimp only); repeat' split
  all_goals simp
@[simp] theorem outcomeRecord_life (t : TestRec) (outcome : Byte) (chartSeq : W32) : (outcomeRecord t outcome chartSeq s).life = s.life := by
  unfold outcomeRecord; (try dsimp only); repeat' split
  all_goals simp
@[simp] theorem outcomeRecord_build (t : TestRec) (outcome : Byte) (chartSeq : W32) : (outcomeRecord t outcome chartSeq s).build = s.build := by
  unfold outcomeRecord; (try dsimp only); repeat' split
  all_goals simp
@[simp] theorem outcomeRecord_flash0 (t : TestRec) (outcome : Byte) (chartSeq : W32) : (outcomeRecord t outcome chartSeq s).flash0 = s.flash0 := by
  unfold outcomeRecord; (try dsimp only); repeat' split
  all_goals simp
@[simp] theorem outcomeRecord_flash1 (t : TestRec) (outcome : Byte) (chartSeq : W32) : (outcomeRecord t outcome chartSeq s).flash1 = s.flash1 := by
  unfold outcomeRecord; (try dsimp only); repeat' split
  all_goals simp
@[simp] theorem outcomeRecord_settings (t : TestRec) (outcome : Byte) (chartSeq : W32) : (outcomeRecord t outcome chartSeq s).settings = s.settings := by
  unfold outcomeRecord; (try dsimp only); repeat' split
  all_goals simp
@[simp] theorem outcomeRecord_bin (t : TestRec) (outcome : Byte) (chartSeq : W32) : (outcomeRecord t outcome chartSeq s).bin = s.bin := by
  unfold outcomeRecord; (try dsimp only); repeat' split
  all_goals simp
@[simp] theorem outcomeRecord_wafer (t : TestRec) (outcome : Byte) (chartSeq : W32) : (outcomeRecord t outcome chartSeq s).wafer = s.wafer := by
  unfold outcomeRecord; (try dsimp only); repeat' split
  all_goals simp
@[simp] theorem outcomeRecord_sites (t : TestRec) (outcome : Byte) (chartSeq : W32) : (outcomeRecord t outcome chartSeq s).sites = s.sites := by
  unfold outcomeRecord; (try dsimp only); repeat' split
  all_goals simp
@[simp] theorem outcomeRecord_dies (t : TestRec) (outcome : Byte) (chartSeq : W32) : (outcomeRecord t outcome chartSeq s).dies = s.dies := by
  unfold outcomeRecord; (try dsimp only); repeat' split
  all_goals simp
@[simp] theorem outcomeRecord_clusters (t : TestRec) (outcome : Byte) (chartSeq : W32) : (outcomeRecord t outcome chartSeq s).clusters = s.clusters := by
  unfold outcomeRecord; (try dsimp only); repeat' split
  all_goals simp
@[simp] theorem outcomeRecord_stores (t : TestRec) (outcome : Byte) (chartSeq : W32) : (outcomeRecord t outcome chartSeq s).stores = s.stores := by
  unfold outcomeRecord; (try dsimp only); repeat' split
  all_goals simp
@[simp] theorem outcomeRecord_mem (t : TestRec) (outcome : Byte) (chartSeq : W32) : (outcomeRecord t outcome chartSeq s).mem = s.mem := by
  unfold outcomeRecord; (try dsimp only); repeat' split
  all_goals simp
@[simp] theorem outcomeRecord_memPoison (t : TestRec) (outcome : Byte) (chartSeq : W32) : (outcomeRecord t outcome chartSeq s).memPoison = s.memPoison := by
  unfold outcomeRecord; (try dsimp only); repeat' split
  all_goals simp
@[simp] theorem outcomeRecord_memForms (t : TestRec) (outcome : Byte) (chartSeq : W32) : (outcomeRecord t outcome chartSeq s).memForms = s.memForms := by
  unfold outcomeRecord; (try dsimp only); repeat' split
  all_goals simp
@[simp] theorem outcomeRecord_owners (t : TestRec) (outcome : Byte) (chartSeq : W32) : (outcomeRecord t outcome chartSeq s).owners = s.owners := by
  unfold outcomeRecord; (try dsimp only); repeat' split
  all_goals simp
@[simp] theorem outcomeRecord_scrubs (t : TestRec) (outcome : Byte) (chartSeq : W32) : (outcomeRecord t outcome chartSeq s).scrubs = s.scrubs := by
  unfold outcomeRecord; (try dsimp only); repeat' split
  all_goals simp
@[simp] theorem outcomeRecord_parts (t : TestRec) (outcome : Byte) (chartSeq : W32) : (outcomeRecord t outcome chartSeq s).parts = s.parts := by
  unfold outcomeRecord; (try dsimp only); repeat' split
  all_goals simp
@[simp] theorem outcomeRecord_ctxs (t : TestRec) (outcome : Byte) (chartSeq : W32) : (outcomeRecord t outcome chartSeq s).ctxs = s.ctxs := by
  unfold outcomeRecord; (try dsimp only); repeat' split
  all_goals simp
@[simp] theorem outcomeRecord_seqs (t : TestRec) (outcome : Byte) (chartSeq : W32) : (outcomeRecord t outcome chartSeq s).seqs = s.seqs := by
  unfold outcomeRecord; (try dsimp only); repeat' split
  all_goals simp
@[simp] theorem outcomeRecord_dir (t : TestRec) (outcome : Byte) (chartSeq : W32) : (outcomeRecord t outcome chartSeq s).dir = s.dir := by
  unfold outcomeRecord; (try dsimp only); repeat' split
  all_goals simp
@[simp] theorem outcomeRecord_sq (t : TestRec) (outcome : Byte) (chartSeq : W32) : (outcomeRecord t outcome chartSeq s).sq = s.sq := by
  unfold outcomeRecord; (try dsimp only); repeat' split
  all_goals simp
@[simp] theorem outcomeRecord_cq (t : TestRec) (outcome : Byte) (chartSeq : W32) : (outcomeRecord t outcome chartSeq s).cq = s.cq := by
  unfold outcomeRecord; (try dsimp only); repeat' split
  all_goals simp
@[simp] theorem outcomeRecord_tq (t : TestRec) (outcome : Byte) (chartSeq : W32) : (outcomeRecord t outcome chartSeq s).tq = s.tq := by
  unfold outcomeRecord; (try dsimp only); repeat' split
  all_goals simp
@[simp] theorem outcomeRecord_heldRecs (t : TestRec) (outcome : Byte) (chartSeq : W32) : (outcomeRecord t outcome chartSeq s).heldRecs = s.heldRecs := by
  unfold outcomeRecord; (try dsimp only); repeat' split
  all_goals simp
@[simp] theorem outcomeRecord_fns (t : TestRec) (outcome : Byte) (chartSeq : W32) : (outcomeRecord t outcome chartSeq s).fns = s.fns := by
  unfold outcomeRecord; (try dsimp only); repeat' split
  all_goals simp
@[simp] theorem outcomeRecord_link (t : TestRec) (outcome : Byte) (chartSeq : W32) : (outcomeRecord t outcome chartSeq s).link = s.link := by
  unfold outcomeRecord; (try dsimp only); repeat' split
  all_goals simp
@[simp] theorem outcomeRecord_hostOut (t : TestRec) (outcome : Byte) (chartSeq : W32) : (outcomeRecord t outcome chartSeq s).hostOut = s.hostOut := by
  unfold outcomeRecord; (try dsimp only); repeat' split
  all_goals simp
@[simp] theorem outcomeRecord_marks (t : TestRec) (outcome : Byte) (chartSeq : W32) : (outcomeRecord t outcome chartSeq s).marks = s.marks := by
  unfold outcomeRecord; (try dsimp only); repeat' split
  all_goals simp
@[simp] theorem outcomeRecord_net (t : TestRec) (outcome : Byte) (chartSeq : W32) : (outcomeRecord t outcome chartSeq s).net = s.net := by
  unfold outcomeRecord; (try dsimp only); repeat' split
  all_goals simp
@[simp] theorem outcomeRecord_chans (t : TestRec) (outcome : Byte) (chartSeq : W32) : (outcomeRecord t outcome chartSeq s).chans = s.chans := by
  unfold outcomeRecord; (try dsimp only); repeat' split
  all_goals simp
@[simp] theorem outcomeRecord_dimmWork (t : TestRec) (outcome : Byte) (chartSeq : W32) : (outcomeRecord t outcome chartSeq s).dimmWork = s.dimmWork := by
  unfold outcomeRecord; (try dsimp only); repeat' split
  all_goals simp
@[simp] theorem outcomeRecord_dimm (t : TestRec) (outcome : Byte) (chartSeq : W32) : (outcomeRecord t outcome chartSeq s).dimm = s.dimm := by
  unfold outcomeRecord; (try dsimp only); repeat' split
  all_goals simp
@[simp] theorem outcomeRecord_dimmBad (t : TestRec) (outcome : Byte) (chartSeq : W32) : (outcomeRecord t outcome chartSeq s).dimmBad = s.dimmBad := by
  unfold outcomeRecord; (try dsimp only); repeat' split
  all_goals simp
@[simp] theorem outcomeRecord_reck (t : TestRec) (outcome : Byte) (chartSeq : W32) : (outcomeRecord t outcome chartSeq s).reck = s.reck := by
  unfold outcomeRecord; (try dsimp only); repeat' split
  all_goals simp
@[simp] theorem outcomeRecord_power (t : TestRec) (outcome : Byte) (chartSeq : W32) : (outcomeRecord t outcome chartSeq s).power = s.power := by
  unfold outcomeRecord; (try dsimp only); repeat' split
  all_goals simp
@[simp] theorem outcomeRecord_pair (t : TestRec) (outcome : Byte) (chartSeq : W32) : (outcomeRecord t outcome chartSeq s).pair = s.pair := by
  unfold outcomeRecord; (try dsimp only); repeat' split
  all_goals simp
@[simp] theorem outcomeRecord_update (t : TestRec) (outcome : Byte) (chartSeq : W32) : (outcomeRecord t outcome chartSeq s).update = s.update := by
  unfold outcomeRecord; (try dsimp only); repeat' split
  all_goals simp

/-! ### failStep -/

@[simp] theorem failStep_pending (status : Byte) (p : Nat) : (failStep status p s).pending = s.pending := rfl
@[simp] theorem failStep_freeIx (status : Byte) (p : Nat) : (failStep status p s).freeIx = s.freeIx := rfl
@[simp] theorem failStep_serial (status : Byte) (p : Nat) : (failStep status p s).serial = s.serial := rfl
@[simp] theorem failStep_life (status : Byte) (p : Nat) : (failStep status p s).life = s.life := rfl
@[simp] theorem failStep_build (status : Byte) (p : Nat) : (failStep status p s).build = s.build := rfl
@[simp] theorem failStep_flash0 (status : Byte) (p : Nat) : (failStep status p s).flash0 = s.flash0 := rfl
@[simp] theorem failStep_flash1 (status : Byte) (p : Nat) : (failStep status p s).flash1 = s.flash1 := rfl
@[simp] theorem failStep_log (status : Byte) (p : Nat) : (failStep status p s).log = s.log := rfl
@[simp] theorem failStep_settings (status : Byte) (p : Nat) : (failStep status p s).settings = s.settings := rfl
@[simp] theorem failStep_bin (status : Byte) (p : Nat) : (failStep status p s).bin = s.bin := rfl
@[simp] theorem failStep_wafer (status : Byte) (p : Nat) : (failStep status p s).wafer = s.wafer := rfl
@[simp] theorem failStep_sites (status : Byte) (p : Nat) : (failStep status p s).sites = s.sites := rfl
@[simp] theorem failStep_dies (status : Byte) (p : Nat) : (failStep status p s).dies = s.dies := rfl
@[simp] theorem failStep_clusters (status : Byte) (p : Nat) : (failStep status p s).clusters = s.clusters := rfl
@[simp] theorem failStep_stores (status : Byte) (p : Nat) : (failStep status p s).stores = s.stores := rfl
@[simp] theorem failStep_mem (status : Byte) (p : Nat) : (failStep status p s).mem = s.mem := rfl
@[simp] theorem failStep_memPoison (status : Byte) (p : Nat) : (failStep status p s).memPoison = s.memPoison := rfl
@[simp] theorem failStep_memForms (status : Byte) (p : Nat) : (failStep status p s).memForms = s.memForms := rfl
@[simp] theorem failStep_owners (status : Byte) (p : Nat) : (failStep status p s).owners = s.owners := rfl
@[simp] theorem failStep_scrubs (status : Byte) (p : Nat) : (failStep status p s).scrubs = s.scrubs := rfl
@[simp] theorem failStep_ctxs (status : Byte) (p : Nat) : (failStep status p s).ctxs = s.ctxs := rfl
@[simp] theorem failStep_seqs (status : Byte) (p : Nat) : (failStep status p s).seqs = s.seqs := rfl
@[simp] theorem failStep_dir (status : Byte) (p : Nat) : (failStep status p s).dir = s.dir := rfl
@[simp] theorem failStep_sq (status : Byte) (p : Nat) : (failStep status p s).sq = s.sq := rfl
@[simp] theorem failStep_cq (status : Byte) (p : Nat) : (failStep status p s).cq = s.cq := rfl
@[simp] theorem failStep_tq (status : Byte) (p : Nat) : (failStep status p s).tq = s.tq := rfl
@[simp] theorem failStep_heldRecs (status : Byte) (p : Nat) : (failStep status p s).heldRecs = s.heldRecs := rfl
@[simp] theorem failStep_fns (status : Byte) (p : Nat) : (failStep status p s).fns = s.fns := rfl
@[simp] theorem failStep_link (status : Byte) (p : Nat) : (failStep status p s).link = s.link := rfl
@[simp] theorem failStep_hostOut (status : Byte) (p : Nat) : (failStep status p s).hostOut = s.hostOut := rfl
@[simp] theorem failStep_marks (status : Byte) (p : Nat) : (failStep status p s).marks = s.marks := rfl
@[simp] theorem failStep_net (status : Byte) (p : Nat) : (failStep status p s).net = s.net := rfl
@[simp] theorem failStep_chans (status : Byte) (p : Nat) : (failStep status p s).chans = s.chans := rfl
@[simp] theorem failStep_dimmWork (status : Byte) (p : Nat) : (failStep status p s).dimmWork = s.dimmWork := rfl
@[simp] theorem failStep_dimm (status : Byte) (p : Nat) : (failStep status p s).dimm = s.dimm := rfl
@[simp] theorem failStep_dimmBad (status : Byte) (p : Nat) : (failStep status p s).dimmBad = s.dimmBad := rfl
@[simp] theorem failStep_reck (status : Byte) (p : Nat) : (failStep status p s).reck = s.reck := rfl
@[simp] theorem failStep_power (status : Byte) (p : Nat) : (failStep status p s).power = s.power := rfl
@[simp] theorem failStep_errs (status : Byte) (p : Nat) : (failStep status p s).errs = s.errs := rfl
@[simp] theorem failStep_mgmt (status : Byte) (p : Nat) : (failStep status p s).mgmt = s.mgmt := rfl
@[simp] theorem failStep_pair (status : Byte) (p : Nat) : (failStep status p s).pair = s.pair := rfl
@[simp] theorem failStep_update (status : Byte) (p : Nat) : (failStep status p s).update = s.update := rfl

/-! ### denyStep -/

@[simp] theorem denyStep_pending (p : Nat) : (denyStep p s).pending = s.pending := rfl
@[simp] theorem denyStep_freeIx (p : Nat) : (denyStep p s).freeIx = s.freeIx := rfl
@[simp] theorem denyStep_serial (p : Nat) : (denyStep p s).serial = s.serial := rfl
@[simp] theorem denyStep_life (p : Nat) : (denyStep p s).life = s.life := rfl
@[simp] theorem denyStep_build (p : Nat) : (denyStep p s).build = s.build := rfl
@[simp] theorem denyStep_flash0 (p : Nat) : (denyStep p s).flash0 = s.flash0 := rfl
@[simp] theorem denyStep_flash1 (p : Nat) : (denyStep p s).flash1 = s.flash1 := rfl
@[simp] theorem denyStep_log (p : Nat) : (denyStep p s).log = s.log := rfl
@[simp] theorem denyStep_settings (p : Nat) : (denyStep p s).settings = s.settings := rfl
@[simp] theorem denyStep_bin (p : Nat) : (denyStep p s).bin = s.bin := rfl
@[simp] theorem denyStep_wafer (p : Nat) : (denyStep p s).wafer = s.wafer := rfl
@[simp] theorem denyStep_sites (p : Nat) : (denyStep p s).sites = s.sites := rfl
@[simp] theorem denyStep_dies (p : Nat) : (denyStep p s).dies = s.dies := rfl
@[simp] theorem denyStep_clusters (p : Nat) : (denyStep p s).clusters = s.clusters := rfl
@[simp] theorem denyStep_stores (p : Nat) : (denyStep p s).stores = s.stores := rfl
@[simp] theorem denyStep_mem (p : Nat) : (denyStep p s).mem = s.mem := rfl
@[simp] theorem denyStep_memPoison (p : Nat) : (denyStep p s).memPoison = s.memPoison := rfl
@[simp] theorem denyStep_memForms (p : Nat) : (denyStep p s).memForms = s.memForms := rfl
@[simp] theorem denyStep_owners (p : Nat) : (denyStep p s).owners = s.owners := rfl
@[simp] theorem denyStep_scrubs (p : Nat) : (denyStep p s).scrubs = s.scrubs := rfl
@[simp] theorem denyStep_ctxs (p : Nat) : (denyStep p s).ctxs = s.ctxs := rfl
@[simp] theorem denyStep_seqs (p : Nat) : (denyStep p s).seqs = s.seqs := rfl
@[simp] theorem denyStep_dir (p : Nat) : (denyStep p s).dir = s.dir := rfl
@[simp] theorem denyStep_sq (p : Nat) : (denyStep p s).sq = s.sq := rfl
@[simp] theorem denyStep_cq (p : Nat) : (denyStep p s).cq = s.cq := rfl
@[simp] theorem denyStep_tq (p : Nat) : (denyStep p s).tq = s.tq := rfl
@[simp] theorem denyStep_heldRecs (p : Nat) : (denyStep p s).heldRecs = s.heldRecs := rfl
@[simp] theorem denyStep_fns (p : Nat) : (denyStep p s).fns = s.fns := rfl
@[simp] theorem denyStep_link (p : Nat) : (denyStep p s).link = s.link := rfl
@[simp] theorem denyStep_hostOut (p : Nat) : (denyStep p s).hostOut = s.hostOut := rfl
@[simp] theorem denyStep_marks (p : Nat) : (denyStep p s).marks = s.marks := rfl
@[simp] theorem denyStep_net (p : Nat) : (denyStep p s).net = s.net := rfl
@[simp] theorem denyStep_chans (p : Nat) : (denyStep p s).chans = s.chans := rfl
@[simp] theorem denyStep_dimmWork (p : Nat) : (denyStep p s).dimmWork = s.dimmWork := rfl
@[simp] theorem denyStep_dimm (p : Nat) : (denyStep p s).dimm = s.dimm := rfl
@[simp] theorem denyStep_dimmBad (p : Nat) : (denyStep p s).dimmBad = s.dimmBad := rfl
@[simp] theorem denyStep_reck (p : Nat) : (denyStep p s).reck = s.reck := rfl
@[simp] theorem denyStep_power (p : Nat) : (denyStep p s).power = s.power := rfl
@[simp] theorem denyStep_errs (p : Nat) : (denyStep p s).errs = s.errs := rfl
@[simp] theorem denyStep_mgmt (p : Nat) : (denyStep p s).mgmt = s.mgmt := rfl
@[simp] theorem denyStep_pair (p : Nat) : (denyStep p s).pair = s.pair := rfl
@[simp] theorem denyStep_update (p : Nat) : (denyStep p s).update = s.update := rfl

/-! ### stepError -/

@[simp] theorem stepError_pending (cls : Byte) (u : UnitRef) (p : Nat) : (stepError cls u p s).pending = s.pending := by
  unfold stepError; (try dsimp only); repeat' split
  all_goals simp
@[simp] theorem stepError_freeIx (cls : Byte) (u : UnitRef) (p : Nat) : (stepError cls u p s).freeIx = s.freeIx := by
  unfold stepError; (try dsimp only); repeat' split
  all_goals simp
@[simp] theorem stepError_serial (cls : Byte) (u : UnitRef) (p : Nat) : (stepError cls u p s).serial = s.serial := by
  unfold stepError; (try dsimp only); repeat' split
  all_goals simp
@[simp] theorem stepError_life (cls : Byte) (u : UnitRef) (p : Nat) : (stepError cls u p s).life = s.life := by
  unfold stepError; (try dsimp only); repeat' split
  all_goals simp
@[simp] theorem stepError_build (cls : Byte) (u : UnitRef) (p : Nat) : (stepError cls u p s).build = s.build := by
  unfold stepError; (try dsimp only); repeat' split
  all_goals simp
@[simp] theorem stepError_flash0 (cls : Byte) (u : UnitRef) (p : Nat) : (stepError cls u p s).flash0 = s.flash0 := by
  unfold stepError; (try dsimp only); repeat' split
  all_goals simp
@[simp] theorem stepError_flash1 (cls : Byte) (u : UnitRef) (p : Nat) : (stepError cls u p s).flash1 = s.flash1 := by
  unfold stepError; (try dsimp only); repeat' split
  all_goals simp
@[simp] theorem stepError_settings (cls : Byte) (u : UnitRef) (p : Nat) : (stepError cls u p s).settings = s.settings := by
  unfold stepError; (try dsimp only); repeat' split
  all_goals simp
@[simp] theorem stepError_bin (cls : Byte) (u : UnitRef) (p : Nat) : (stepError cls u p s).bin = s.bin := by
  unfold stepError; (try dsimp only); repeat' split
  all_goals simp
@[simp] theorem stepError_wafer (cls : Byte) (u : UnitRef) (p : Nat) : (stepError cls u p s).wafer = s.wafer := by
  unfold stepError; (try dsimp only); repeat' split
  all_goals simp
@[simp] theorem stepError_sites (cls : Byte) (u : UnitRef) (p : Nat) : (stepError cls u p s).sites = s.sites := by
  unfold stepError; (try dsimp only); repeat' split
  all_goals simp
@[simp] theorem stepError_clusters (cls : Byte) (u : UnitRef) (p : Nat) : (stepError cls u p s).clusters = s.clusters := by
  unfold stepError; (try dsimp only); repeat' split
  all_goals simp
@[simp] theorem stepError_stores (cls : Byte) (u : UnitRef) (p : Nat) : (stepError cls u p s).stores = s.stores := by
  unfold stepError; (try dsimp only); repeat' split
  all_goals simp
@[simp] theorem stepError_mem (cls : Byte) (u : UnitRef) (p : Nat) : (stepError cls u p s).mem = s.mem := by
  unfold stepError; (try dsimp only); repeat' split
  all_goals simp
@[simp] theorem stepError_memPoison (cls : Byte) (u : UnitRef) (p : Nat) : (stepError cls u p s).memPoison = s.memPoison := by
  unfold stepError; (try dsimp only); repeat' split
  all_goals simp
@[simp] theorem stepError_memForms (cls : Byte) (u : UnitRef) (p : Nat) : (stepError cls u p s).memForms = s.memForms := by
  unfold stepError; (try dsimp only); repeat' split
  all_goals simp
@[simp] theorem stepError_owners (cls : Byte) (u : UnitRef) (p : Nat) : (stepError cls u p s).owners = s.owners := by
  unfold stepError; (try dsimp only); repeat' split
  all_goals simp
@[simp] theorem stepError_scrubs (cls : Byte) (u : UnitRef) (p : Nat) : (stepError cls u p s).scrubs = s.scrubs := by
  unfold stepError; (try dsimp only); repeat' split
  all_goals simp
@[simp] theorem stepError_seqs (cls : Byte) (u : UnitRef) (p : Nat) : (stepError cls u p s).seqs = s.seqs := by
  unfold stepError; (try dsimp only); repeat' split
  all_goals simp
@[simp] theorem stepError_dir (cls : Byte) (u : UnitRef) (p : Nat) : (stepError cls u p s).dir = s.dir := by
  unfold stepError; (try dsimp only); repeat' split
  all_goals simp
@[simp] theorem stepError_sq (cls : Byte) (u : UnitRef) (p : Nat) : (stepError cls u p s).sq = s.sq := by
  unfold stepError; (try dsimp only); repeat' split
  all_goals simp
@[simp] theorem stepError_cq (cls : Byte) (u : UnitRef) (p : Nat) : (stepError cls u p s).cq = s.cq := by
  unfold stepError; (try dsimp only); repeat' split
  all_goals simp
@[simp] theorem stepError_tq (cls : Byte) (u : UnitRef) (p : Nat) : (stepError cls u p s).tq = s.tq := by
  unfold stepError; (try dsimp only); repeat' split
  all_goals simp
@[simp] theorem stepError_heldRecs (cls : Byte) (u : UnitRef) (p : Nat) : (stepError cls u p s).heldRecs = s.heldRecs := by
  unfold stepError; (try dsimp only); repeat' split
  all_goals simp
@[simp] theorem stepError_fns (cls : Byte) (u : UnitRef) (p : Nat) : (stepError cls u p s).fns = s.fns := by
  unfold stepError; (try dsimp only); repeat' split
  all_goals simp
@[simp] theorem stepError_link (cls : Byte) (u : UnitRef) (p : Nat) : (stepError cls u p s).link = s.link := by
  unfold stepError; (try dsimp only); repeat' split
  all_goals simp
@[simp] theorem stepError_hostOut (cls : Byte) (u : UnitRef) (p : Nat) : (stepError cls u p s).hostOut = s.hostOut := by
  unfold stepError; (try dsimp only); repeat' split
  all_goals simp
@[simp] theorem stepError_marks (cls : Byte) (u : UnitRef) (p : Nat) : (stepError cls u p s).marks = s.marks := by
  unfold stepError; (try dsimp only); repeat' split
  all_goals simp
@[simp] theorem stepError_net (cls : Byte) (u : UnitRef) (p : Nat) : (stepError cls u p s).net = s.net := by
  unfold stepError; (try dsimp only); repeat' split
  all_goals simp
@[simp] theorem stepError_chans (cls : Byte) (u : UnitRef) (p : Nat) : (stepError cls u p s).chans = s.chans := by
  unfold stepError; (try dsimp only); repeat' split
  all_goals simp
@[simp] theorem stepError_dimmWork (cls : Byte) (u : UnitRef) (p : Nat) : (stepError cls u p s).dimmWork = s.dimmWork := by
  unfold stepError; (try dsimp only); repeat' split
  all_goals simp
@[simp] theorem stepError_dimm (cls : Byte) (u : UnitRef) (p : Nat) : (stepError cls u p s).dimm = s.dimm := by
  unfold stepError; (try dsimp only); repeat' split
  all_goals simp
@[simp] theorem stepError_dimmBad (cls : Byte) (u : UnitRef) (p : Nat) : (stepError cls u p s).dimmBad = s.dimmBad := by
  unfold stepError; (try dsimp only); repeat' split
  all_goals simp
@[simp] theorem stepError_reck (cls : Byte) (u : UnitRef) (p : Nat) : (stepError cls u p s).reck = s.reck := by
  unfold stepError; (try dsimp only); repeat' split
  all_goals simp
@[simp] theorem stepError_power (cls : Byte) (u : UnitRef) (p : Nat) : (stepError cls u p s).power = s.power := by
  unfold stepError; (try dsimp only); repeat' split
  all_goals simp
@[simp] theorem stepError_pair (cls : Byte) (u : UnitRef) (p : Nat) : (stepError cls u p s).pair = s.pair := by
  unfold stepError; (try dsimp only); repeat' split
  all_goals simp
@[simp] theorem stepError_update (cls : Byte) (u : UnitRef) (p : Nat) : (stepError cls u p s).update = s.update := by
  unfold stepError; (try dsimp only); repeat' split
  all_goals simp

/-! ### chartWrite -/

@[simp] theorem chartWrite_pending (source : Byte) (u : UnitRef) (action cause : Byte) : (chartWrite source u action cause s).2.pending = s.pending := by
  unfold chartWrite; (try dsimp only); repeat' split
  all_goals simp
@[simp] theorem chartWrite_freeIx (source : Byte) (u : UnitRef) (action cause : Byte) : (chartWrite source u action cause s).2.freeIx = s.freeIx := by
  unfold chartWrite; (try dsimp only); repeat' split
  all_goals simp
@[simp] theorem chartWrite_serial (source : Byte) (u : UnitRef) (action cause : Byte) : (chartWrite source u action cause s).2.serial = s.serial := by
  unfold chartWrite; (try dsimp only); repeat' split
  all_goals simp
@[simp] theorem chartWrite_life (source : Byte) (u : UnitRef) (action cause : Byte) : (chartWrite source u action cause s).2.life = s.life := by
  unfold chartWrite; (try dsimp only); repeat' split
  all_goals simp
@[simp] theorem chartWrite_settings (source : Byte) (u : UnitRef) (action cause : Byte) : (chartWrite source u action cause s).2.settings = s.settings := by
  unfold chartWrite; (try dsimp only); repeat' split
  all_goals simp
@[simp] theorem chartWrite_bin (source : Byte) (u : UnitRef) (action cause : Byte) : (chartWrite source u action cause s).2.bin = s.bin := by
  unfold chartWrite; (try dsimp only); repeat' split
  all_goals simp
@[simp] theorem chartWrite_wafer (source : Byte) (u : UnitRef) (action cause : Byte) : (chartWrite source u action cause s).2.wafer = s.wafer := by
  unfold chartWrite; (try dsimp only); repeat' split
  all_goals simp
@[simp] theorem chartWrite_sites (source : Byte) (u : UnitRef) (action cause : Byte) : (chartWrite source u action cause s).2.sites = s.sites := by
  unfold chartWrite; (try dsimp only); repeat' split
  all_goals simp
@[simp] theorem chartWrite_dies (source : Byte) (u : UnitRef) (action cause : Byte) : (chartWrite source u action cause s).2.dies = s.dies := by
  unfold chartWrite; (try dsimp only); repeat' split
  all_goals simp
@[simp] theorem chartWrite_clusters (source : Byte) (u : UnitRef) (action cause : Byte) : (chartWrite source u action cause s).2.clusters = s.clusters := by
  unfold chartWrite; (try dsimp only); repeat' split
  all_goals simp
@[simp] theorem chartWrite_stores (source : Byte) (u : UnitRef) (action cause : Byte) : (chartWrite source u action cause s).2.stores = s.stores := by
  unfold chartWrite; (try dsimp only); repeat' split
  all_goals simp
@[simp] theorem chartWrite_mem (source : Byte) (u : UnitRef) (action cause : Byte) : (chartWrite source u action cause s).2.mem = s.mem := by
  unfold chartWrite; (try dsimp only); repeat' split
  all_goals simp
@[simp] theorem chartWrite_memPoison (source : Byte) (u : UnitRef) (action cause : Byte) : (chartWrite source u action cause s).2.memPoison = s.memPoison := by
  unfold chartWrite; (try dsimp only); repeat' split
  all_goals simp
@[simp] theorem chartWrite_memForms (source : Byte) (u : UnitRef) (action cause : Byte) : (chartWrite source u action cause s).2.memForms = s.memForms := by
  unfold chartWrite; (try dsimp only); repeat' split
  all_goals simp
@[simp] theorem chartWrite_owners (source : Byte) (u : UnitRef) (action cause : Byte) : (chartWrite source u action cause s).2.owners = s.owners := by
  unfold chartWrite; (try dsimp only); repeat' split
  all_goals simp
@[simp] theorem chartWrite_scrubs (source : Byte) (u : UnitRef) (action cause : Byte) : (chartWrite source u action cause s).2.scrubs = s.scrubs := by
  unfold chartWrite; (try dsimp only); repeat' split
  all_goals simp
@[simp] theorem chartWrite_parts (source : Byte) (u : UnitRef) (action cause : Byte) : (chartWrite source u action cause s).2.parts = s.parts := by
  unfold chartWrite; (try dsimp only); repeat' split
  all_goals simp
@[simp] theorem chartWrite_ctxs (source : Byte) (u : UnitRef) (action cause : Byte) : (chartWrite source u action cause s).2.ctxs = s.ctxs := by
  unfold chartWrite; (try dsimp only); repeat' split
  all_goals simp
@[simp] theorem chartWrite_seqs (source : Byte) (u : UnitRef) (action cause : Byte) : (chartWrite source u action cause s).2.seqs = s.seqs := by
  unfold chartWrite; (try dsimp only); repeat' split
  all_goals simp
@[simp] theorem chartWrite_dir (source : Byte) (u : UnitRef) (action cause : Byte) : (chartWrite source u action cause s).2.dir = s.dir := by
  unfold chartWrite; (try dsimp only); repeat' split
  all_goals simp
@[simp] theorem chartWrite_sq (source : Byte) (u : UnitRef) (action cause : Byte) : (chartWrite source u action cause s).2.sq = s.sq := by
  unfold chartWrite; (try dsimp only); repeat' split
  all_goals simp
@[simp] theorem chartWrite_cq (source : Byte) (u : UnitRef) (action cause : Byte) : (chartWrite source u action cause s).2.cq = s.cq := by
  unfold chartWrite; (try dsimp only); repeat' split
  all_goals simp
@[simp] theorem chartWrite_tq (source : Byte) (u : UnitRef) (action cause : Byte) : (chartWrite source u action cause s).2.tq = s.tq := by
  unfold chartWrite; (try dsimp only); repeat' split
  all_goals simp
@[simp] theorem chartWrite_heldRecs (source : Byte) (u : UnitRef) (action cause : Byte) : (chartWrite source u action cause s).2.heldRecs = s.heldRecs := by
  unfold chartWrite; (try dsimp only); repeat' split
  all_goals simp
@[simp] theorem chartWrite_fns (source : Byte) (u : UnitRef) (action cause : Byte) : (chartWrite source u action cause s).2.fns = s.fns := by
  unfold chartWrite; (try dsimp only); repeat' split
  all_goals simp
@[simp] theorem chartWrite_link (source : Byte) (u : UnitRef) (action cause : Byte) : (chartWrite source u action cause s).2.link = s.link := by
  unfold chartWrite; (try dsimp only); repeat' split
  all_goals simp
@[simp] theorem chartWrite_hostOut (source : Byte) (u : UnitRef) (action cause : Byte) : (chartWrite source u action cause s).2.hostOut = s.hostOut := by
  unfold chartWrite; (try dsimp only); repeat' split
  all_goals simp
@[simp] theorem chartWrite_marks (source : Byte) (u : UnitRef) (action cause : Byte) : (chartWrite source u action cause s).2.marks = s.marks := by
  unfold chartWrite; (try dsimp only); repeat' split
  all_goals simp
@[simp] theorem chartWrite_net (source : Byte) (u : UnitRef) (action cause : Byte) : (chartWrite source u action cause s).2.net = s.net := by
  unfold chartWrite; (try dsimp only); repeat' split
  all_goals simp
@[simp] theorem chartWrite_chans (source : Byte) (u : UnitRef) (action cause : Byte) : (chartWrite source u action cause s).2.chans = s.chans := by
  unfold chartWrite; (try dsimp only); repeat' split
  all_goals simp
@[simp] theorem chartWrite_dimmWork (source : Byte) (u : UnitRef) (action cause : Byte) : (chartWrite source u action cause s).2.dimmWork = s.dimmWork := by
  unfold chartWrite; (try dsimp only); repeat' split
  all_goals simp
@[simp] theorem chartWrite_dimm (source : Byte) (u : UnitRef) (action cause : Byte) : (chartWrite source u action cause s).2.dimm = s.dimm := by
  unfold chartWrite; (try dsimp only); repeat' split
  all_goals simp
@[simp] theorem chartWrite_dimmBad (source : Byte) (u : UnitRef) (action cause : Byte) : (chartWrite source u action cause s).2.dimmBad = s.dimmBad := by
  unfold chartWrite; (try dsimp only); repeat' split
  all_goals simp
@[simp] theorem chartWrite_reck (source : Byte) (u : UnitRef) (action cause : Byte) : (chartWrite source u action cause s).2.reck = s.reck := by
  unfold chartWrite; (try dsimp only); repeat' split
  all_goals simp
@[simp] theorem chartWrite_power (source : Byte) (u : UnitRef) (action cause : Byte) : (chartWrite source u action cause s).2.power = s.power := by
  unfold chartWrite; (try dsimp only); repeat' split
  all_goals simp
@[simp] theorem chartWrite_errs (source : Byte) (u : UnitRef) (action cause : Byte) : (chartWrite source u action cause s).2.errs = s.errs := by
  unfold chartWrite; (try dsimp only); repeat' split
  all_goals simp
@[simp] theorem chartWrite_pair (source : Byte) (u : UnitRef) (action cause : Byte) : (chartWrite source u action cause s).2.pair = s.pair := by
  unfold chartWrite; (try dsimp only); repeat' split
  all_goals simp
@[simp] theorem chartWrite_update (source : Byte) (u : UnitRef) (action cause : Byte) : (chartWrite source u action cause s).2.update = s.update := by
  unfold chartWrite; (try dsimp only); repeat' split
  all_goals simp

/-! ### dropQueues -/

@[simp] theorem dropQueues_pending (n : Nat) : (dropQueues n s).pending = s.pending := rfl
@[simp] theorem dropQueues_freeIx (n : Nat) : (dropQueues n s).freeIx = s.freeIx := rfl
@[simp] theorem dropQueues_serial (n : Nat) : (dropQueues n s).serial = s.serial := rfl
@[simp] theorem dropQueues_life (n : Nat) : (dropQueues n s).life = s.life := rfl
@[simp] theorem dropQueues_build (n : Nat) : (dropQueues n s).build = s.build := rfl
@[simp] theorem dropQueues_flash0 (n : Nat) : (dropQueues n s).flash0 = s.flash0 := rfl
@[simp] theorem dropQueues_flash1 (n : Nat) : (dropQueues n s).flash1 = s.flash1 := rfl
@[simp] theorem dropQueues_log (n : Nat) : (dropQueues n s).log = s.log := rfl
@[simp] theorem dropQueues_settings (n : Nat) : (dropQueues n s).settings = s.settings := rfl
@[simp] theorem dropQueues_bin (n : Nat) : (dropQueues n s).bin = s.bin := rfl
@[simp] theorem dropQueues_wafer (n : Nat) : (dropQueues n s).wafer = s.wafer := rfl
@[simp] theorem dropQueues_sites (n : Nat) : (dropQueues n s).sites = s.sites := rfl
@[simp] theorem dropQueues_dies (n : Nat) : (dropQueues n s).dies = s.dies := rfl
@[simp] theorem dropQueues_clusters (n : Nat) : (dropQueues n s).clusters = s.clusters := rfl
@[simp] theorem dropQueues_mem (n : Nat) : (dropQueues n s).mem = s.mem := rfl
@[simp] theorem dropQueues_memPoison (n : Nat) : (dropQueues n s).memPoison = s.memPoison := rfl
@[simp] theorem dropQueues_memForms (n : Nat) : (dropQueues n s).memForms = s.memForms := rfl
@[simp] theorem dropQueues_owners (n : Nat) : (dropQueues n s).owners = s.owners := rfl
@[simp] theorem dropQueues_scrubs (n : Nat) : (dropQueues n s).scrubs = s.scrubs := rfl
@[simp] theorem dropQueues_parts (n : Nat) : (dropQueues n s).parts = s.parts := rfl
@[simp] theorem dropQueues_ctxs (n : Nat) : (dropQueues n s).ctxs = s.ctxs := rfl
@[simp] theorem dropQueues_seqs (n : Nat) : (dropQueues n s).seqs = s.seqs := rfl
@[simp] theorem dropQueues_dir (n : Nat) : (dropQueues n s).dir = s.dir := rfl
@[simp] theorem dropQueues_sq (n : Nat) : (dropQueues n s).sq = s.sq := rfl
@[simp] theorem dropQueues_cq (n : Nat) : (dropQueues n s).cq = s.cq := rfl
@[simp] theorem dropQueues_tq (n : Nat) : (dropQueues n s).tq = s.tq := rfl
@[simp] theorem dropQueues_heldRecs (n : Nat) : (dropQueues n s).heldRecs = s.heldRecs := rfl
@[simp] theorem dropQueues_fns (n : Nat) : (dropQueues n s).fns = s.fns := rfl
@[simp] theorem dropQueues_link (n : Nat) : (dropQueues n s).link = s.link := rfl
@[simp] theorem dropQueues_hostOut (n : Nat) : (dropQueues n s).hostOut = s.hostOut := rfl
@[simp] theorem dropQueues_marks (n : Nat) : (dropQueues n s).marks = s.marks := rfl
@[simp] theorem dropQueues_net (n : Nat) : (dropQueues n s).net = s.net := rfl
@[simp] theorem dropQueues_chans (n : Nat) : (dropQueues n s).chans = s.chans := rfl
@[simp] theorem dropQueues_dimmWork (n : Nat) : (dropQueues n s).dimmWork = s.dimmWork := rfl
@[simp] theorem dropQueues_dimm (n : Nat) : (dropQueues n s).dimm = s.dimm := rfl
@[simp] theorem dropQueues_dimmBad (n : Nat) : (dropQueues n s).dimmBad = s.dimmBad := rfl
@[simp] theorem dropQueues_reck (n : Nat) : (dropQueues n s).reck = s.reck := rfl
@[simp] theorem dropQueues_power (n : Nat) : (dropQueues n s).power = s.power := rfl
@[simp] theorem dropQueues_errs (n : Nat) : (dropQueues n s).errs = s.errs := rfl
@[simp] theorem dropQueues_mgmt (n : Nat) : (dropQueues n s).mgmt = s.mgmt := rfl
@[simp] theorem dropQueues_pair (n : Nat) : (dropQueues n s).pair = s.pair := rfl
@[simp] theorem dropQueues_update (n : Nat) : (dropQueues n s).update = s.update := rfl

/-! ### relayDone -/

@[simp] theorem relayDone_pending  : (relayDone s).pending = s.pending := by
  unfold relayDone beginActivation; dsimp only; repeat' split
  all_goals rfl
@[simp] theorem relayDone_freeIx  : (relayDone s).freeIx = s.freeIx := by
  unfold relayDone beginActivation; dsimp only; repeat' split
  all_goals rfl
@[simp] theorem relayDone_serial  : (relayDone s).serial = s.serial := by
  unfold relayDone beginActivation; dsimp only; repeat' split
  all_goals rfl
@[simp] theorem relayDone_life  : (relayDone s).life = s.life := by
  unfold relayDone beginActivation; dsimp only; repeat' split
  all_goals rfl
@[simp] theorem relayDone_build  : (relayDone s).build = s.build := by
  unfold relayDone beginActivation; dsimp only; repeat' split
  all_goals rfl
@[simp] theorem relayDone_flash0  : (relayDone s).flash0 = s.flash0 := by
  unfold relayDone beginActivation; dsimp only; repeat' split
  all_goals rfl
@[simp] theorem relayDone_flash1  : (relayDone s).flash1 = s.flash1 := by
  unfold relayDone beginActivation; dsimp only; repeat' split
  all_goals rfl
@[simp] theorem relayDone_log  : (relayDone s).log = s.log := by
  unfold relayDone beginActivation; dsimp only; repeat' split
  all_goals rfl
@[simp] theorem relayDone_settings  : (relayDone s).settings = s.settings := by
  unfold relayDone beginActivation; dsimp only; repeat' split
  all_goals rfl
@[simp] theorem relayDone_bin  : (relayDone s).bin = s.bin := by
  unfold relayDone beginActivation; dsimp only; repeat' split
  all_goals rfl
@[simp] theorem relayDone_wafer  : (relayDone s).wafer = s.wafer := by
  unfold relayDone beginActivation; dsimp only; repeat' split
  all_goals rfl
@[simp] theorem relayDone_sites  : (relayDone s).sites = s.sites := by
  unfold relayDone beginActivation; dsimp only; repeat' split
  all_goals rfl
@[simp] theorem relayDone_dies  : (relayDone s).dies = s.dies := by
  unfold relayDone beginActivation; dsimp only; repeat' split
  all_goals rfl
@[simp] theorem relayDone_clusters  : (relayDone s).clusters = s.clusters := by
  unfold relayDone beginActivation; dsimp only; repeat' split
  all_goals rfl
@[simp] theorem relayDone_stores  : (relayDone s).stores = s.stores := by
  unfold relayDone beginActivation; dsimp only; repeat' split
  all_goals rfl
@[simp] theorem relayDone_mem  : (relayDone s).mem = s.mem := by
  unfold relayDone beginActivation; dsimp only; repeat' split
  all_goals rfl
@[simp] theorem relayDone_memPoison  : (relayDone s).memPoison = s.memPoison := by
  unfold relayDone beginActivation; dsimp only; repeat' split
  all_goals rfl
@[simp] theorem relayDone_memForms  : (relayDone s).memForms = s.memForms := by
  unfold relayDone beginActivation; dsimp only; repeat' split
  all_goals rfl
@[simp] theorem relayDone_owners  : (relayDone s).owners = s.owners := by
  unfold relayDone beginActivation; dsimp only; repeat' split
  all_goals rfl
@[simp] theorem relayDone_scrubs  : (relayDone s).scrubs = s.scrubs := by
  unfold relayDone beginActivation; dsimp only; repeat' split
  all_goals rfl
@[simp] theorem relayDone_parts  : (relayDone s).parts = s.parts := by
  unfold relayDone beginActivation; dsimp only; repeat' split
  all_goals rfl
@[simp] theorem relayDone_ctxs  : (relayDone s).ctxs = s.ctxs := by
  unfold relayDone beginActivation; dsimp only; repeat' split
  all_goals rfl
@[simp] theorem relayDone_seqs  : (relayDone s).seqs = s.seqs := by
  unfold relayDone beginActivation; dsimp only; repeat' split
  all_goals rfl
@[simp] theorem relayDone_dir  : (relayDone s).dir = s.dir := by
  unfold relayDone beginActivation; dsimp only; repeat' split
  all_goals rfl
@[simp] theorem relayDone_sq  : (relayDone s).sq = s.sq := by
  unfold relayDone beginActivation; dsimp only; repeat' split
  all_goals rfl
@[simp] theorem relayDone_cq  : (relayDone s).cq = s.cq := by
  unfold relayDone beginActivation; dsimp only; repeat' split
  all_goals rfl
@[simp] theorem relayDone_tq  : (relayDone s).tq = s.tq := by
  unfold relayDone beginActivation; dsimp only; repeat' split
  all_goals rfl
@[simp] theorem relayDone_heldRecs  : (relayDone s).heldRecs = s.heldRecs := by
  unfold relayDone beginActivation; dsimp only; repeat' split
  all_goals rfl
@[simp] theorem relayDone_fns  : (relayDone s).fns = s.fns := by
  unfold relayDone beginActivation; dsimp only; repeat' split
  all_goals rfl
@[simp] theorem relayDone_link  : (relayDone s).link = s.link := by
  unfold relayDone beginActivation; dsimp only; repeat' split
  all_goals rfl
@[simp] theorem relayDone_hostOut  : (relayDone s).hostOut = s.hostOut := by
  unfold relayDone beginActivation; dsimp only; repeat' split
  all_goals rfl
@[simp] theorem relayDone_marks  : (relayDone s).marks = s.marks := by
  unfold relayDone beginActivation; dsimp only; repeat' split
  all_goals rfl
@[simp] theorem relayDone_net  : (relayDone s).net = s.net := by
  unfold relayDone beginActivation; dsimp only; repeat' split
  all_goals rfl
@[simp] theorem relayDone_chans  : (relayDone s).chans = s.chans := by
  unfold relayDone beginActivation; dsimp only; repeat' split
  all_goals rfl
@[simp] theorem relayDone_dimmWork  : (relayDone s).dimmWork = s.dimmWork := by
  unfold relayDone beginActivation; dsimp only; repeat' split
  all_goals rfl
@[simp] theorem relayDone_dimm  : (relayDone s).dimm = s.dimm := by
  unfold relayDone beginActivation; dsimp only; repeat' split
  all_goals rfl
@[simp] theorem relayDone_dimmBad  : (relayDone s).dimmBad = s.dimmBad := by
  unfold relayDone beginActivation; dsimp only; repeat' split
  all_goals rfl
@[simp] theorem relayDone_reck  : (relayDone s).reck = s.reck := by
  unfold relayDone beginActivation; dsimp only; repeat' split
  all_goals rfl
@[simp] theorem relayDone_power  : (relayDone s).power = s.power := by
  unfold relayDone beginActivation; dsimp only; repeat' split
  all_goals rfl
@[simp] theorem relayDone_errs  : (relayDone s).errs = s.errs := by
  unfold relayDone beginActivation; dsimp only; repeat' split
  all_goals rfl
@[simp] theorem relayDone_mgmt  : (relayDone s).mgmt = s.mgmt := by
  unfold relayDone beginActivation; dsimp only; repeat' split
  all_goals rfl
@[simp] theorem relayDone_pair  : (relayDone s).pair = s.pair := by
  unfold relayDone beginActivation; dsimp only; repeat' split
  all_goals rfl

/-! ### siteDark -/

@[simp] theorem siteDark_pending (i : Nat) : (siteDark i s).pending = s.pending := by
  simp only [siteDark, relayDone_pending]; split <;> simp
@[simp] theorem siteDark_freeIx (i : Nat) : (siteDark i s).freeIx = s.freeIx := by
  simp only [siteDark, relayDone_freeIx]; split <;> simp
@[simp] theorem siteDark_serial (i : Nat) : (siteDark i s).serial = s.serial := by
  simp only [siteDark, relayDone_serial]; split <;> simp
@[simp] theorem siteDark_life (i : Nat) : (siteDark i s).life = s.life := by
  simp only [siteDark, relayDone_life]; split <;> simp
@[simp] theorem siteDark_build (i : Nat) : (siteDark i s).build = s.build := by
  simp only [siteDark, relayDone_build]; split <;> simp
@[simp] theorem siteDark_flash0 (i : Nat) : (siteDark i s).flash0 = s.flash0 := by
  simp only [siteDark, relayDone_flash0]; split <;> simp
@[simp] theorem siteDark_flash1 (i : Nat) : (siteDark i s).flash1 = s.flash1 := by
  simp only [siteDark, relayDone_flash1]; split <;> simp
@[simp] theorem siteDark_log (i : Nat) : (siteDark i s).log = s.log := by
  simp only [siteDark, relayDone_log]; split <;> simp
@[simp] theorem siteDark_settings (i : Nat) : (siteDark i s).settings = s.settings := by
  simp only [siteDark, relayDone_settings]; split <;> simp
@[simp] theorem siteDark_bin (i : Nat) : (siteDark i s).bin = s.bin := by
  simp only [siteDark, relayDone_bin]; split <;> simp
@[simp] theorem siteDark_wafer (i : Nat) : (siteDark i s).wafer = s.wafer := by
  simp only [siteDark, relayDone_wafer]; split <;> simp
@[simp] theorem siteDark_mem (i : Nat) : (siteDark i s).mem = s.mem := by
  simp only [siteDark, relayDone_mem]; split <;> simp
@[simp] theorem siteDark_memPoison (i : Nat) : (siteDark i s).memPoison = s.memPoison := by
  simp only [siteDark, relayDone_memPoison]; split <;> simp
@[simp] theorem siteDark_memForms (i : Nat) : (siteDark i s).memForms = s.memForms := by
  simp only [siteDark, relayDone_memForms]; split <;> simp
@[simp] theorem siteDark_owners (i : Nat) : (siteDark i s).owners = s.owners := by
  simp only [siteDark, relayDone_owners]; split <;> simp
@[simp] theorem siteDark_scrubs (i : Nat) : (siteDark i s).scrubs = s.scrubs := by
  simp only [siteDark, relayDone_scrubs]; split <;> simp
@[simp] theorem siteDark_parts (i : Nat) : (siteDark i s).parts = s.parts := by
  simp only [siteDark, relayDone_parts]; split <;> simp
@[simp] theorem siteDark_ctxs (i : Nat) : (siteDark i s).ctxs = s.ctxs := by
  simp only [siteDark, relayDone_ctxs]; split <;> simp
@[simp] theorem siteDark_seqs (i : Nat) : (siteDark i s).seqs = s.seqs := by
  simp only [siteDark, relayDone_seqs]; split <;> simp
@[simp] theorem siteDark_dir (i : Nat) : (siteDark i s).dir = s.dir := by
  simp only [siteDark, relayDone_dir]; split <;> simp
@[simp] theorem siteDark_sq (i : Nat) : (siteDark i s).sq = s.sq := by
  simp only [siteDark, relayDone_sq]; split <;> simp
@[simp] theorem siteDark_cq (i : Nat) : (siteDark i s).cq = s.cq := by
  simp only [siteDark, relayDone_cq]; split <;> simp
@[simp] theorem siteDark_tq (i : Nat) : (siteDark i s).tq = s.tq := by
  simp only [siteDark, relayDone_tq]; split <;> simp
@[simp] theorem siteDark_heldRecs (i : Nat) : (siteDark i s).heldRecs = s.heldRecs := by
  simp only [siteDark, relayDone_heldRecs]; split <;> simp
@[simp] theorem siteDark_fns (i : Nat) : (siteDark i s).fns = s.fns := by
  simp only [siteDark, relayDone_fns]; split <;> simp
@[simp] theorem siteDark_link (i : Nat) : (siteDark i s).link = s.link := by
  simp only [siteDark, relayDone_link]; split <;> simp
@[simp] theorem siteDark_hostOut (i : Nat) : (siteDark i s).hostOut = s.hostOut := by
  simp only [siteDark, relayDone_hostOut]; split <;> simp
@[simp] theorem siteDark_marks (i : Nat) : (siteDark i s).marks = s.marks := by
  simp only [siteDark, relayDone_marks]; split <;> simp
@[simp] theorem siteDark_net (i : Nat) : (siteDark i s).net = s.net := by
  simp only [siteDark, relayDone_net]; split <;> simp
@[simp] theorem siteDark_chans (i : Nat) : (siteDark i s).chans = s.chans := by
  simp only [siteDark, relayDone_chans]; split <;> simp
@[simp] theorem siteDark_dimmWork (i : Nat) : (siteDark i s).dimmWork = s.dimmWork := by
  simp only [siteDark, relayDone_dimmWork]; split <;> simp
@[simp] theorem siteDark_dimm (i : Nat) : (siteDark i s).dimm = s.dimm := by
  simp only [siteDark, relayDone_dimm]; split <;> simp
@[simp] theorem siteDark_dimmBad (i : Nat) : (siteDark i s).dimmBad = s.dimmBad := by
  simp only [siteDark, relayDone_dimmBad]; split <;> simp
@[simp] theorem siteDark_reck (i : Nat) : (siteDark i s).reck = s.reck := by
  simp only [siteDark, relayDone_reck]; split <;> simp
@[simp] theorem siteDark_errs (i : Nat) : (siteDark i s).errs = s.errs := by
  simp only [siteDark, relayDone_errs]; split <;> simp
@[simp] theorem siteDark_mgmt (i : Nat) : (siteDark i s).mgmt = s.mgmt := by
  simp only [siteDark, relayDone_mgmt]; split <;> simp
@[simp] theorem siteDark_pair (i : Nat) : (siteDark i s).pair = s.pair := by
  simp only [siteDark, relayDone_pair]; split <;> simp

/-! ### holdPart -/

@[simp] theorem holdPart_pending (p : Nat) (no : Nat) : (holdPart p no s).pending = s.pending := rfl
@[simp] theorem holdPart_freeIx (p : Nat) (no : Nat) : (holdPart p no s).freeIx = s.freeIx := rfl
@[simp] theorem holdPart_serial (p : Nat) (no : Nat) : (holdPart p no s).serial = s.serial := rfl
@[simp] theorem holdPart_life (p : Nat) (no : Nat) : (holdPart p no s).life = s.life := rfl
@[simp] theorem holdPart_build (p : Nat) (no : Nat) : (holdPart p no s).build = s.build := rfl
@[simp] theorem holdPart_flash0 (p : Nat) (no : Nat) : (holdPart p no s).flash0 = s.flash0 := rfl
@[simp] theorem holdPart_flash1 (p : Nat) (no : Nat) : (holdPart p no s).flash1 = s.flash1 := rfl
@[simp] theorem holdPart_log (p : Nat) (no : Nat) : (holdPart p no s).log = s.log := rfl
@[simp] theorem holdPart_settings (p : Nat) (no : Nat) : (holdPart p no s).settings = s.settings := rfl
@[simp] theorem holdPart_bin (p : Nat) (no : Nat) : (holdPart p no s).bin = s.bin := rfl
@[simp] theorem holdPart_wafer (p : Nat) (no : Nat) : (holdPart p no s).wafer = s.wafer := rfl
@[simp] theorem holdPart_sites (p : Nat) (no : Nat) : (holdPart p no s).sites = s.sites := rfl
@[simp] theorem holdPart_dies (p : Nat) (no : Nat) : (holdPart p no s).dies = s.dies := rfl
@[simp] theorem holdPart_clusters (p : Nat) (no : Nat) : (holdPart p no s).clusters = s.clusters := rfl
@[simp] theorem holdPart_stores (p : Nat) (no : Nat) : (holdPart p no s).stores = s.stores := rfl
@[simp] theorem holdPart_mem (p : Nat) (no : Nat) : (holdPart p no s).mem = s.mem := rfl
@[simp] theorem holdPart_memPoison (p : Nat) (no : Nat) : (holdPart p no s).memPoison = s.memPoison := rfl
@[simp] theorem holdPart_memForms (p : Nat) (no : Nat) : (holdPart p no s).memForms = s.memForms := rfl
@[simp] theorem holdPart_owners (p : Nat) (no : Nat) : (holdPart p no s).owners = s.owners := rfl
@[simp] theorem holdPart_scrubs (p : Nat) (no : Nat) : (holdPart p no s).scrubs = s.scrubs := rfl
@[simp] theorem holdPart_ctxs (p : Nat) (no : Nat) : (holdPart p no s).ctxs = s.ctxs := rfl
@[simp] theorem holdPart_seqs (p : Nat) (no : Nat) : (holdPart p no s).seqs = s.seqs := rfl
@[simp] theorem holdPart_dir (p : Nat) (no : Nat) : (holdPart p no s).dir = s.dir := rfl
@[simp] theorem holdPart_sq (p : Nat) (no : Nat) : (holdPart p no s).sq = s.sq := rfl
@[simp] theorem holdPart_cq (p : Nat) (no : Nat) : (holdPart p no s).cq = s.cq := rfl
@[simp] theorem holdPart_tq (p : Nat) (no : Nat) : (holdPart p no s).tq = s.tq := rfl
@[simp] theorem holdPart_heldRecs (p : Nat) (no : Nat) : (holdPart p no s).heldRecs = s.heldRecs := rfl
@[simp] theorem holdPart_fns (p : Nat) (no : Nat) : (holdPart p no s).fns = s.fns := rfl
@[simp] theorem holdPart_link (p : Nat) (no : Nat) : (holdPart p no s).link = s.link := rfl
@[simp] theorem holdPart_hostOut (p : Nat) (no : Nat) : (holdPart p no s).hostOut = s.hostOut := rfl
@[simp] theorem holdPart_marks (p : Nat) (no : Nat) : (holdPart p no s).marks = s.marks := rfl
@[simp] theorem holdPart_net (p : Nat) (no : Nat) : (holdPart p no s).net = s.net := rfl
@[simp] theorem holdPart_chans (p : Nat) (no : Nat) : (holdPart p no s).chans = s.chans := rfl
@[simp] theorem holdPart_dimmWork (p : Nat) (no : Nat) : (holdPart p no s).dimmWork = s.dimmWork := rfl
@[simp] theorem holdPart_dimm (p : Nat) (no : Nat) : (holdPart p no s).dimm = s.dimm := rfl
@[simp] theorem holdPart_dimmBad (p : Nat) (no : Nat) : (holdPart p no s).dimmBad = s.dimmBad := rfl
@[simp] theorem holdPart_reck (p : Nat) (no : Nat) : (holdPart p no s).reck = s.reck := rfl
@[simp] theorem holdPart_power (p : Nat) (no : Nat) : (holdPart p no s).power = s.power := rfl
@[simp] theorem holdPart_errs (p : Nat) (no : Nat) : (holdPart p no s).errs = s.errs := rfl
@[simp] theorem holdPart_mgmt (p : Nat) (no : Nat) : (holdPart p no s).mgmt = s.mgmt := rfl
@[simp] theorem holdPart_pair (p : Nat) (no : Nat) : (holdPart p no s).pair = s.pair := rfl
@[simp] theorem holdPart_update (p : Nat) (no : Nat) : (holdPart p no s).update = s.update := rfl

/-! ### failPart -/

/-- A part of the State that each step of a fold leaves is left by the fold. -/
theorem foldl_keeps {α β : Type} (g : State → α) (f : State → β → State) (h : ∀ s b, g (f s b) = g s) (l : List β) (s : State) :
    g (l.foldl f s) = g s := by
  induction l generalizing s with
  | nil => rfl
  | cons b l ih => exact (ih _).trans (h s b)

@[simp] theorem failPart_pending (p : Nat) : (failPart p s).pending = s.pending :=
  (foldl_keeps (fun s => s.pending) _ (fun s c => haltCtx_pending s c) _ _).trans rfl
@[simp] theorem failPart_freeIx (p : Nat) : (failPart p s).freeIx = s.freeIx :=
  (foldl_keeps (fun s => s.freeIx) _ (fun s c => haltCtx_freeIx s c) _ _).trans rfl
@[simp] theorem failPart_serial (p : Nat) : (failPart p s).serial = s.serial :=
  (foldl_keeps (fun s => s.serial) _ (fun s c => haltCtx_serial s c) _ _).trans rfl
@[simp] theorem failPart_life (p : Nat) : (failPart p s).life = s.life :=
  (foldl_keeps (fun s => s.life) _ (fun s c => haltCtx_life s c) _ _).trans rfl
@[simp] theorem failPart_build (p : Nat) : (failPart p s).build = s.build :=
  (foldl_keeps (fun s => s.build) _ (fun s c => haltCtx_build s c) _ _).trans rfl
@[simp] theorem failPart_flash0 (p : Nat) : (failPart p s).flash0 = s.flash0 :=
  (foldl_keeps (fun s => s.flash0) _ (fun s c => haltCtx_flash0 s c) _ _).trans rfl
@[simp] theorem failPart_flash1 (p : Nat) : (failPart p s).flash1 = s.flash1 :=
  (foldl_keeps (fun s => s.flash1) _ (fun s c => haltCtx_flash1 s c) _ _).trans rfl
@[simp] theorem failPart_log (p : Nat) : (failPart p s).log = s.log :=
  (foldl_keeps (fun s => s.log) _ (fun s c => haltCtx_log s c) _ _).trans rfl
@[simp] theorem failPart_settings (p : Nat) : (failPart p s).settings = s.settings :=
  (foldl_keeps (fun s => s.settings) _ (fun s c => haltCtx_settings s c) _ _).trans rfl
@[simp] theorem failPart_bin (p : Nat) : (failPart p s).bin = s.bin :=
  (foldl_keeps (fun s => s.bin) _ (fun s c => haltCtx_bin s c) _ _).trans rfl
@[simp] theorem failPart_wafer (p : Nat) : (failPart p s).wafer = s.wafer :=
  (foldl_keeps (fun s => s.wafer) _ (fun s c => haltCtx_wafer s c) _ _).trans rfl
@[simp] theorem failPart_sites (p : Nat) : (failPart p s).sites = s.sites :=
  (foldl_keeps (fun s => s.sites) _ (fun s c => haltCtx_sites s c) _ _).trans rfl
@[simp] theorem failPart_dies (p : Nat) : (failPart p s).dies = s.dies :=
  (foldl_keeps (fun s => s.dies) _ (fun s c => haltCtx_dies s c) _ _).trans rfl
@[simp] theorem failPart_clusters (p : Nat) : (failPart p s).clusters = s.clusters :=
  (foldl_keeps (fun s => s.clusters) _ (fun s c => haltCtx_clusters s c) _ _).trans rfl
@[simp] theorem failPart_stores (p : Nat) : (failPart p s).stores = s.stores :=
  (foldl_keeps (fun s => s.stores) _ (fun s c => haltCtx_stores s c) _ _).trans rfl
@[simp] theorem failPart_mem (p : Nat) : (failPart p s).mem = s.mem :=
  (foldl_keeps (fun s => s.mem) _ (fun s c => haltCtx_mem s c) _ _).trans rfl
@[simp] theorem failPart_memPoison (p : Nat) : (failPart p s).memPoison = s.memPoison :=
  (foldl_keeps (fun s => s.memPoison) _ (fun s c => haltCtx_memPoison s c) _ _).trans rfl
@[simp] theorem failPart_memForms (p : Nat) : (failPart p s).memForms = s.memForms :=
  (foldl_keeps (fun s => s.memForms) _ (fun s c => haltCtx_memForms s c) _ _).trans rfl
@[simp] theorem failPart_owners (p : Nat) : (failPart p s).owners = s.owners :=
  (foldl_keeps (fun s => s.owners) _ (fun s c => haltCtx_owners s c) _ _).trans rfl
@[simp] theorem failPart_scrubs (p : Nat) : (failPart p s).scrubs = s.scrubs :=
  (foldl_keeps (fun s => s.scrubs) _ (fun s c => haltCtx_scrubs s c) _ _).trans rfl
@[simp] theorem failPart_seqs (p : Nat) : (failPart p s).seqs = s.seqs :=
  (foldl_keeps (fun s => s.seqs) _ (fun s c => haltCtx_seqs s c) _ _).trans rfl
@[simp] theorem failPart_dir (p : Nat) : (failPart p s).dir = s.dir :=
  (foldl_keeps (fun s => s.dir) _ (fun s c => haltCtx_dir s c) _ _).trans rfl
@[simp] theorem failPart_sq (p : Nat) : (failPart p s).sq = s.sq :=
  (foldl_keeps (fun s => s.sq) _ (fun s c => haltCtx_sq s c) _ _).trans rfl
@[simp] theorem failPart_cq (p : Nat) : (failPart p s).cq = s.cq :=
  (foldl_keeps (fun s => s.cq) _ (fun s c => haltCtx_cq s c) _ _).trans rfl
@[simp] theorem failPart_tq (p : Nat) : (failPart p s).tq = s.tq :=
  (foldl_keeps (fun s => s.tq) _ (fun s c => haltCtx_tq s c) _ _).trans rfl
@[simp] theorem failPart_heldRecs (p : Nat) : (failPart p s).heldRecs = s.heldRecs :=
  (foldl_keeps (fun s => s.heldRecs) _ (fun s c => haltCtx_heldRecs s c) _ _).trans rfl
@[simp] theorem failPart_link (p : Nat) : (failPart p s).link = s.link :=
  (foldl_keeps (fun s => s.link) _ (fun s c => haltCtx_link s c) _ _).trans rfl
@[simp] theorem failPart_marks (p : Nat) : (failPart p s).marks = s.marks :=
  (foldl_keeps (fun s => s.marks) _ (fun s c => haltCtx_marks s c) _ _).trans rfl
@[simp] theorem failPart_net (p : Nat) : (failPart p s).net = s.net :=
  (foldl_keeps (fun s => s.net) _ (fun s c => haltCtx_net s c) _ _).trans rfl
@[simp] theorem failPart_chans (p : Nat) : (failPart p s).chans = s.chans :=
  (foldl_keeps (fun s => s.chans) _ (fun s c => haltCtx_chans s c) _ _).trans rfl
@[simp] theorem failPart_dimmWork (p : Nat) : (failPart p s).dimmWork = s.dimmWork :=
  (foldl_keeps (fun s => s.dimmWork) _ (fun s c => haltCtx_dimmWork s c) _ _).trans rfl
@[simp] theorem failPart_dimm (p : Nat) : (failPart p s).dimm = s.dimm :=
  (foldl_keeps (fun s => s.dimm) _ (fun s c => haltCtx_dimm s c) _ _).trans rfl
@[simp] theorem failPart_dimmBad (p : Nat) : (failPart p s).dimmBad = s.dimmBad :=
  (foldl_keeps (fun s => s.dimmBad) _ (fun s c => haltCtx_dimmBad s c) _ _).trans rfl
@[simp] theorem failPart_reck (p : Nat) : (failPart p s).reck = s.reck :=
  (foldl_keeps (fun s => s.reck) _ (fun s c => haltCtx_reck s c) _ _).trans rfl
@[simp] theorem failPart_power (p : Nat) : (failPart p s).power = s.power :=
  (foldl_keeps (fun s => s.power) _ (fun s c => haltCtx_power s c) _ _).trans rfl
@[simp] theorem failPart_errs (p : Nat) : (failPart p s).errs = s.errs :=
  (foldl_keeps (fun s => s.errs) _ (fun s c => haltCtx_errs s c) _ _).trans rfl
@[simp] theorem failPart_mgmt (p : Nat) : (failPart p s).mgmt = s.mgmt :=
  (foldl_keeps (fun s => s.mgmt) _ (fun s c => haltCtx_mgmt s c) _ _).trans rfl
@[simp] theorem failPart_pair (p : Nat) : (failPart p s).pair = s.pair :=
  (foldl_keeps (fun s => s.pair) _ (fun s c => haltCtx_pair s c) _ _).trans rfl
@[simp] theorem failPart_update (p : Nat) : (failPart p s).update = s.update :=
  (foldl_keeps (fun s => s.update) _ (fun s c => haltCtx_update s c) _ _).trans rfl

/-! ### releasePart -/

@[simp] theorem releasePart_pending (p no : Nat) : (releasePart p no s).pending = s.pending := by
  unfold releasePart; (try dsimp only); repeat' split
  all_goals simp
@[simp] theorem releasePart_freeIx (p no : Nat) : (releasePart p no s).freeIx = s.freeIx := by
  unfold releasePart; (try dsimp only); repeat' split
  all_goals simp
@[simp] theorem releasePart_serial (p no : Nat) : (releasePart p no s).serial = s.serial := by
  unfold releasePart; (try dsimp only); repeat' split
  all_goals simp
@[simp] theorem releasePart_life (p no : Nat) : (releasePart p no s).life = s.life := by
  unfold releasePart; (try dsimp only); repeat' split
  all_goals simp
@[simp] theorem releasePart_build (p no : Nat) : (releasePart p no s).build = s.build := by
  unfold releasePart; (try dsimp only); repeat' split
  all_goals simp
@[simp] theorem releasePart_flash0 (p no : Nat) : (releasePart p no s).flash0 = s.flash0 := by
  unfold releasePart; (try dsimp only); repeat' split
  all_goals simp
@[simp] theorem releasePart_flash1 (p no : Nat) : (releasePart p no s).flash1 = s.flash1 := by
  unfold releasePart; (try dsimp only); repeat' split
  all_goals simp
@[simp] theorem releasePart_log (p no : Nat) : (releasePart p no s).log = s.log := by
  unfold releasePart; (try dsimp only); repeat' split
  all_goals simp
@[simp] theorem releasePart_settings (p no : Nat) : (releasePart p no s).settings = s.settings := by
  unfold releasePart; (try dsimp only); repeat' split
  all_goals simp
@[simp] theorem releasePart_bin (p no : Nat) : (releasePart p no s).bin = s.bin := by
  unfold releasePart; (try dsimp only); repeat' split
  all_goals simp
@[simp] theorem releasePart_wafer (p no : Nat) : (releasePart p no s).wafer = s.wafer := by
  unfold releasePart; (try dsimp only); repeat' split
  all_goals simp
@[simp] theorem releasePart_sites (p no : Nat) : (releasePart p no s).sites = s.sites := by
  unfold releasePart; (try dsimp only); repeat' split
  all_goals simp
@[simp] theorem releasePart_dies (p no : Nat) : (releasePart p no s).dies = s.dies := by
  unfold releasePart; (try dsimp only); repeat' split
  all_goals simp
@[simp] theorem releasePart_clusters (p no : Nat) : (releasePart p no s).clusters = s.clusters := by
  unfold releasePart; (try dsimp only); repeat' split
  all_goals simp
@[simp] theorem releasePart_stores (p no : Nat) : (releasePart p no s).stores = s.stores := by
  unfold releasePart; (try dsimp only); repeat' split
  all_goals simp
@[simp] theorem releasePart_mem (p no : Nat) : (releasePart p no s).mem = s.mem := by
  unfold releasePart; (try dsimp only); repeat' split
  all_goals simp
@[simp] theorem releasePart_memPoison (p no : Nat) : (releasePart p no s).memPoison = s.memPoison := by
  unfold releasePart; (try dsimp only); repeat' split
  all_goals simp
@[simp] theorem releasePart_memForms (p no : Nat) : (releasePart p no s).memForms = s.memForms := by
  unfold releasePart; (try dsimp only); repeat' split
  all_goals simp
@[simp] theorem releasePart_owners (p no : Nat) : (releasePart p no s).owners = s.owners := by
  unfold releasePart; (try dsimp only); repeat' split
  all_goals simp
@[simp] theorem releasePart_scrubs (p no : Nat) : (releasePart p no s).scrubs = s.scrubs := by
  unfold releasePart; (try dsimp only); repeat' split
  all_goals simp
@[simp] theorem releasePart_ctxs (p no : Nat) : (releasePart p no s).ctxs = s.ctxs := by
  unfold releasePart; (try dsimp only); repeat' split
  all_goals simp
@[simp] theorem releasePart_seqs (p no : Nat) : (releasePart p no s).seqs = s.seqs := by
  unfold releasePart; (try dsimp only); repeat' split
  all_goals simp
@[simp] theorem releasePart_dir (p no : Nat) : (releasePart p no s).dir = s.dir := by
  unfold releasePart; (try dsimp only); repeat' split
  all_goals simp
@[simp] theorem releasePart_sq (p no : Nat) : (releasePart p no s).sq = s.sq := by
  unfold releasePart; (try dsimp only); repeat' split
  all_goals simp
@[simp] theorem releasePart_cq (p no : Nat) : (releasePart p no s).cq = s.cq := by
  unfold releasePart; (try dsimp only); repeat' split
  all_goals simp
@[simp] theorem releasePart_tq (p no : Nat) : (releasePart p no s).tq = s.tq := by
  unfold releasePart; (try dsimp only); repeat' split
  all_goals simp
@[simp] theorem releasePart_heldRecs (p no : Nat) : (releasePart p no s).heldRecs = s.heldRecs := by
  unfold releasePart; (try dsimp only); repeat' split
  all_goals simp
@[simp] theorem releasePart_fns (p no : Nat) : (releasePart p no s).fns = s.fns := by
  unfold releasePart; (try dsimp only); repeat' split
  all_goals simp
@[simp] theorem releasePart_link (p no : Nat) : (releasePart p no s).link = s.link := by
  unfold releasePart; (try dsimp only); repeat' split
  all_goals simp
@[simp] theorem releasePart_hostOut (p no : Nat) : (releasePart p no s).hostOut = s.hostOut := by
  unfold releasePart; (try dsimp only); repeat' split
  all_goals simp
@[simp] theorem releasePart_marks (p no : Nat) : (releasePart p no s).marks = s.marks := by
  unfold releasePart; (try dsimp only); repeat' split
  all_goals simp
@[simp] theorem releasePart_net (p no : Nat) : (releasePart p no s).net = s.net := by
  unfold releasePart; (try dsimp only); repeat' split
  all_goals simp
@[simp] theorem releasePart_chans (p no : Nat) : (releasePart p no s).chans = s.chans := by
  unfold releasePart; (try dsimp only); repeat' split
  all_goals simp
@[simp] theorem releasePart_dimmWork (p no : Nat) : (releasePart p no s).dimmWork = s.dimmWork := by
  unfold releasePart; (try dsimp only); repeat' split
  all_goals simp
@[simp] theorem releasePart_dimm (p no : Nat) : (releasePart p no s).dimm = s.dimm := by
  unfold releasePart; (try dsimp only); repeat' split
  all_goals simp
@[simp] theorem releasePart_dimmBad (p no : Nat) : (releasePart p no s).dimmBad = s.dimmBad := by
  unfold releasePart; (try dsimp only); repeat' split
  all_goals simp
@[simp] theorem releasePart_reck (p no : Nat) : (releasePart p no s).reck = s.reck := by
  unfold releasePart; (try dsimp only); repeat' split
  all_goals simp
@[simp] theorem releasePart_power (p no : Nat) : (releasePart p no s).power = s.power := by
  unfold releasePart; (try dsimp only); repeat' split
  all_goals simp
@[simp] theorem releasePart_errs (p no : Nat) : (releasePart p no s).errs = s.errs := by
  unfold releasePart; (try dsimp only); repeat' split
  all_goals simp
@[simp] theorem releasePart_mgmt (p no : Nat) : (releasePart p no s).mgmt = s.mgmt := by
  unfold releasePart; (try dsimp only); repeat' split
  all_goals simp
@[simp] theorem releasePart_pair (p no : Nat) : (releasePart p no s).pair = s.pair := by
  unfold releasePart; (try dsimp only); repeat' split
  all_goals simp
@[simp] theorem releasePart_update (p no : Nat) : (releasePart p no s).update = s.update := by
  unfold releasePart; (try dsimp only); repeat' split
  all_goals simp

/-! ### leaveUnmapped -/

@[simp] theorem leaveUnmapped_pending (n : Nat) : (leaveUnmapped n s).pending = s.pending := by
  unfold leaveUnmapped; (try dsimp only); repeat' split
  all_goals simp
@[simp] theorem leaveUnmapped_freeIx (n : Nat) : (leaveUnmapped n s).freeIx = s.freeIx := by
  unfold leaveUnmapped; (try dsimp only); repeat' split
  all_goals simp
@[simp] theorem leaveUnmapped_serial (n : Nat) : (leaveUnmapped n s).serial = s.serial := by
  unfold leaveUnmapped; (try dsimp only); repeat' split
  all_goals simp
@[simp] theorem leaveUnmapped_life (n : Nat) : (leaveUnmapped n s).life = s.life := by
  unfold leaveUnmapped; (try dsimp only); repeat' split
  all_goals simp
@[simp] theorem leaveUnmapped_flash0 (n : Nat) : (leaveUnmapped n s).flash0 = s.flash0 := by
  unfold leaveUnmapped; (try dsimp only); repeat' split
  all_goals simp
@[simp] theorem leaveUnmapped_flash1 (n : Nat) : (leaveUnmapped n s).flash1 = s.flash1 := by
  unfold leaveUnmapped; (try dsimp only); repeat' split
  all_goals simp
@[simp] theorem leaveUnmapped_log (n : Nat) : (leaveUnmapped n s).log = s.log := by
  unfold leaveUnmapped; (try dsimp only); repeat' split
  all_goals simp
@[simp] theorem leaveUnmapped_settings (n : Nat) : (leaveUnmapped n s).settings = s.settings := by
  unfold leaveUnmapped; (try dsimp only); repeat' split
  all_goals simp
@[simp] theorem leaveUnmapped_bin (n : Nat) : (leaveUnmapped n s).bin = s.bin := by
  unfold leaveUnmapped; (try dsimp only); repeat' split
  all_goals simp
@[simp] theorem leaveUnmapped_wafer (n : Nat) : (leaveUnmapped n s).wafer = s.wafer := by
  unfold leaveUnmapped; (try dsimp only); repeat' split
  all_goals simp
@[simp] theorem leaveUnmapped_sites (n : Nat) : (leaveUnmapped n s).sites = s.sites := by
  unfold leaveUnmapped; (try dsimp only); repeat' split
  all_goals simp
@[simp] theorem leaveUnmapped_dies (n : Nat) : (leaveUnmapped n s).dies = s.dies := by
  unfold leaveUnmapped; (try dsimp only); repeat' split
  all_goals simp
@[simp] theorem leaveUnmapped_clusters (n : Nat) : (leaveUnmapped n s).clusters = s.clusters := by
  unfold leaveUnmapped; (try dsimp only); repeat' split
  all_goals simp
@[simp] theorem leaveUnmapped_stores (n : Nat) : (leaveUnmapped n s).stores = s.stores := by
  unfold leaveUnmapped; (try dsimp only); repeat' split
  all_goals simp
@[simp] theorem leaveUnmapped_mem (n : Nat) : (leaveUnmapped n s).mem = s.mem := by
  unfold leaveUnmapped; (try dsimp only); repeat' split
  all_goals simp
@[simp] theorem leaveUnmapped_memPoison (n : Nat) : (leaveUnmapped n s).memPoison = s.memPoison := by
  unfold leaveUnmapped; (try dsimp only); repeat' split
  all_goals simp
@[simp] theorem leaveUnmapped_memForms (n : Nat) : (leaveUnmapped n s).memForms = s.memForms := by
  unfold leaveUnmapped; (try dsimp only); repeat' split
  all_goals simp
@[simp] theorem leaveUnmapped_owners (n : Nat) : (leaveUnmapped n s).owners = s.owners := by
  unfold leaveUnmapped; (try dsimp only); repeat' split
  all_goals simp
@[simp] theorem leaveUnmapped_scrubs (n : Nat) : (leaveUnmapped n s).scrubs = s.scrubs := by
  unfold leaveUnmapped; (try dsimp only); repeat' split
  all_goals simp
@[simp] theorem leaveUnmapped_seqs (n : Nat) : (leaveUnmapped n s).seqs = s.seqs := by
  unfold leaveUnmapped; (try dsimp only); repeat' split
  all_goals simp
@[simp] theorem leaveUnmapped_dir (n : Nat) : (leaveUnmapped n s).dir = s.dir := by
  unfold leaveUnmapped; (try dsimp only); repeat' split
  all_goals simp
@[simp] theorem leaveUnmapped_sq (n : Nat) : (leaveUnmapped n s).sq = s.sq := by
  unfold leaveUnmapped; (try dsimp only); repeat' split
  all_goals simp
@[simp] theorem leaveUnmapped_cq (n : Nat) : (leaveUnmapped n s).cq = s.cq := by
  unfold leaveUnmapped; (try dsimp only); repeat' split
  all_goals simp
@[simp] theorem leaveUnmapped_tq (n : Nat) : (leaveUnmapped n s).tq = s.tq := by
  unfold leaveUnmapped; (try dsimp only); repeat' split
  all_goals simp
@[simp] theorem leaveUnmapped_heldRecs (n : Nat) : (leaveUnmapped n s).heldRecs = s.heldRecs := by
  unfold leaveUnmapped; (try dsimp only); repeat' split
  all_goals simp
@[simp] theorem leaveUnmapped_link (n : Nat) : (leaveUnmapped n s).link = s.link := by
  unfold leaveUnmapped; (try dsimp only); repeat' split
  all_goals simp
@[simp] theorem leaveUnmapped_marks (n : Nat) : (leaveUnmapped n s).marks = s.marks := by
  unfold leaveUnmapped; (try dsimp only); repeat' split
  all_goals simp
@[simp] theorem leaveUnmapped_net (n : Nat) : (leaveUnmapped n s).net = s.net := by
  unfold leaveUnmapped; (try dsimp only); repeat' split
  all_goals simp
@[simp] theorem leaveUnmapped_chans (n : Nat) : (leaveUnmapped n s).chans = s.chans := by
  unfold leaveUnmapped; (try dsimp only); repeat' split
  all_goals simp
@[simp] theorem leaveUnmapped_dimmWork (n : Nat) : (leaveUnmapped n s).dimmWork = s.dimmWork := by
  unfold leaveUnmapped; (try dsimp only); repeat' split
  all_goals simp
@[simp] theorem leaveUnmapped_dimm (n : Nat) : (leaveUnmapped n s).dimm = s.dimm := by
  unfold leaveUnmapped; (try dsimp only); repeat' split
  all_goals simp
@[simp] theorem leaveUnmapped_dimmBad (n : Nat) : (leaveUnmapped n s).dimmBad = s.dimmBad := by
  unfold leaveUnmapped; (try dsimp only); repeat' split
  all_goals simp
@[simp] theorem leaveUnmapped_reck (n : Nat) : (leaveUnmapped n s).reck = s.reck := by
  unfold leaveUnmapped; (try dsimp only); repeat' split
  all_goals simp
@[simp] theorem leaveUnmapped_power (n : Nat) : (leaveUnmapped n s).power = s.power := by
  unfold leaveUnmapped; (try dsimp only); repeat' split
  all_goals simp
@[simp] theorem leaveUnmapped_errs (n : Nat) : (leaveUnmapped n s).errs = s.errs := by
  unfold leaveUnmapped; (try dsimp only); repeat' split
  all_goals simp
@[simp] theorem leaveUnmapped_mgmt (n : Nat) : (leaveUnmapped n s).mgmt = s.mgmt := by
  unfold leaveUnmapped; (try dsimp only); repeat' split
  all_goals simp
@[simp] theorem leaveUnmapped_pair (n : Nat) : (leaveUnmapped n s).pair = s.pair := by
  unfold leaveUnmapped; (try dsimp only); repeat' split
  all_goals simp
@[simp] theorem leaveUnmapped_update (n : Nat) : (leaveUnmapped n s).update = s.update := by
  unfold leaveUnmapped; (try dsimp only); repeat' split
  all_goals simp

/-! ### otherReplacement -/

@[simp] theorem otherReplacement_pending (m : Nat) : (otherReplacement m s).pending = s.pending := by
  unfold otherReplacement; (try dsimp only); repeat' split
  all_goals simp
@[simp] theorem otherReplacement_freeIx (m : Nat) : (otherReplacement m s).freeIx = s.freeIx := by
  unfold otherReplacement; (try dsimp only); repeat' split
  all_goals simp
@[simp] theorem otherReplacement_serial (m : Nat) : (otherReplacement m s).serial = s.serial := by
  unfold otherReplacement; (try dsimp only); repeat' split
  all_goals simp
@[simp] theorem otherReplacement_life (m : Nat) : (otherReplacement m s).life = s.life := by
  unfold otherReplacement; (try dsimp only); repeat' split
  all_goals simp
@[simp] theorem otherReplacement_flash0 (m : Nat) : (otherReplacement m s).flash0 = s.flash0 := by
  unfold otherReplacement; (try dsimp only); repeat' split
  all_goals simp
@[simp] theorem otherReplacement_flash1 (m : Nat) : (otherReplacement m s).flash1 = s.flash1 := by
  unfold otherReplacement; (try dsimp only); repeat' split
  all_goals simp
@[simp] theorem otherReplacement_log (m : Nat) : (otherReplacement m s).log = s.log := by
  unfold otherReplacement; (try dsimp only); repeat' split
  all_goals simp
@[simp] theorem otherReplacement_settings (m : Nat) : (otherReplacement m s).settings = s.settings := by
  unfold otherReplacement; (try dsimp only); repeat' split
  all_goals simp
@[simp] theorem otherReplacement_bin (m : Nat) : (otherReplacement m s).bin = s.bin := by
  unfold otherReplacement; (try dsimp only); repeat' split
  all_goals simp
@[simp] theorem otherReplacement_wafer (m : Nat) : (otherReplacement m s).wafer = s.wafer := by
  unfold otherReplacement; (try dsimp only); repeat' split
  all_goals simp
@[simp] theorem otherReplacement_sites (m : Nat) : (otherReplacement m s).sites = s.sites := by
  unfold otherReplacement; (try dsimp only); repeat' split
  all_goals simp
@[simp] theorem otherReplacement_dies (m : Nat) : (otherReplacement m s).dies = s.dies := by
  unfold otherReplacement; (try dsimp only); repeat' split
  all_goals simp
@[simp] theorem otherReplacement_clusters (m : Nat) : (otherReplacement m s).clusters = s.clusters := by
  unfold otherReplacement; (try dsimp only); repeat' split
  all_goals simp
@[simp] theorem otherReplacement_stores (m : Nat) : (otherReplacement m s).stores = s.stores := by
  unfold otherReplacement; (try dsimp only); repeat' split
  all_goals simp
@[simp] theorem otherReplacement_mem (m : Nat) : (otherReplacement m s).mem = s.mem := by
  unfold otherReplacement; (try dsimp only); repeat' split
  all_goals simp
@[simp] theorem otherReplacement_memPoison (m : Nat) : (otherReplacement m s).memPoison = s.memPoison := by
  unfold otherReplacement; (try dsimp only); repeat' split
  all_goals simp
@[simp] theorem otherReplacement_memForms (m : Nat) : (otherReplacement m s).memForms = s.memForms := by
  unfold otherReplacement; (try dsimp only); repeat' split
  all_goals simp
@[simp] theorem otherReplacement_owners (m : Nat) : (otherReplacement m s).owners = s.owners := by
  unfold otherReplacement; (try dsimp only); repeat' split
  all_goals simp
@[simp] theorem otherReplacement_scrubs (m : Nat) : (otherReplacement m s).scrubs = s.scrubs := by
  unfold otherReplacement; (try dsimp only); repeat' split
  all_goals simp
@[simp] theorem otherReplacement_seqs (m : Nat) : (otherReplacement m s).seqs = s.seqs := by
  unfold otherReplacement; (try dsimp only); repeat' split
  all_goals simp
@[simp] theorem otherReplacement_dir (m : Nat) : (otherReplacement m s).dir = s.dir := by
  unfold otherReplacement; (try dsimp only); repeat' split
  all_goals simp
@[simp] theorem otherReplacement_sq (m : Nat) : (otherReplacement m s).sq = s.sq := by
  unfold otherReplacement; (try dsimp only); repeat' split
  all_goals simp
@[simp] theorem otherReplacement_cq (m : Nat) : (otherReplacement m s).cq = s.cq := by
  unfold otherReplacement; (try dsimp only); repeat' split
  all_goals simp
@[simp] theorem otherReplacement_tq (m : Nat) : (otherReplacement m s).tq = s.tq := by
  unfold otherReplacement; (try dsimp only); repeat' split
  all_goals simp
@[simp] theorem otherReplacement_heldRecs (m : Nat) : (otherReplacement m s).heldRecs = s.heldRecs := by
  unfold otherReplacement; (try dsimp only); repeat' split
  all_goals simp
@[simp] theorem otherReplacement_link (m : Nat) : (otherReplacement m s).link = s.link := by
  unfold otherReplacement; (try dsimp only); repeat' split
  all_goals simp
@[simp] theorem otherReplacement_marks (m : Nat) : (otherReplacement m s).marks = s.marks := by
  unfold otherReplacement; (try dsimp only); repeat' split
  all_goals simp
@[simp] theorem otherReplacement_net (m : Nat) : (otherReplacement m s).net = s.net := by
  unfold otherReplacement; (try dsimp only); repeat' split
  all_goals simp
@[simp] theorem otherReplacement_chans (m : Nat) : (otherReplacement m s).chans = s.chans := by
  unfold otherReplacement; (try dsimp only); repeat' split
  all_goals simp
@[simp] theorem otherReplacement_dimmWork (m : Nat) : (otherReplacement m s).dimmWork = s.dimmWork := by
  unfold otherReplacement; (try dsimp only); repeat' split
  all_goals simp
@[simp] theorem otherReplacement_dimm (m : Nat) : (otherReplacement m s).dimm = s.dimm := by
  unfold otherReplacement; (try dsimp only); repeat' split
  all_goals simp
@[simp] theorem otherReplacement_dimmBad (m : Nat) : (otherReplacement m s).dimmBad = s.dimmBad := by
  unfold otherReplacement; (try dsimp only); repeat' split
  all_goals simp
@[simp] theorem otherReplacement_reck (m : Nat) : (otherReplacement m s).reck = s.reck := by
  unfold otherReplacement; (try dsimp only); repeat' split
  all_goals simp
@[simp] theorem otherReplacement_power (m : Nat) : (otherReplacement m s).power = s.power := by
  unfold otherReplacement; (try dsimp only); repeat' split
  all_goals simp
@[simp] theorem otherReplacement_errs (m : Nat) : (otherReplacement m s).errs = s.errs := by
  unfold otherReplacement; (try dsimp only); repeat' split
  all_goals simp
@[simp] theorem otherReplacement_mgmt (m : Nat) : (otherReplacement m s).mgmt = s.mgmt := by
  unfold otherReplacement; (try dsimp only); repeat' split
  all_goals simp
@[simp] theorem otherReplacement_pair (m : Nat) : (otherReplacement m s).pair = s.pair := by
  unfold otherReplacement; (try dsimp only); repeat' split
  all_goals simp
@[simp] theorem otherReplacement_update (m : Nat) : (otherReplacement m s).update = s.update := by
  unfold otherReplacement; (try dsimp only); repeat' split
  all_goals simp

/-! ### retireCluster -/

@[simp] theorem retireCluster_pending (source cause : Byte) (n : Nat) : (retireCluster source cause n s).2.pending = s.pending := by
  unfold retireCluster; (try dsimp only); repeat' split
  all_goals simp
@[simp] theorem retireCluster_freeIx (source cause : Byte) (n : Nat) : (retireCluster source cause n s).2.freeIx = s.freeIx := by
  unfold retireCluster; (try dsimp only); repeat' split
  all_goals simp
@[simp] theorem retireCluster_serial (source cause : Byte) (n : Nat) : (retireCluster source cause n s).2.serial = s.serial := by
  unfold retireCluster; (try dsimp only); repeat' split
  all_goals simp
@[simp] theorem retireCluster_life (source cause : Byte) (n : Nat) : (retireCluster source cause n s).2.life = s.life := by
  unfold retireCluster; (try dsimp only); repeat' split
  all_goals simp
@[simp] theorem retireCluster_settings (source cause : Byte) (n : Nat) : (retireCluster source cause n s).2.settings = s.settings := by
  unfold retireCluster; (try dsimp only); repeat' split
  all_goals simp
@[simp] theorem retireCluster_bin (source cause : Byte) (n : Nat) : (retireCluster source cause n s).2.bin = s.bin := by
  unfold retireCluster; (try dsimp only); repeat' split
  all_goals simp
@[simp] theorem retireCluster_wafer (source cause : Byte) (n : Nat) : (retireCluster source cause n s).2.wafer = s.wafer := by
  unfold retireCluster; (try dsimp only); repeat' split
  all_goals simp
@[simp] theorem retireCluster_mem (source cause : Byte) (n : Nat) : (retireCluster source cause n s).2.mem = s.mem := by
  unfold retireCluster; (try dsimp only); repeat' split
  all_goals simp
@[simp] theorem retireCluster_memPoison (source cause : Byte) (n : Nat) : (retireCluster source cause n s).2.memPoison = s.memPoison := by
  unfold retireCluster; (try dsimp only); repeat' split
  all_goals simp
@[simp] theorem retireCluster_memForms (source cause : Byte) (n : Nat) : (retireCluster source cause n s).2.memForms = s.memForms := by
  unfold retireCluster; (try dsimp only); repeat' split
  all_goals simp
@[simp] theorem retireCluster_owners (source cause : Byte) (n : Nat) : (retireCluster source cause n s).2.owners = s.owners := by
  unfold retireCluster; (try dsimp only); repeat' split
  all_goals simp
@[simp] theorem retireCluster_scrubs (source cause : Byte) (n : Nat) : (retireCluster source cause n s).2.scrubs = s.scrubs := by
  unfold retireCluster; (try dsimp only); repeat' split
  all_goals simp
@[simp] theorem retireCluster_seqs (source cause : Byte) (n : Nat) : (retireCluster source cause n s).2.seqs = s.seqs := by
  unfold retireCluster; (try dsimp only); repeat' split
  all_goals simp
@[simp] theorem retireCluster_dir (source cause : Byte) (n : Nat) : (retireCluster source cause n s).2.dir = s.dir := by
  unfold retireCluster; (try dsimp only); repeat' split
  all_goals simp
@[simp] theorem retireCluster_sq (source cause : Byte) (n : Nat) : (retireCluster source cause n s).2.sq = s.sq := by
  unfold retireCluster; (try dsimp only); repeat' split
  all_goals simp
@[simp] theorem retireCluster_cq (source cause : Byte) (n : Nat) : (retireCluster source cause n s).2.cq = s.cq := by
  unfold retireCluster; (try dsimp only); repeat' split
  all_goals simp
@[simp] theorem retireCluster_tq (source cause : Byte) (n : Nat) : (retireCluster source cause n s).2.tq = s.tq := by
  unfold retireCluster; (try dsimp only); repeat' split
  all_goals simp
@[simp] theorem retireCluster_heldRecs (source cause : Byte) (n : Nat) : (retireCluster source cause n s).2.heldRecs = s.heldRecs := by
  unfold retireCluster; (try dsimp only); repeat' split
  all_goals simp
@[simp] theorem retireCluster_link (source cause : Byte) (n : Nat) : (retireCluster source cause n s).2.link = s.link := by
  unfold retireCluster; (try dsimp only); repeat' split
  all_goals simp
@[simp] theorem retireCluster_marks (source cause : Byte) (n : Nat) : (retireCluster source cause n s).2.marks = s.marks := by
  unfold retireCluster; (try dsimp only); repeat' split
  all_goals simp
@[simp] theorem retireCluster_net (source cause : Byte) (n : Nat) : (retireCluster source cause n s).2.net = s.net := by
  unfold retireCluster; (try dsimp only); repeat' split
  all_goals simp
@[simp] theorem retireCluster_chans (source cause : Byte) (n : Nat) : (retireCluster source cause n s).2.chans = s.chans := by
  unfold retireCluster; (try dsimp only); repeat' split
  all_goals simp
@[simp] theorem retireCluster_dimmWork (source cause : Byte) (n : Nat) : (retireCluster source cause n s).2.dimmWork = s.dimmWork := by
  unfold retireCluster; (try dsimp only); repeat' split
  all_goals simp
@[simp] theorem retireCluster_dimm (source cause : Byte) (n : Nat) : (retireCluster source cause n s).2.dimm = s.dimm := by
  unfold retireCluster; (try dsimp only); repeat' split
  all_goals simp
@[simp] theorem retireCluster_dimmBad (source cause : Byte) (n : Nat) : (retireCluster source cause n s).2.dimmBad = s.dimmBad := by
  unfold retireCluster; (try dsimp only); repeat' split
  all_goals simp
@[simp] theorem retireCluster_reck (source cause : Byte) (n : Nat) : (retireCluster source cause n s).2.reck = s.reck := by
  unfold retireCluster; (try dsimp only); repeat' split
  all_goals simp
@[simp] theorem retireCluster_errs (source cause : Byte) (n : Nat) : (retireCluster source cause n s).2.errs = s.errs := by
  unfold retireCluster; (try dsimp only); repeat' split
  all_goals simp
@[simp] theorem retireCluster_pair (source cause : Byte) (n : Nat) : (retireCluster source cause n s).2.pair = s.pair := by
  unfold retireCluster; (try dsimp only); repeat' split
  all_goals simp

/-! ### sendOn -/

@[simp] theorem sendOn_pending (p : Nat) (f : FrameOut) : (sendOn p f s).pending = s.pending := rfl
@[simp] theorem sendOn_freeIx (p : Nat) (f : FrameOut) : (sendOn p f s).freeIx = s.freeIx := rfl
@[simp] theorem sendOn_serial (p : Nat) (f : FrameOut) : (sendOn p f s).serial = s.serial := rfl
@[simp] theorem sendOn_life (p : Nat) (f : FrameOut) : (sendOn p f s).life = s.life := rfl
@[simp] theorem sendOn_build (p : Nat) (f : FrameOut) : (sendOn p f s).build = s.build := rfl
@[simp] theorem sendOn_flash0 (p : Nat) (f : FrameOut) : (sendOn p f s).flash0 = s.flash0 := rfl
@[simp] theorem sendOn_flash1 (p : Nat) (f : FrameOut) : (sendOn p f s).flash1 = s.flash1 := rfl
@[simp] theorem sendOn_log (p : Nat) (f : FrameOut) : (sendOn p f s).log = s.log := rfl
@[simp] theorem sendOn_settings (p : Nat) (f : FrameOut) : (sendOn p f s).settings = s.settings := rfl
@[simp] theorem sendOn_bin (p : Nat) (f : FrameOut) : (sendOn p f s).bin = s.bin := rfl
@[simp] theorem sendOn_wafer (p : Nat) (f : FrameOut) : (sendOn p f s).wafer = s.wafer := rfl
@[simp] theorem sendOn_sites (p : Nat) (f : FrameOut) : (sendOn p f s).sites = s.sites := rfl
@[simp] theorem sendOn_dies (p : Nat) (f : FrameOut) : (sendOn p f s).dies = s.dies := rfl
@[simp] theorem sendOn_clusters (p : Nat) (f : FrameOut) : (sendOn p f s).clusters = s.clusters := rfl
@[simp] theorem sendOn_stores (p : Nat) (f : FrameOut) : (sendOn p f s).stores = s.stores := rfl
@[simp] theorem sendOn_mem (p : Nat) (f : FrameOut) : (sendOn p f s).mem = s.mem := rfl
@[simp] theorem sendOn_memPoison (p : Nat) (f : FrameOut) : (sendOn p f s).memPoison = s.memPoison := rfl
@[simp] theorem sendOn_memForms (p : Nat) (f : FrameOut) : (sendOn p f s).memForms = s.memForms := rfl
@[simp] theorem sendOn_owners (p : Nat) (f : FrameOut) : (sendOn p f s).owners = s.owners := rfl
@[simp] theorem sendOn_scrubs (p : Nat) (f : FrameOut) : (sendOn p f s).scrubs = s.scrubs := rfl
@[simp] theorem sendOn_parts (p : Nat) (f : FrameOut) : (sendOn p f s).parts = s.parts := rfl
@[simp] theorem sendOn_ctxs (p : Nat) (f : FrameOut) : (sendOn p f s).ctxs = s.ctxs := rfl
@[simp] theorem sendOn_seqs (p : Nat) (f : FrameOut) : (sendOn p f s).seqs = s.seqs := rfl
@[simp] theorem sendOn_dir (p : Nat) (f : FrameOut) : (sendOn p f s).dir = s.dir := rfl
@[simp] theorem sendOn_sq (p : Nat) (f : FrameOut) : (sendOn p f s).sq = s.sq := rfl
@[simp] theorem sendOn_cq (p : Nat) (f : FrameOut) : (sendOn p f s).cq = s.cq := rfl
@[simp] theorem sendOn_tq (p : Nat) (f : FrameOut) : (sendOn p f s).tq = s.tq := rfl
@[simp] theorem sendOn_heldRecs (p : Nat) (f : FrameOut) : (sendOn p f s).heldRecs = s.heldRecs := rfl
@[simp] theorem sendOn_fns (p : Nat) (f : FrameOut) : (sendOn p f s).fns = s.fns := rfl
@[simp] theorem sendOn_link (p : Nat) (f : FrameOut) : (sendOn p f s).link = s.link := rfl
@[simp] theorem sendOn_hostOut (p : Nat) (f : FrameOut) : (sendOn p f s).hostOut = s.hostOut := rfl
@[simp] theorem sendOn_marks (p : Nat) (f : FrameOut) : (sendOn p f s).marks = s.marks := rfl
@[simp] theorem sendOn_net (p : Nat) (f : FrameOut) : (sendOn p f s).net = s.net := rfl
@[simp] theorem sendOn_chans (p : Nat) (f : FrameOut) : (sendOn p f s).chans = s.chans := rfl
@[simp] theorem sendOn_dimmWork (p : Nat) (f : FrameOut) : (sendOn p f s).dimmWork = s.dimmWork := rfl
@[simp] theorem sendOn_dimm (p : Nat) (f : FrameOut) : (sendOn p f s).dimm = s.dimm := rfl
@[simp] theorem sendOn_dimmBad (p : Nat) (f : FrameOut) : (sendOn p f s).dimmBad = s.dimmBad := rfl
@[simp] theorem sendOn_reck (p : Nat) (f : FrameOut) : (sendOn p f s).reck = s.reck := rfl
@[simp] theorem sendOn_power (p : Nat) (f : FrameOut) : (sendOn p f s).power = s.power := rfl
@[simp] theorem sendOn_errs (p : Nat) (f : FrameOut) : (sendOn p f s).errs = s.errs := rfl
@[simp] theorem sendOn_mgmt (p : Nat) (f : FrameOut) : (sendOn p f s).mgmt = s.mgmt := rfl
@[simp] theorem sendOn_update (p : Nat) (f : FrameOut) : (sendOn p f s).update = s.update := rfl

/-! ### sendFrame -/

@[simp] theorem sendFrame_pending (f : FrameOut) : (sendFrame f s).pending = s.pending := by
  unfold sendFrame; (try dsimp only); repeat' split
  all_goals simp
@[simp] theorem sendFrame_freeIx (f : FrameOut) : (sendFrame f s).freeIx = s.freeIx := by
  unfold sendFrame; (try dsimp only); repeat' split
  all_goals simp
@[simp] theorem sendFrame_serial (f : FrameOut) : (sendFrame f s).serial = s.serial := by
  unfold sendFrame; (try dsimp only); repeat' split
  all_goals simp
@[simp] theorem sendFrame_life (f : FrameOut) : (sendFrame f s).life = s.life := by
  unfold sendFrame; (try dsimp only); repeat' split
  all_goals simp
@[simp] theorem sendFrame_build (f : FrameOut) : (sendFrame f s).build = s.build := by
  unfold sendFrame; (try dsimp only); repeat' split
  all_goals simp
@[simp] theorem sendFrame_flash0 (f : FrameOut) : (sendFrame f s).flash0 = s.flash0 := by
  unfold sendFrame; (try dsimp only); repeat' split
  all_goals simp
@[simp] theorem sendFrame_flash1 (f : FrameOut) : (sendFrame f s).flash1 = s.flash1 := by
  unfold sendFrame; (try dsimp only); repeat' split
  all_goals simp
@[simp] theorem sendFrame_log (f : FrameOut) : (sendFrame f s).log = s.log := by
  unfold sendFrame; (try dsimp only); repeat' split
  all_goals simp
@[simp] theorem sendFrame_settings (f : FrameOut) : (sendFrame f s).settings = s.settings := by
  unfold sendFrame; (try dsimp only); repeat' split
  all_goals simp
@[simp] theorem sendFrame_bin (f : FrameOut) : (sendFrame f s).bin = s.bin := by
  unfold sendFrame; (try dsimp only); repeat' split
  all_goals simp
@[simp] theorem sendFrame_wafer (f : FrameOut) : (sendFrame f s).wafer = s.wafer := by
  unfold sendFrame; (try dsimp only); repeat' split
  all_goals simp
@[simp] theorem sendFrame_sites (f : FrameOut) : (sendFrame f s).sites = s.sites := by
  unfold sendFrame; (try dsimp only); repeat' split
  all_goals simp
@[simp] theorem sendFrame_dies (f : FrameOut) : (sendFrame f s).dies = s.dies := by
  unfold sendFrame; (try dsimp only); repeat' split
  all_goals simp
@[simp] theorem sendFrame_clusters (f : FrameOut) : (sendFrame f s).clusters = s.clusters := by
  unfold sendFrame; (try dsimp only); repeat' split
  all_goals simp
@[simp] theorem sendFrame_stores (f : FrameOut) : (sendFrame f s).stores = s.stores := by
  unfold sendFrame; (try dsimp only); repeat' split
  all_goals simp
@[simp] theorem sendFrame_mem (f : FrameOut) : (sendFrame f s).mem = s.mem := by
  unfold sendFrame; (try dsimp only); repeat' split
  all_goals simp
@[simp] theorem sendFrame_memPoison (f : FrameOut) : (sendFrame f s).memPoison = s.memPoison := by
  unfold sendFrame; (try dsimp only); repeat' split
  all_goals simp
@[simp] theorem sendFrame_memForms (f : FrameOut) : (sendFrame f s).memForms = s.memForms := by
  unfold sendFrame; (try dsimp only); repeat' split
  all_goals simp
@[simp] theorem sendFrame_owners (f : FrameOut) : (sendFrame f s).owners = s.owners := by
  unfold sendFrame; (try dsimp only); repeat' split
  all_goals simp
@[simp] theorem sendFrame_scrubs (f : FrameOut) : (sendFrame f s).scrubs = s.scrubs := by
  unfold sendFrame; (try dsimp only); repeat' split
  all_goals simp
@[simp] theorem sendFrame_parts (f : FrameOut) : (sendFrame f s).parts = s.parts := by
  unfold sendFrame; (try dsimp only); repeat' split
  all_goals simp
@[simp] theorem sendFrame_ctxs (f : FrameOut) : (sendFrame f s).ctxs = s.ctxs := by
  unfold sendFrame; (try dsimp only); repeat' split
  all_goals simp
@[simp] theorem sendFrame_seqs (f : FrameOut) : (sendFrame f s).seqs = s.seqs := by
  unfold sendFrame; (try dsimp only); repeat' split
  all_goals simp
@[simp] theorem sendFrame_dir (f : FrameOut) : (sendFrame f s).dir = s.dir := by
  unfold sendFrame; (try dsimp only); repeat' split
  all_goals simp
@[simp] theorem sendFrame_sq (f : FrameOut) : (sendFrame f s).sq = s.sq := by
  unfold sendFrame; (try dsimp only); repeat' split
  all_goals simp
@[simp] theorem sendFrame_cq (f : FrameOut) : (sendFrame f s).cq = s.cq := by
  unfold sendFrame; (try dsimp only); repeat' split
  all_goals simp
@[simp] theorem sendFrame_tq (f : FrameOut) : (sendFrame f s).tq = s.tq := by
  unfold sendFrame; (try dsimp only); repeat' split
  all_goals simp
@[simp] theorem sendFrame_heldRecs (f : FrameOut) : (sendFrame f s).heldRecs = s.heldRecs := by
  unfold sendFrame; (try dsimp only); repeat' split
  all_goals simp
@[simp] theorem sendFrame_fns (f : FrameOut) : (sendFrame f s).fns = s.fns := by
  unfold sendFrame; (try dsimp only); repeat' split
  all_goals simp
@[simp] theorem sendFrame_link (f : FrameOut) : (sendFrame f s).link = s.link := by
  unfold sendFrame; (try dsimp only); repeat' split
  all_goals simp
@[simp] theorem sendFrame_hostOut (f : FrameOut) : (sendFrame f s).hostOut = s.hostOut := by
  unfold sendFrame; (try dsimp only); repeat' split
  all_goals simp
@[simp] theorem sendFrame_marks (f : FrameOut) : (sendFrame f s).marks = s.marks := by
  unfold sendFrame; (try dsimp only); repeat' split
  all_goals simp
@[simp] theorem sendFrame_net (f : FrameOut) : (sendFrame f s).net = s.net := by
  unfold sendFrame; (try dsimp only); repeat' split
  all_goals simp
@[simp] theorem sendFrame_chans (f : FrameOut) : (sendFrame f s).chans = s.chans := by
  unfold sendFrame; (try dsimp only); repeat' split
  all_goals simp
@[simp] theorem sendFrame_dimmWork (f : FrameOut) : (sendFrame f s).dimmWork = s.dimmWork := by
  unfold sendFrame; (try dsimp only); repeat' split
  all_goals simp
@[simp] theorem sendFrame_dimm (f : FrameOut) : (sendFrame f s).dimm = s.dimm := by
  unfold sendFrame; (try dsimp only); repeat' split
  all_goals simp
@[simp] theorem sendFrame_dimmBad (f : FrameOut) : (sendFrame f s).dimmBad = s.dimmBad := by
  unfold sendFrame; (try dsimp only); repeat' split
  all_goals simp
@[simp] theorem sendFrame_reck (f : FrameOut) : (sendFrame f s).reck = s.reck := by
  unfold sendFrame; (try dsimp only); repeat' split
  all_goals simp
@[simp] theorem sendFrame_power (f : FrameOut) : (sendFrame f s).power = s.power := by
  unfold sendFrame; (try dsimp only); repeat' split
  all_goals simp
@[simp] theorem sendFrame_errs (f : FrameOut) : (sendFrame f s).errs = s.errs := by
  unfold sendFrame; (try dsimp only); repeat' split
  all_goals simp
@[simp] theorem sendFrame_mgmt (f : FrameOut) : (sendFrame f s).mgmt = s.mgmt := by
  unfold sendFrame; (try dsimp only); repeat' split
  all_goals simp
@[simp] theorem sendFrame_update (f : FrameOut) : (sendFrame f s).update = s.update := by
  unfold sendFrame; (try dsimp only); repeat' split
  all_goals simp

/-! ### requestSite -/

@[simp] theorem requestSite_pending (i : Nat) : (requestSite i s).pending = s.pending := by
  unfold requestSite; (try dsimp only); repeat' split
  all_goals simp
@[simp] theorem requestSite_freeIx (i : Nat) : (requestSite i s).freeIx = s.freeIx := by
  unfold requestSite; (try dsimp only); repeat' split
  all_goals simp
@[simp] theorem requestSite_serial (i : Nat) : (requestSite i s).serial = s.serial := by
  unfold requestSite; (try dsimp only); repeat' split
  all_goals simp
@[simp] theorem requestSite_life (i : Nat) : (requestSite i s).life = s.life := by
  unfold requestSite; (try dsimp only); repeat' split
  all_goals simp
@[simp] theorem requestSite_build (i : Nat) : (requestSite i s).build = s.build := by
  unfold requestSite; (try dsimp only); repeat' split
  all_goals simp
@[simp] theorem requestSite_flash0 (i : Nat) : (requestSite i s).flash0 = s.flash0 := by
  unfold requestSite; (try dsimp only); repeat' split
  all_goals simp
@[simp] theorem requestSite_flash1 (i : Nat) : (requestSite i s).flash1 = s.flash1 := by
  unfold requestSite; (try dsimp only); repeat' split
  all_goals simp
@[simp] theorem requestSite_log (i : Nat) : (requestSite i s).log = s.log := by
  unfold requestSite; (try dsimp only); repeat' split
  all_goals simp
@[simp] theorem requestSite_settings (i : Nat) : (requestSite i s).settings = s.settings := by
  unfold requestSite; (try dsimp only); repeat' split
  all_goals simp
@[simp] theorem requestSite_bin (i : Nat) : (requestSite i s).bin = s.bin := by
  unfold requestSite; (try dsimp only); repeat' split
  all_goals simp
@[simp] theorem requestSite_wafer (i : Nat) : (requestSite i s).wafer = s.wafer := by
  unfold requestSite; (try dsimp only); repeat' split
  all_goals simp
@[simp] theorem requestSite_dies (i : Nat) : (requestSite i s).dies = s.dies := by
  unfold requestSite; (try dsimp only); repeat' split
  all_goals simp
@[simp] theorem requestSite_clusters (i : Nat) : (requestSite i s).clusters = s.clusters := by
  unfold requestSite; (try dsimp only); repeat' split
  all_goals simp
@[simp] theorem requestSite_stores (i : Nat) : (requestSite i s).stores = s.stores := by
  unfold requestSite; (try dsimp only); repeat' split
  all_goals simp
@[simp] theorem requestSite_mem (i : Nat) : (requestSite i s).mem = s.mem := by
  unfold requestSite; (try dsimp only); repeat' split
  all_goals simp
@[simp] theorem requestSite_memPoison (i : Nat) : (requestSite i s).memPoison = s.memPoison := by
  unfold requestSite; (try dsimp only); repeat' split
  all_goals simp
@[simp] theorem requestSite_memForms (i : Nat) : (requestSite i s).memForms = s.memForms := by
  unfold requestSite; (try dsimp only); repeat' split
  all_goals simp
@[simp] theorem requestSite_owners (i : Nat) : (requestSite i s).owners = s.owners := by
  unfold requestSite; (try dsimp only); repeat' split
  all_goals simp
@[simp] theorem requestSite_scrubs (i : Nat) : (requestSite i s).scrubs = s.scrubs := by
  unfold requestSite; (try dsimp only); repeat' split
  all_goals simp
@[simp] theorem requestSite_parts (i : Nat) : (requestSite i s).parts = s.parts := by
  unfold requestSite; (try dsimp only); repeat' split
  all_goals simp
@[simp] theorem requestSite_ctxs (i : Nat) : (requestSite i s).ctxs = s.ctxs := by
  unfold requestSite; (try dsimp only); repeat' split
  all_goals simp
@[simp] theorem requestSite_seqs (i : Nat) : (requestSite i s).seqs = s.seqs := by
  unfold requestSite; (try dsimp only); repeat' split
  all_goals simp
@[simp] theorem requestSite_dir (i : Nat) : (requestSite i s).dir = s.dir := by
  unfold requestSite; (try dsimp only); repeat' split
  all_goals simp
@[simp] theorem requestSite_sq (i : Nat) : (requestSite i s).sq = s.sq := by
  unfold requestSite; (try dsimp only); repeat' split
  all_goals simp
@[simp] theorem requestSite_cq (i : Nat) : (requestSite i s).cq = s.cq := by
  unfold requestSite; (try dsimp only); repeat' split
  all_goals simp
@[simp] theorem requestSite_tq (i : Nat) : (requestSite i s).tq = s.tq := by
  unfold requestSite; (try dsimp only); repeat' split
  all_goals simp
@[simp] theorem requestSite_heldRecs (i : Nat) : (requestSite i s).heldRecs = s.heldRecs := by
  unfold requestSite; (try dsimp only); repeat' split
  all_goals simp
@[simp] theorem requestSite_fns (i : Nat) : (requestSite i s).fns = s.fns := by
  unfold requestSite; (try dsimp only); repeat' split
  all_goals simp
@[simp] theorem requestSite_link (i : Nat) : (requestSite i s).link = s.link := by
  unfold requestSite; (try dsimp only); repeat' split
  all_goals simp
@[simp] theorem requestSite_hostOut (i : Nat) : (requestSite i s).hostOut = s.hostOut := by
  unfold requestSite; (try dsimp only); repeat' split
  all_goals simp
@[simp] theorem requestSite_marks (i : Nat) : (requestSite i s).marks = s.marks := by
  unfold requestSite; (try dsimp only); repeat' split
  all_goals simp
@[simp] theorem requestSite_net (i : Nat) : (requestSite i s).net = s.net := by
  unfold requestSite; (try dsimp only); repeat' split
  all_goals simp
@[simp] theorem requestSite_chans (i : Nat) : (requestSite i s).chans = s.chans := by
  unfold requestSite; (try dsimp only); repeat' split
  all_goals simp
@[simp] theorem requestSite_dimmWork (i : Nat) : (requestSite i s).dimmWork = s.dimmWork := by
  unfold requestSite; (try dsimp only); repeat' split
  all_goals simp
@[simp] theorem requestSite_dimm (i : Nat) : (requestSite i s).dimm = s.dimm := by
  unfold requestSite; (try dsimp only); repeat' split
  all_goals simp
@[simp] theorem requestSite_dimmBad (i : Nat) : (requestSite i s).dimmBad = s.dimmBad := by
  unfold requestSite; (try dsimp only); repeat' split
  all_goals simp
@[simp] theorem requestSite_reck (i : Nat) : (requestSite i s).reck = s.reck := by
  unfold requestSite; (try dsimp only); repeat' split
  all_goals simp
@[simp] theorem requestSite_errs (i : Nat) : (requestSite i s).errs = s.errs := by
  unfold requestSite; (try dsimp only); repeat' split
  all_goals simp
@[simp] theorem requestSite_mgmt (i : Nat) : (requestSite i s).mgmt = s.mgmt := by
  unfold requestSite; (try dsimp only); repeat' split
  all_goals simp
@[simp] theorem requestSite_pair (i : Nat) : (requestSite i s).pair = s.pair := by
  unfold requestSite; (try dsimp only); repeat' split
  all_goals simp
@[simp] theorem requestSite_update (i : Nat) : (requestSite i s).update = s.update := by
  unfold requestSite; (try dsimp only); repeat' split
  all_goals simp

/-! ### requestWaves -/

@[simp] theorem requestWaves_pending (is : List Nat) : (requestWaves is s).pending = s.pending := rfl
@[simp] theorem requestWaves_freeIx (is : List Nat) : (requestWaves is s).freeIx = s.freeIx := rfl
@[simp] theorem requestWaves_serial (is : List Nat) : (requestWaves is s).serial = s.serial := rfl
@[simp] theorem requestWaves_life (is : List Nat) : (requestWaves is s).life = s.life := rfl
@[simp] theorem requestWaves_build (is : List Nat) : (requestWaves is s).build = s.build := rfl
@[simp] theorem requestWaves_flash0 (is : List Nat) : (requestWaves is s).flash0 = s.flash0 := rfl
@[simp] theorem requestWaves_flash1 (is : List Nat) : (requestWaves is s).flash1 = s.flash1 := rfl
@[simp] theorem requestWaves_log (is : List Nat) : (requestWaves is s).log = s.log := rfl
@[simp] theorem requestWaves_settings (is : List Nat) : (requestWaves is s).settings = s.settings := rfl
@[simp] theorem requestWaves_bin (is : List Nat) : (requestWaves is s).bin = s.bin := rfl
@[simp] theorem requestWaves_wafer (is : List Nat) : (requestWaves is s).wafer = s.wafer := rfl
@[simp] theorem requestWaves_sites (is : List Nat) : (requestWaves is s).sites = s.sites := rfl
@[simp] theorem requestWaves_dies (is : List Nat) : (requestWaves is s).dies = s.dies := rfl
@[simp] theorem requestWaves_clusters (is : List Nat) : (requestWaves is s).clusters = s.clusters := rfl
@[simp] theorem requestWaves_stores (is : List Nat) : (requestWaves is s).stores = s.stores := rfl
@[simp] theorem requestWaves_mem (is : List Nat) : (requestWaves is s).mem = s.mem := rfl
@[simp] theorem requestWaves_memPoison (is : List Nat) : (requestWaves is s).memPoison = s.memPoison := rfl
@[simp] theorem requestWaves_memForms (is : List Nat) : (requestWaves is s).memForms = s.memForms := rfl
@[simp] theorem requestWaves_owners (is : List Nat) : (requestWaves is s).owners = s.owners := rfl
@[simp] theorem requestWaves_scrubs (is : List Nat) : (requestWaves is s).scrubs = s.scrubs := rfl
@[simp] theorem requestWaves_parts (is : List Nat) : (requestWaves is s).parts = s.parts := rfl
@[simp] theorem requestWaves_ctxs (is : List Nat) : (requestWaves is s).ctxs = s.ctxs := rfl
@[simp] theorem requestWaves_seqs (is : List Nat) : (requestWaves is s).seqs = s.seqs := rfl
@[simp] theorem requestWaves_dir (is : List Nat) : (requestWaves is s).dir = s.dir := rfl
@[simp] theorem requestWaves_sq (is : List Nat) : (requestWaves is s).sq = s.sq := rfl
@[simp] theorem requestWaves_cq (is : List Nat) : (requestWaves is s).cq = s.cq := rfl
@[simp] theorem requestWaves_tq (is : List Nat) : (requestWaves is s).tq = s.tq := rfl
@[simp] theorem requestWaves_heldRecs (is : List Nat) : (requestWaves is s).heldRecs = s.heldRecs := rfl
@[simp] theorem requestWaves_fns (is : List Nat) : (requestWaves is s).fns = s.fns := rfl
@[simp] theorem requestWaves_link (is : List Nat) : (requestWaves is s).link = s.link := rfl
@[simp] theorem requestWaves_hostOut (is : List Nat) : (requestWaves is s).hostOut = s.hostOut := rfl
@[simp] theorem requestWaves_marks (is : List Nat) : (requestWaves is s).marks = s.marks := rfl
@[simp] theorem requestWaves_net (is : List Nat) : (requestWaves is s).net = s.net := rfl
@[simp] theorem requestWaves_chans (is : List Nat) : (requestWaves is s).chans = s.chans := rfl
@[simp] theorem requestWaves_dimmWork (is : List Nat) : (requestWaves is s).dimmWork = s.dimmWork := rfl
@[simp] theorem requestWaves_dimm (is : List Nat) : (requestWaves is s).dimm = s.dimm := rfl
@[simp] theorem requestWaves_dimmBad (is : List Nat) : (requestWaves is s).dimmBad = s.dimmBad := rfl
@[simp] theorem requestWaves_reck (is : List Nat) : (requestWaves is s).reck = s.reck := rfl
@[simp] theorem requestWaves_errs (is : List Nat) : (requestWaves is s).errs = s.errs := rfl
@[simp] theorem requestWaves_mgmt (is : List Nat) : (requestWaves is s).mgmt = s.mgmt := rfl
@[simp] theorem requestWaves_pair (is : List Nat) : (requestWaves is s).pair = s.pair := rfl
@[simp] theorem requestWaves_update (is : List Nat) : (requestWaves is s).update = s.update := rfl

/-! ### requestRemoval -/

@[simp] theorem requestRemoval_pending (ch : Nat) : (requestRemoval ch s).pending = s.pending := by
  unfold requestRemoval; (try dsimp only); repeat' split
  all_goals simp
@[simp] theorem requestRemoval_freeIx (ch : Nat) : (requestRemoval ch s).freeIx = s.freeIx := by
  unfold requestRemoval; (try dsimp only); repeat' split
  all_goals simp
@[simp] theorem requestRemoval_serial (ch : Nat) : (requestRemoval ch s).serial = s.serial := by
  unfold requestRemoval; (try dsimp only); repeat' split
  all_goals simp
@[simp] theorem requestRemoval_life (ch : Nat) : (requestRemoval ch s).life = s.life := by
  unfold requestRemoval; (try dsimp only); repeat' split
  all_goals simp
@[simp] theorem requestRemoval_build (ch : Nat) : (requestRemoval ch s).build = s.build := by
  unfold requestRemoval; (try dsimp only); repeat' split
  all_goals simp
@[simp] theorem requestRemoval_flash0 (ch : Nat) : (requestRemoval ch s).flash0 = s.flash0 := by
  unfold requestRemoval; (try dsimp only); repeat' split
  all_goals simp
@[simp] theorem requestRemoval_flash1 (ch : Nat) : (requestRemoval ch s).flash1 = s.flash1 := by
  unfold requestRemoval; (try dsimp only); repeat' split
  all_goals simp
@[simp] theorem requestRemoval_log (ch : Nat) : (requestRemoval ch s).log = s.log := by
  unfold requestRemoval; (try dsimp only); repeat' split
  all_goals simp
@[simp] theorem requestRemoval_settings (ch : Nat) : (requestRemoval ch s).settings = s.settings := by
  unfold requestRemoval; (try dsimp only); repeat' split
  all_goals simp
@[simp] theorem requestRemoval_bin (ch : Nat) : (requestRemoval ch s).bin = s.bin := by
  unfold requestRemoval; (try dsimp only); repeat' split
  all_goals simp
@[simp] theorem requestRemoval_wafer (ch : Nat) : (requestRemoval ch s).wafer = s.wafer := by
  unfold requestRemoval; (try dsimp only); repeat' split
  all_goals simp
@[simp] theorem requestRemoval_sites (ch : Nat) : (requestRemoval ch s).sites = s.sites := by
  unfold requestRemoval; (try dsimp only); repeat' split
  all_goals simp
@[simp] theorem requestRemoval_dies (ch : Nat) : (requestRemoval ch s).dies = s.dies := by
  unfold requestRemoval; (try dsimp only); repeat' split
  all_goals simp
@[simp] theorem requestRemoval_clusters (ch : Nat) : (requestRemoval ch s).clusters = s.clusters := by
  unfold requestRemoval; (try dsimp only); repeat' split
  all_goals simp
@[simp] theorem requestRemoval_stores (ch : Nat) : (requestRemoval ch s).stores = s.stores := by
  unfold requestRemoval; (try dsimp only); repeat' split
  all_goals simp
@[simp] theorem requestRemoval_mem (ch : Nat) : (requestRemoval ch s).mem = s.mem := by
  unfold requestRemoval; (try dsimp only); repeat' split
  all_goals simp
@[simp] theorem requestRemoval_memPoison (ch : Nat) : (requestRemoval ch s).memPoison = s.memPoison := by
  unfold requestRemoval; (try dsimp only); repeat' split
  all_goals simp
@[simp] theorem requestRemoval_memForms (ch : Nat) : (requestRemoval ch s).memForms = s.memForms := by
  unfold requestRemoval; (try dsimp only); repeat' split
  all_goals simp
@[simp] theorem requestRemoval_owners (ch : Nat) : (requestRemoval ch s).owners = s.owners := by
  unfold requestRemoval; (try dsimp only); repeat' split
  all_goals simp
@[simp] theorem requestRemoval_scrubs (ch : Nat) : (requestRemoval ch s).scrubs = s.scrubs := by
  unfold requestRemoval; (try dsimp only); repeat' split
  all_goals simp
@[simp] theorem requestRemoval_parts (ch : Nat) : (requestRemoval ch s).parts = s.parts := by
  unfold requestRemoval; (try dsimp only); repeat' split
  all_goals simp
@[simp] theorem requestRemoval_ctxs (ch : Nat) : (requestRemoval ch s).ctxs = s.ctxs := by
  unfold requestRemoval; (try dsimp only); repeat' split
  all_goals simp
@[simp] theorem requestRemoval_seqs (ch : Nat) : (requestRemoval ch s).seqs = s.seqs := by
  unfold requestRemoval; (try dsimp only); repeat' split
  all_goals simp
@[simp] theorem requestRemoval_dir (ch : Nat) : (requestRemoval ch s).dir = s.dir := by
  unfold requestRemoval; (try dsimp only); repeat' split
  all_goals simp
@[simp] theorem requestRemoval_sq (ch : Nat) : (requestRemoval ch s).sq = s.sq := by
  unfold requestRemoval; (try dsimp only); repeat' split
  all_goals simp
@[simp] theorem requestRemoval_cq (ch : Nat) : (requestRemoval ch s).cq = s.cq := by
  unfold requestRemoval; (try dsimp only); repeat' split
  all_goals simp
@[simp] theorem requestRemoval_tq (ch : Nat) : (requestRemoval ch s).tq = s.tq := by
  unfold requestRemoval; (try dsimp only); repeat' split
  all_goals simp
@[simp] theorem requestRemoval_heldRecs (ch : Nat) : (requestRemoval ch s).heldRecs = s.heldRecs := by
  unfold requestRemoval; (try dsimp only); repeat' split
  all_goals simp
@[simp] theorem requestRemoval_fns (ch : Nat) : (requestRemoval ch s).fns = s.fns := by
  unfold requestRemoval; (try dsimp only); repeat' split
  all_goals simp
@[simp] theorem requestRemoval_link (ch : Nat) : (requestRemoval ch s).link = s.link := by
  unfold requestRemoval; (try dsimp only); repeat' split
  all_goals simp
@[simp] theorem requestRemoval_hostOut (ch : Nat) : (requestRemoval ch s).hostOut = s.hostOut := by
  unfold requestRemoval; (try dsimp only); repeat' split
  all_goals simp
@[simp] theorem requestRemoval_marks (ch : Nat) : (requestRemoval ch s).marks = s.marks := by
  unfold requestRemoval; (try dsimp only); repeat' split
  all_goals simp
@[simp] theorem requestRemoval_net (ch : Nat) : (requestRemoval ch s).net = s.net := by
  unfold requestRemoval; (try dsimp only); repeat' split
  all_goals simp
@[simp] theorem requestRemoval_chans (ch : Nat) : (requestRemoval ch s).chans = s.chans := by
  unfold requestRemoval; (try dsimp only); repeat' split
  all_goals simp
@[simp] theorem requestRemoval_dimm (ch : Nat) : (requestRemoval ch s).dimm = s.dimm := by
  unfold requestRemoval; (try dsimp only); repeat' split
  all_goals simp
@[simp] theorem requestRemoval_dimmBad (ch : Nat) : (requestRemoval ch s).dimmBad = s.dimmBad := by
  unfold requestRemoval; (try dsimp only); repeat' split
  all_goals simp
@[simp] theorem requestRemoval_reck (ch : Nat) : (requestRemoval ch s).reck = s.reck := by
  unfold requestRemoval; (try dsimp only); repeat' split
  all_goals simp
@[simp] theorem requestRemoval_power (ch : Nat) : (requestRemoval ch s).power = s.power := by
  unfold requestRemoval; (try dsimp only); repeat' split
  all_goals simp
@[simp] theorem requestRemoval_errs (ch : Nat) : (requestRemoval ch s).errs = s.errs := by
  unfold requestRemoval; (try dsimp only); repeat' split
  all_goals simp
@[simp] theorem requestRemoval_mgmt (ch : Nat) : (requestRemoval ch s).mgmt = s.mgmt := by
  unfold requestRemoval; (try dsimp only); repeat' split
  all_goals simp
@[simp] theorem requestRemoval_pair (ch : Nat) : (requestRemoval ch s).pair = s.pair := by
  unfold requestRemoval; (try dsimp only); repeat' split
  all_goals simp
@[simp] theorem requestRemoval_update (ch : Nat) : (requestRemoval ch s).update = s.update := by
  unfold requestRemoval; (try dsimp only); repeat' split
  all_goals simp

/-! ### requestTakeOut -/

@[simp] theorem requestTakeOut_pending (ch : Nat) : (requestTakeOut ch s).pending = s.pending := by
  unfold requestTakeOut; (try dsimp only); repeat' split
  all_goals simp
@[simp] theorem requestTakeOut_freeIx (ch : Nat) : (requestTakeOut ch s).freeIx = s.freeIx := by
  unfold requestTakeOut; (try dsimp only); repeat' split
  all_goals simp
@[simp] theorem requestTakeOut_serial (ch : Nat) : (requestTakeOut ch s).serial = s.serial := by
  unfold requestTakeOut; (try dsimp only); repeat' split
  all_goals simp
@[simp] theorem requestTakeOut_life (ch : Nat) : (requestTakeOut ch s).life = s.life := by
  unfold requestTakeOut; (try dsimp only); repeat' split
  all_goals simp
@[simp] theorem requestTakeOut_build (ch : Nat) : (requestTakeOut ch s).build = s.build := by
  unfold requestTakeOut; (try dsimp only); repeat' split
  all_goals simp
@[simp] theorem requestTakeOut_flash0 (ch : Nat) : (requestTakeOut ch s).flash0 = s.flash0 := by
  unfold requestTakeOut; (try dsimp only); repeat' split
  all_goals simp
@[simp] theorem requestTakeOut_flash1 (ch : Nat) : (requestTakeOut ch s).flash1 = s.flash1 := by
  unfold requestTakeOut; (try dsimp only); repeat' split
  all_goals simp
@[simp] theorem requestTakeOut_log (ch : Nat) : (requestTakeOut ch s).log = s.log := by
  unfold requestTakeOut; (try dsimp only); repeat' split
  all_goals simp
@[simp] theorem requestTakeOut_settings (ch : Nat) : (requestTakeOut ch s).settings = s.settings := by
  unfold requestTakeOut; (try dsimp only); repeat' split
  all_goals simp
@[simp] theorem requestTakeOut_bin (ch : Nat) : (requestTakeOut ch s).bin = s.bin := by
  unfold requestTakeOut; (try dsimp only); repeat' split
  all_goals simp
@[simp] theorem requestTakeOut_wafer (ch : Nat) : (requestTakeOut ch s).wafer = s.wafer := by
  unfold requestTakeOut; (try dsimp only); repeat' split
  all_goals simp
@[simp] theorem requestTakeOut_sites (ch : Nat) : (requestTakeOut ch s).sites = s.sites := by
  unfold requestTakeOut; (try dsimp only); repeat' split
  all_goals simp
@[simp] theorem requestTakeOut_dies (ch : Nat) : (requestTakeOut ch s).dies = s.dies := by
  unfold requestTakeOut; (try dsimp only); repeat' split
  all_goals simp
@[simp] theorem requestTakeOut_clusters (ch : Nat) : (requestTakeOut ch s).clusters = s.clusters := by
  unfold requestTakeOut; (try dsimp only); repeat' split
  all_goals simp
@[simp] theorem requestTakeOut_stores (ch : Nat) : (requestTakeOut ch s).stores = s.stores := by
  unfold requestTakeOut; (try dsimp only); repeat' split
  all_goals simp
@[simp] theorem requestTakeOut_mem (ch : Nat) : (requestTakeOut ch s).mem = s.mem := by
  unfold requestTakeOut; (try dsimp only); repeat' split
  all_goals simp
@[simp] theorem requestTakeOut_memPoison (ch : Nat) : (requestTakeOut ch s).memPoison = s.memPoison := by
  unfold requestTakeOut; (try dsimp only); repeat' split
  all_goals simp
@[simp] theorem requestTakeOut_memForms (ch : Nat) : (requestTakeOut ch s).memForms = s.memForms := by
  unfold requestTakeOut; (try dsimp only); repeat' split
  all_goals simp
@[simp] theorem requestTakeOut_owners (ch : Nat) : (requestTakeOut ch s).owners = s.owners := by
  unfold requestTakeOut; (try dsimp only); repeat' split
  all_goals simp
@[simp] theorem requestTakeOut_scrubs (ch : Nat) : (requestTakeOut ch s).scrubs = s.scrubs := by
  unfold requestTakeOut; (try dsimp only); repeat' split
  all_goals simp
@[simp] theorem requestTakeOut_parts (ch : Nat) : (requestTakeOut ch s).parts = s.parts := by
  unfold requestTakeOut; (try dsimp only); repeat' split
  all_goals simp
@[simp] theorem requestTakeOut_ctxs (ch : Nat) : (requestTakeOut ch s).ctxs = s.ctxs := by
  unfold requestTakeOut; (try dsimp only); repeat' split
  all_goals simp
@[simp] theorem requestTakeOut_seqs (ch : Nat) : (requestTakeOut ch s).seqs = s.seqs := by
  unfold requestTakeOut; (try dsimp only); repeat' split
  all_goals simp
@[simp] theorem requestTakeOut_dir (ch : Nat) : (requestTakeOut ch s).dir = s.dir := by
  unfold requestTakeOut; (try dsimp only); repeat' split
  all_goals simp
@[simp] theorem requestTakeOut_sq (ch : Nat) : (requestTakeOut ch s).sq = s.sq := by
  unfold requestTakeOut; (try dsimp only); repeat' split
  all_goals simp
@[simp] theorem requestTakeOut_cq (ch : Nat) : (requestTakeOut ch s).cq = s.cq := by
  unfold requestTakeOut; (try dsimp only); repeat' split
  all_goals simp
@[simp] theorem requestTakeOut_tq (ch : Nat) : (requestTakeOut ch s).tq = s.tq := by
  unfold requestTakeOut; (try dsimp only); repeat' split
  all_goals simp
@[simp] theorem requestTakeOut_heldRecs (ch : Nat) : (requestTakeOut ch s).heldRecs = s.heldRecs := by
  unfold requestTakeOut; (try dsimp only); repeat' split
  all_goals simp
@[simp] theorem requestTakeOut_fns (ch : Nat) : (requestTakeOut ch s).fns = s.fns := by
  unfold requestTakeOut; (try dsimp only); repeat' split
  all_goals simp
@[simp] theorem requestTakeOut_link (ch : Nat) : (requestTakeOut ch s).link = s.link := by
  unfold requestTakeOut; (try dsimp only); repeat' split
  all_goals simp
@[simp] theorem requestTakeOut_hostOut (ch : Nat) : (requestTakeOut ch s).hostOut = s.hostOut := by
  unfold requestTakeOut; (try dsimp only); repeat' split
  all_goals simp
@[simp] theorem requestTakeOut_marks (ch : Nat) : (requestTakeOut ch s).marks = s.marks := by
  unfold requestTakeOut; (try dsimp only); repeat' split
  all_goals simp
@[simp] theorem requestTakeOut_net (ch : Nat) : (requestTakeOut ch s).net = s.net := by
  unfold requestTakeOut; (try dsimp only); repeat' split
  all_goals simp
@[simp] theorem requestTakeOut_chans (ch : Nat) : (requestTakeOut ch s).chans = s.chans := by
  unfold requestTakeOut; (try dsimp only); repeat' split
  all_goals simp
@[simp] theorem requestTakeOut_dimm (ch : Nat) : (requestTakeOut ch s).dimm = s.dimm := by
  unfold requestTakeOut; (try dsimp only); repeat' split
  all_goals simp
@[simp] theorem requestTakeOut_dimmBad (ch : Nat) : (requestTakeOut ch s).dimmBad = s.dimmBad := by
  unfold requestTakeOut; (try dsimp only); repeat' split
  all_goals simp
@[simp] theorem requestTakeOut_reck (ch : Nat) : (requestTakeOut ch s).reck = s.reck := by
  unfold requestTakeOut; (try dsimp only); repeat' split
  all_goals simp
@[simp] theorem requestTakeOut_power (ch : Nat) : (requestTakeOut ch s).power = s.power := by
  unfold requestTakeOut; (try dsimp only); repeat' split
  all_goals simp
@[simp] theorem requestTakeOut_errs (ch : Nat) : (requestTakeOut ch s).errs = s.errs := by
  unfold requestTakeOut; (try dsimp only); repeat' split
  all_goals simp
@[simp] theorem requestTakeOut_mgmt (ch : Nat) : (requestTakeOut ch s).mgmt = s.mgmt := by
  unfold requestTakeOut; (try dsimp only); repeat' split
  all_goals simp
@[simp] theorem requestTakeOut_pair (ch : Nat) : (requestTakeOut ch s).pair = s.pair := by
  unfold requestTakeOut; (try dsimp only); repeat' split
  all_goals simp
@[simp] theorem requestTakeOut_update (ch : Nat) : (requestTakeOut ch s).update = s.update := by
  unfold requestTakeOut; (try dsimp only); repeat' split
  all_goals simp

/-! ### strand -/

@[simp] theorem strand_pending (pos : Nat) (south : Bool) : (strand pos south s).pending = s.pending := by
  unfold strand; (try dsimp only); repeat' split
  all_goals simp
@[simp] theorem strand_freeIx (pos : Nat) (south : Bool) : (strand pos south s).freeIx = s.freeIx := by
  unfold strand; (try dsimp only); repeat' split
  all_goals simp
@[simp] theorem strand_serial (pos : Nat) (south : Bool) : (strand pos south s).serial = s.serial := by
  unfold strand; (try dsimp only); repeat' split
  all_goals simp
@[simp] theorem strand_life (pos : Nat) (south : Bool) : (strand pos south s).life = s.life := by
  unfold strand; (try dsimp only); repeat' split
  all_goals simp
@[simp] theorem strand_build (pos : Nat) (south : Bool) : (strand pos south s).build = s.build := by
  unfold strand; (try dsimp only); repeat' split
  all_goals simp
@[simp] theorem strand_flash0 (pos : Nat) (south : Bool) : (strand pos south s).flash0 = s.flash0 := by
  unfold strand; (try dsimp only); repeat' split
  all_goals simp
@[simp] theorem strand_flash1 (pos : Nat) (south : Bool) : (strand pos south s).flash1 = s.flash1 := by
  unfold strand; (try dsimp only); repeat' split
  all_goals simp
@[simp] theorem strand_log (pos : Nat) (south : Bool) : (strand pos south s).log = s.log := by
  unfold strand; (try dsimp only); repeat' split
  all_goals simp
@[simp] theorem strand_settings (pos : Nat) (south : Bool) : (strand pos south s).settings = s.settings := by
  unfold strand; (try dsimp only); repeat' split
  all_goals simp
@[simp] theorem strand_bin (pos : Nat) (south : Bool) : (strand pos south s).bin = s.bin := by
  unfold strand; (try dsimp only); repeat' split
  all_goals simp
@[simp] theorem strand_wafer (pos : Nat) (south : Bool) : (strand pos south s).wafer = s.wafer := by
  unfold strand; (try dsimp only); repeat' split
  all_goals simp
@[simp] theorem strand_sites (pos : Nat) (south : Bool) : (strand pos south s).sites = s.sites := by
  unfold strand; (try dsimp only); repeat' split
  all_goals simp
@[simp] theorem strand_dies (pos : Nat) (south : Bool) : (strand pos south s).dies = s.dies := by
  unfold strand; (try dsimp only); repeat' split
  all_goals simp
@[simp] theorem strand_clusters (pos : Nat) (south : Bool) : (strand pos south s).clusters = s.clusters := by
  unfold strand; (try dsimp only); repeat' split
  all_goals simp
@[simp] theorem strand_stores (pos : Nat) (south : Bool) : (strand pos south s).stores = s.stores := by
  unfold strand; (try dsimp only); repeat' split
  all_goals simp
@[simp] theorem strand_mem (pos : Nat) (south : Bool) : (strand pos south s).mem = s.mem := by
  unfold strand; (try dsimp only); repeat' split
  all_goals simp
@[simp] theorem strand_memPoison (pos : Nat) (south : Bool) : (strand pos south s).memPoison = s.memPoison := by
  unfold strand; (try dsimp only); repeat' split
  all_goals simp
@[simp] theorem strand_memForms (pos : Nat) (south : Bool) : (strand pos south s).memForms = s.memForms := by
  unfold strand; (try dsimp only); repeat' split
  all_goals simp
@[simp] theorem strand_owners (pos : Nat) (south : Bool) : (strand pos south s).owners = s.owners := by
  unfold strand; (try dsimp only); repeat' split
  all_goals simp
@[simp] theorem strand_scrubs (pos : Nat) (south : Bool) : (strand pos south s).scrubs = s.scrubs := by
  unfold strand; (try dsimp only); repeat' split
  all_goals simp
@[simp] theorem strand_parts (pos : Nat) (south : Bool) : (strand pos south s).parts = s.parts := by
  unfold strand; (try dsimp only); repeat' split
  all_goals simp
@[simp] theorem strand_ctxs (pos : Nat) (south : Bool) : (strand pos south s).ctxs = s.ctxs := by
  unfold strand; (try dsimp only); repeat' split
  all_goals simp
@[simp] theorem strand_seqs (pos : Nat) (south : Bool) : (strand pos south s).seqs = s.seqs := by
  unfold strand; (try dsimp only); repeat' split
  all_goals simp
@[simp] theorem strand_dir (pos : Nat) (south : Bool) : (strand pos south s).dir = s.dir := by
  unfold strand; (try dsimp only); repeat' split
  all_goals simp
@[simp] theorem strand_sq (pos : Nat) (south : Bool) : (strand pos south s).sq = s.sq := by
  unfold strand; (try dsimp only); repeat' split
  all_goals simp
@[simp] theorem strand_cq (pos : Nat) (south : Bool) : (strand pos south s).cq = s.cq := by
  unfold strand; (try dsimp only); repeat' split
  all_goals simp
@[simp] theorem strand_tq (pos : Nat) (south : Bool) : (strand pos south s).tq = s.tq := by
  unfold strand; (try dsimp only); repeat' split
  all_goals simp
@[simp] theorem strand_heldRecs (pos : Nat) (south : Bool) : (strand pos south s).heldRecs = s.heldRecs := by
  unfold strand; (try dsimp only); repeat' split
  all_goals simp
@[simp] theorem strand_fns (pos : Nat) (south : Bool) : (strand pos south s).fns = s.fns := by
  unfold strand; (try dsimp only); repeat' split
  all_goals simp
@[simp] theorem strand_link (pos : Nat) (south : Bool) : (strand pos south s).link = s.link := by
  unfold strand; (try dsimp only); repeat' split
  all_goals simp
@[simp] theorem strand_hostOut (pos : Nat) (south : Bool) : (strand pos south s).hostOut = s.hostOut := by
  unfold strand; (try dsimp only); repeat' split
  all_goals simp
@[simp] theorem strand_marks (pos : Nat) (south : Bool) : (strand pos south s).marks = s.marks := by
  unfold strand; (try dsimp only); repeat' split
  all_goals simp
@[simp] theorem strand_chans (pos : Nat) (south : Bool) : (strand pos south s).chans = s.chans := by
  unfold strand; (try dsimp only); repeat' split
  all_goals simp
@[simp] theorem strand_dimmWork (pos : Nat) (south : Bool) : (strand pos south s).dimmWork = s.dimmWork := by
  unfold strand; (try dsimp only); repeat' split
  all_goals simp
@[simp] theorem strand_dimm (pos : Nat) (south : Bool) : (strand pos south s).dimm = s.dimm := by
  unfold strand; (try dsimp only); repeat' split
  all_goals simp
@[simp] theorem strand_dimmBad (pos : Nat) (south : Bool) : (strand pos south s).dimmBad = s.dimmBad := by
  unfold strand; (try dsimp only); repeat' split
  all_goals simp
@[simp] theorem strand_reck (pos : Nat) (south : Bool) : (strand pos south s).reck = s.reck := by
  unfold strand; (try dsimp only); repeat' split
  all_goals simp
@[simp] theorem strand_power (pos : Nat) (south : Bool) : (strand pos south s).power = s.power := by
  unfold strand; (try dsimp only); repeat' split
  all_goals simp
@[simp] theorem strand_errs (pos : Nat) (south : Bool) : (strand pos south s).errs = s.errs := by
  unfold strand; (try dsimp only); repeat' split
  all_goals simp
@[simp] theorem strand_mgmt (pos : Nat) (south : Bool) : (strand pos south s).mgmt = s.mgmt := by
  unfold strand; (try dsimp only); repeat' split
  all_goals simp
@[simp] theorem strand_pair (pos : Nat) (south : Bool) : (strand pos south s).pair = s.pair := by
  unfold strand; (try dsimp only); repeat' split
  all_goals simp
@[simp] theorem strand_update (pos : Nat) (south : Bool) : (strand pos south s).update = s.update := by
  unfold strand; (try dsimp only); repeat' split
  all_goals simp

/-! ### linkOut -/

@[simp] theorem linkOut_pending (pos : Nat) (south : Bool) : (linkOut pos south s).pending = s.pending := by
  unfold linkOut; (try dsimp only); repeat' split
  all_goals simp
@[simp] theorem linkOut_freeIx (pos : Nat) (south : Bool) : (linkOut pos south s).freeIx = s.freeIx := by
  unfold linkOut; (try dsimp only); repeat' split
  all_goals simp
@[simp] theorem linkOut_serial (pos : Nat) (south : Bool) : (linkOut pos south s).serial = s.serial := by
  unfold linkOut; (try dsimp only); repeat' split
  all_goals simp
@[simp] theorem linkOut_life (pos : Nat) (south : Bool) : (linkOut pos south s).life = s.life := by
  unfold linkOut; (try dsimp only); repeat' split
  all_goals simp
@[simp] theorem linkOut_build (pos : Nat) (south : Bool) : (linkOut pos south s).build = s.build := by
  unfold linkOut; (try dsimp only); repeat' split
  all_goals simp
@[simp] theorem linkOut_flash0 (pos : Nat) (south : Bool) : (linkOut pos south s).flash0 = s.flash0 := by
  unfold linkOut; (try dsimp only); repeat' split
  all_goals simp
@[simp] theorem linkOut_flash1 (pos : Nat) (south : Bool) : (linkOut pos south s).flash1 = s.flash1 := by
  unfold linkOut; (try dsimp only); repeat' split
  all_goals simp
@[simp] theorem linkOut_log (pos : Nat) (south : Bool) : (linkOut pos south s).log = s.log := by
  unfold linkOut; (try dsimp only); repeat' split
  all_goals simp
@[simp] theorem linkOut_settings (pos : Nat) (south : Bool) : (linkOut pos south s).settings = s.settings := by
  unfold linkOut; (try dsimp only); repeat' split
  all_goals simp
@[simp] theorem linkOut_bin (pos : Nat) (south : Bool) : (linkOut pos south s).bin = s.bin := by
  unfold linkOut; (try dsimp only); repeat' split
  all_goals simp
@[simp] theorem linkOut_sites (pos : Nat) (south : Bool) : (linkOut pos south s).sites = s.sites := by
  unfold linkOut; (try dsimp only); repeat' split
  all_goals simp
@[simp] theorem linkOut_dies (pos : Nat) (south : Bool) : (linkOut pos south s).dies = s.dies := by
  unfold linkOut; (try dsimp only); repeat' split
  all_goals simp
@[simp] theorem linkOut_clusters (pos : Nat) (south : Bool) : (linkOut pos south s).clusters = s.clusters := by
  unfold linkOut; (try dsimp only); repeat' split
  all_goals simp
@[simp] theorem linkOut_stores (pos : Nat) (south : Bool) : (linkOut pos south s).stores = s.stores := by
  unfold linkOut; (try dsimp only); repeat' split
  all_goals simp
@[simp] theorem linkOut_mem (pos : Nat) (south : Bool) : (linkOut pos south s).mem = s.mem := by
  unfold linkOut; (try dsimp only); repeat' split
  all_goals simp
@[simp] theorem linkOut_memPoison (pos : Nat) (south : Bool) : (linkOut pos south s).memPoison = s.memPoison := by
  unfold linkOut; (try dsimp only); repeat' split
  all_goals simp
@[simp] theorem linkOut_memForms (pos : Nat) (south : Bool) : (linkOut pos south s).memForms = s.memForms := by
  unfold linkOut; (try dsimp only); repeat' split
  all_goals simp
@[simp] theorem linkOut_owners (pos : Nat) (south : Bool) : (linkOut pos south s).owners = s.owners := by
  unfold linkOut; (try dsimp only); repeat' split
  all_goals simp
@[simp] theorem linkOut_scrubs (pos : Nat) (south : Bool) : (linkOut pos south s).scrubs = s.scrubs := by
  unfold linkOut; (try dsimp only); repeat' split
  all_goals simp
@[simp] theorem linkOut_parts (pos : Nat) (south : Bool) : (linkOut pos south s).parts = s.parts := by
  unfold linkOut; (try dsimp only); repeat' split
  all_goals simp
@[simp] theorem linkOut_ctxs (pos : Nat) (south : Bool) : (linkOut pos south s).ctxs = s.ctxs := by
  unfold linkOut; (try dsimp only); repeat' split
  all_goals simp
@[simp] theorem linkOut_seqs (pos : Nat) (south : Bool) : (linkOut pos south s).seqs = s.seqs := by
  unfold linkOut; (try dsimp only); repeat' split
  all_goals simp
@[simp] theorem linkOut_dir (pos : Nat) (south : Bool) : (linkOut pos south s).dir = s.dir := by
  unfold linkOut; (try dsimp only); repeat' split
  all_goals simp
@[simp] theorem linkOut_sq (pos : Nat) (south : Bool) : (linkOut pos south s).sq = s.sq := by
  unfold linkOut; (try dsimp only); repeat' split
  all_goals simp
@[simp] theorem linkOut_cq (pos : Nat) (south : Bool) : (linkOut pos south s).cq = s.cq := by
  unfold linkOut; (try dsimp only); repeat' split
  all_goals simp
@[simp] theorem linkOut_tq (pos : Nat) (south : Bool) : (linkOut pos south s).tq = s.tq := by
  unfold linkOut; (try dsimp only); repeat' split
  all_goals simp
@[simp] theorem linkOut_heldRecs (pos : Nat) (south : Bool) : (linkOut pos south s).heldRecs = s.heldRecs := by
  unfold linkOut; (try dsimp only); repeat' split
  all_goals simp
@[simp] theorem linkOut_fns (pos : Nat) (south : Bool) : (linkOut pos south s).fns = s.fns := by
  unfold linkOut; (try dsimp only); repeat' split
  all_goals simp
@[simp] theorem linkOut_link (pos : Nat) (south : Bool) : (linkOut pos south s).link = s.link := by
  unfold linkOut; (try dsimp only); repeat' split
  all_goals simp
@[simp] theorem linkOut_hostOut (pos : Nat) (south : Bool) : (linkOut pos south s).hostOut = s.hostOut := by
  unfold linkOut; (try dsimp only); repeat' split
  all_goals simp
@[simp] theorem linkOut_marks (pos : Nat) (south : Bool) : (linkOut pos south s).marks = s.marks := by
  unfold linkOut; (try dsimp only); repeat' split
  all_goals simp
@[simp] theorem linkOut_chans (pos : Nat) (south : Bool) : (linkOut pos south s).chans = s.chans := by
  unfold linkOut; (try dsimp only); repeat' split
  all_goals simp
@[simp] theorem linkOut_dimmWork (pos : Nat) (south : Bool) : (linkOut pos south s).dimmWork = s.dimmWork := by
  unfold linkOut; (try dsimp only); repeat' split
  all_goals simp
@[simp] theorem linkOut_dimm (pos : Nat) (south : Bool) : (linkOut pos south s).dimm = s.dimm := by
  unfold linkOut; (try dsimp only); repeat' split
  all_goals simp
@[simp] theorem linkOut_dimmBad (pos : Nat) (south : Bool) : (linkOut pos south s).dimmBad = s.dimmBad := by
  unfold linkOut; (try dsimp only); repeat' split
  all_goals simp
@[simp] theorem linkOut_reck (pos : Nat) (south : Bool) : (linkOut pos south s).reck = s.reck := by
  unfold linkOut; (try dsimp only); repeat' split
  all_goals simp
@[simp] theorem linkOut_power (pos : Nat) (south : Bool) : (linkOut pos south s).power = s.power := by
  unfold linkOut; (try dsimp only); repeat' split
  all_goals simp
@[simp] theorem linkOut_errs (pos : Nat) (south : Bool) : (linkOut pos south s).errs = s.errs := by
  unfold linkOut; (try dsimp only); repeat' split
  all_goals simp
@[simp] theorem linkOut_mgmt (pos : Nat) (south : Bool) : (linkOut pos south s).mgmt = s.mgmt := by
  unfold linkOut; (try dsimp only); repeat' split
  all_goals simp
@[simp] theorem linkOut_pair (pos : Nat) (south : Bool) : (linkOut pos south s).pair = s.pair := by
  unfold linkOut; (try dsimp only); repeat' split
  all_goals simp
@[simp] theorem linkOut_update (pos : Nat) (south : Bool) : (linkOut pos south s).update = s.update := by
  unfold linkOut; (try dsimp only); repeat' split
  all_goals simp

/-! ### setErr -/

@[simp] theorem setErr_pending (f : Nat) (n : Nat) : (setErr f n s).pending = s.pending := by
  unfold setErr; (try dsimp only); repeat' split
  all_goals simp
@[simp] theorem setErr_freeIx (f : Nat) (n : Nat) : (setErr f n s).freeIx = s.freeIx := by
  unfold setErr; (try dsimp only); repeat' split
  all_goals simp
@[simp] theorem setErr_serial (f : Nat) (n : Nat) : (setErr f n s).serial = s.serial := by
  unfold setErr; (try dsimp only); repeat' split
  all_goals simp
@[simp] theorem setErr_life (f : Nat) (n : Nat) : (setErr f n s).life = s.life := by
  unfold setErr; (try dsimp only); repeat' split
  all_goals simp
@[simp] theorem setErr_build (f : Nat) (n : Nat) : (setErr f n s).build = s.build := by
  unfold setErr; (try dsimp only); repeat' split
  all_goals simp
@[simp] theorem setErr_flash0 (f : Nat) (n : Nat) : (setErr f n s).flash0 = s.flash0 := by
  unfold setErr; (try dsimp only); repeat' split
  all_goals simp
@[simp] theorem setErr_flash1 (f : Nat) (n : Nat) : (setErr f n s).flash1 = s.flash1 := by
  unfold setErr; (try dsimp only); repeat' split
  all_goals simp
@[simp] theorem setErr_log (f : Nat) (n : Nat) : (setErr f n s).log = s.log := by
  unfold setErr; (try dsimp only); repeat' split
  all_goals simp
@[simp] theorem setErr_settings (f : Nat) (n : Nat) : (setErr f n s).settings = s.settings := by
  unfold setErr; (try dsimp only); repeat' split
  all_goals simp
@[simp] theorem setErr_bin (f : Nat) (n : Nat) : (setErr f n s).bin = s.bin := by
  unfold setErr; (try dsimp only); repeat' split
  all_goals simp
@[simp] theorem setErr_wafer (f : Nat) (n : Nat) : (setErr f n s).wafer = s.wafer := by
  unfold setErr; (try dsimp only); repeat' split
  all_goals simp
@[simp] theorem setErr_sites (f : Nat) (n : Nat) : (setErr f n s).sites = s.sites := by
  unfold setErr; (try dsimp only); repeat' split
  all_goals simp
@[simp] theorem setErr_dies (f : Nat) (n : Nat) : (setErr f n s).dies = s.dies := by
  unfold setErr; (try dsimp only); repeat' split
  all_goals simp
@[simp] theorem setErr_clusters (f : Nat) (n : Nat) : (setErr f n s).clusters = s.clusters := by
  unfold setErr; (try dsimp only); repeat' split
  all_goals simp
@[simp] theorem setErr_stores (f : Nat) (n : Nat) : (setErr f n s).stores = s.stores := by
  unfold setErr; (try dsimp only); repeat' split
  all_goals simp
@[simp] theorem setErr_mem (f : Nat) (n : Nat) : (setErr f n s).mem = s.mem := by
  unfold setErr; (try dsimp only); repeat' split
  all_goals simp
@[simp] theorem setErr_memPoison (f : Nat) (n : Nat) : (setErr f n s).memPoison = s.memPoison := by
  unfold setErr; (try dsimp only); repeat' split
  all_goals simp
@[simp] theorem setErr_memForms (f : Nat) (n : Nat) : (setErr f n s).memForms = s.memForms := by
  unfold setErr; (try dsimp only); repeat' split
  all_goals simp
@[simp] theorem setErr_owners (f : Nat) (n : Nat) : (setErr f n s).owners = s.owners := by
  unfold setErr; (try dsimp only); repeat' split
  all_goals simp
@[simp] theorem setErr_scrubs (f : Nat) (n : Nat) : (setErr f n s).scrubs = s.scrubs := by
  unfold setErr; (try dsimp only); repeat' split
  all_goals simp
@[simp] theorem setErr_parts (f : Nat) (n : Nat) : (setErr f n s).parts = s.parts := by
  unfold setErr; (try dsimp only); repeat' split
  all_goals simp
@[simp] theorem setErr_ctxs (f : Nat) (n : Nat) : (setErr f n s).ctxs = s.ctxs := by
  unfold setErr; (try dsimp only); repeat' split
  all_goals simp
@[simp] theorem setErr_seqs (f : Nat) (n : Nat) : (setErr f n s).seqs = s.seqs := by
  unfold setErr; (try dsimp only); repeat' split
  all_goals simp
@[simp] theorem setErr_dir (f : Nat) (n : Nat) : (setErr f n s).dir = s.dir := by
  unfold setErr; (try dsimp only); repeat' split
  all_goals simp
@[simp] theorem setErr_sq (f : Nat) (n : Nat) : (setErr f n s).sq = s.sq := by
  unfold setErr; (try dsimp only); repeat' split
  all_goals simp
@[simp] theorem setErr_cq (f : Nat) (n : Nat) : (setErr f n s).cq = s.cq := by
  unfold setErr; (try dsimp only); repeat' split
  all_goals simp
@[simp] theorem setErr_tq (f : Nat) (n : Nat) : (setErr f n s).tq = s.tq := by
  unfold setErr; (try dsimp only); repeat' split
  all_goals simp
@[simp] theorem setErr_heldRecs (f : Nat) (n : Nat) : (setErr f n s).heldRecs = s.heldRecs := by
  unfold setErr; (try dsimp only); repeat' split
  all_goals simp
@[simp] theorem setErr_link (f : Nat) (n : Nat) : (setErr f n s).link = s.link := by
  unfold setErr; (try dsimp only); repeat' split
  all_goals simp
@[simp] theorem setErr_hostOut (f : Nat) (n : Nat) : (setErr f n s).hostOut = s.hostOut := by
  unfold setErr; (try dsimp only); repeat' split
  all_goals simp
@[simp] theorem setErr_marks (f : Nat) (n : Nat) : (setErr f n s).marks = s.marks := by
  unfold setErr; (try dsimp only); repeat' split
  all_goals simp
@[simp] theorem setErr_net (f : Nat) (n : Nat) : (setErr f n s).net = s.net := by
  unfold setErr; (try dsimp only); repeat' split
  all_goals simp
@[simp] theorem setErr_chans (f : Nat) (n : Nat) : (setErr f n s).chans = s.chans := by
  unfold setErr; (try dsimp only); repeat' split
  all_goals simp
@[simp] theorem setErr_dimmWork (f : Nat) (n : Nat) : (setErr f n s).dimmWork = s.dimmWork := by
  unfold setErr; (try dsimp only); repeat' split
  all_goals simp
@[simp] theorem setErr_dimm (f : Nat) (n : Nat) : (setErr f n s).dimm = s.dimm := by
  unfold setErr; (try dsimp only); repeat' split
  all_goals simp
@[simp] theorem setErr_dimmBad (f : Nat) (n : Nat) : (setErr f n s).dimmBad = s.dimmBad := by
  unfold setErr; (try dsimp only); repeat' split
  all_goals simp
@[simp] theorem setErr_reck (f : Nat) (n : Nat) : (setErr f n s).reck = s.reck := by
  unfold setErr; (try dsimp only); repeat' split
  all_goals simp
@[simp] theorem setErr_power (f : Nat) (n : Nat) : (setErr f n s).power = s.power := by
  unfold setErr; (try dsimp only); repeat' split
  all_goals simp
@[simp] theorem setErr_errs (f : Nat) (n : Nat) : (setErr f n s).errs = s.errs := by
  unfold setErr; (try dsimp only); repeat' split
  all_goals simp
@[simp] theorem setErr_mgmt (f : Nat) (n : Nat) : (setErr f n s).mgmt = s.mgmt := by
  unfold setErr; (try dsimp only); repeat' split
  all_goals simp
@[simp] theorem setErr_pair (f : Nat) (n : Nat) : (setErr f n s).pair = s.pair := by
  unfold setErr; (try dsimp only); repeat' split
  all_goals simp
@[simp] theorem setErr_update (f : Nat) (n : Nat) : (setErr f n s).update = s.update := by
  unfold setErr; (try dsimp only); repeat' split
  all_goals simp

end Sys2Proof.Machine
end

