-- ==== Sys2Proof/Machine/Registers.lean ====
section
/-! DEFINITION. What the host reads: the registers of the BARs, PF 0's DVSEC, the identifiers of configuration space, and the bytes of what
the W96 writes to host memory (R4 to R6, R225, R251 to R259, R271, R275, R344).
Rests on the log entries (notes/assumptions/<n>.md) 25 (DESIGN CHOICE), 61 (PRESUMED). -/
namespace Sys2Proof.Machine

/-! ### Identifiers and capabilities (R251 to R253) -/

/-- A base address register: its size, and its kind (R252). -/
structure BarKind where
  number       : Nat
  size         : Nat
  wide         : Bool                  -- 64-bit memory
  prefetchable : Bool
  deriving DecidableEq, Repr

/-- The SR-IOV capability (R251). -/
structure Sriov where
  totalVfs    : Nat
  firstOffset : Nat
  stride      : Nat
  vfDevice    : W16
  deriving DecidableEq, Repr

/-- What the configuration space of a function tells a host: identifiers (R253), BARs (R252) and the capabilities of R251 that no register
of State varies. -/
structure ConfigHeader where
  vendor      : W16
  device      : W16
  revision    : Byte
  classCode   : BitVec 24
  headerType  : Byte
  subVendor   : W16
  subsystem   : W16
  bars        : List BarKind
  sriov       : Option Sriov
  maxPayload  : Nat
  maxReadRequest : Nat
  l1          : Bool                   -- of Active State Power Management
  l0s         : Bool
  deriving DecidableEq, Repr

/-- The ordering code that registers show: 0 while CONFIG_RECORD_INVALID (R253, R257). -/
def shownCode (s : State) : Nat := if s.build.recordBad then 0 else s.orderCode

/-- What a function presents. -/
def configHeader (s : State) (f : Fn) : ConfigHeader :=
  { vendor := if f.val = 0 then 0x1C9F else 0xFFFF, device := if f.val = 0 then 0x0096 else 0x0097, revision := Config.stepping
    classCode := 0x120000, headerType := 0, subVendor := 0x1C9F, subsystem := BitVec.ofNat 16 (shownCode s)
    bars := [barRegisters, barDoorbells].map (fun n => ⟨n, barSize f.val n, true, false⟩)
    sriov := if f.val = 0 then some ⟨8, 1, 1, 0x0097⟩ else none
    maxPayload := 512, maxReadRequest := 4096, l1 := true, l0s := false }

/-- The link enters L1 only as the host has enabled it in Link Control; L0s it never enters (R251). -/
def mayEnterL1 (l : HostLink) : Bool := l.up && bit l.aspm 1

/-- The words of BAR0 and BAR2 from an offset on: bits 3 to 0 of a low half say 64-bit memory, non-prefetchable (R252; PRESUMED:
notes/assumptions/61.md). -/
def readBars (bars : Vector W64 2) (first offset : Nat) : W32 :=
  if offset < first || decide (first + 16 ≤ offset) then 0
  else
    let a := bars[if offset < first + 8 then (0 : Fin 2) else 1]
    if (offset - first) % 8 = 0 then a.setWidth 32 ||| 4 else (a >>> 32).setWidth 32

/-- A word of the header of a function's configuration space; the BARs of a VF stand in the SR-IOV capability (PRESUMED:
notes/assumptions/61.md). -/
def readHeader (s : State) (f : Fn) (offset : Nat) : W32 :=
  let h := configHeader s f
  if offset = 0x00 then h.device ++ h.vendor
  else if offset = 0x08 then h.classCode ++ h.revision
  else if offset = 0x0C then h.headerType.setWidth 32 <<< 16
  else if offset = 0x2C then h.subsystem ++ h.subVendor
  else if f.val = 0 then readBars (s.fnr 0).bars headerBars offset
  else 0

/-- A word of PF 0's SR-IOV capability (R251; PRESUMED: notes/assumptions/61.md). -/
def readSriov (s : State) (offset : Nat) : W32 :=
  match (configHeader s 0).sriov with
  | none => 0
  | some v =>
    if offset = 0x0C then BitVec.ofNat 32 (v.totalVfs * 2 ^ 16 + v.totalVfs)
    else if offset = 0x14 then BitVec.ofNat 32 (v.stride * 2 ^ 16 + v.firstOffset)
    else if offset = 0x18 then v.vfDevice.setWidth 32 <<< 16
    else readBars s.link.vfBars sriovBars offset

/-! ### Registers (R5, R6, R255, R257 to R259) -/

/-- Bits a..a+w of a number, by a flag or a value. -/
def flag (b : Bool) (n : Nat) : W32 := if b then BitVec.ofNat 32 (2 ^ n) else 0

/-- GLB_ID. -/
def glbId (s : State) : W32 := BitVec.ofNat 32 (0x96 * 2 ^ 24 + shownCode s * 2 ^ 16 + Config.stepping.toNat * 2 ^ 8)

/-- HIF_LINK. -/
def hifLink (l : HostLink) : W32 :=
  flag l.narrow 15 ||| flag (l.up && l.flit) 14 ||| BitVec.ofNat 32 (if l.up then l.width % 64 * 2 ^ 8 + l.speed % 16 else 0)

/-- HIF_SETUP_RESULT. -/
def setupResult (r : FnRegs) : W32 := flag (r.pending.isSome || r.unread.isSome) 31 ||| r.status.setWidth 32

/-- PART_STATE.STATE. -/
def PartState.code : PartState → Nat
  | .ready => 1 | .resetting => 2 | .forming => 2 | .failed => 3

/-- The contexts of a partition, and which of them have halted, as a bitmap. -/
def partContexts (s : State) (p : Nat) : Nat := count s.ctxs (fun e => e.2.part.val == p)
def partHalted (s : State) (p : Nat) : Nat := s.ctxs.foldl (fun m e => if e.2.part.val == p && e.2.halted then m + 2 ^ e.1 else m) 0

/-- PART_STATE. -/
def partState (s : State) (p : Nat) : W32 :=
  match s.part p with
  | none => 0
  | some q => BitVec.ofNat 32 (q.groups.foldl (fun m g => m + 2 ^ g) 0 * 2 ^ 16 + partContexts s p * 2 ^ 8 + q.state.code)

/-- A register of the PART_ group, at its offset: its RO fields; WO and RSV read 0. -/
def readPart (s : State) (p offset : Nat) : W32 :=
  match offset with
  | 0x00 => partState s p
  | 0x10 => BitVec.ofNat 32 (partHalted s p)
  | 0x14 => BitVec.ofNat 32 (partHalted s p / 2 ^ 32)
  | _ => 0

/-- What a read of a register of BAR0 gives: WO and RSV fields and unlisted offsets read 0. -/
def readBar0 (s : State) (f : Fn) (offset : Nat) : W32 :=
  let r := s.fnr f.val
  match offset with
  | 0x000 => glbId s
  | 0x004 => s.update.active
  | 0x008 => s.serial.setWidth 32
  | 0x00C => (s.serial >>> 32).setWidth 32
  | 0x010 => (s.serial >>> 64).setWidth 32
  | 0x014 => (s.serial >>> 96).setWidth 32
  | 0x018 => glbStatus s
  | 0x01C => glbDimmGb s
  | 0x020 => (r.event.setWidth 32) &&& (if f.val = 0 then 0x3F else 0x28)
  | 0x024 => r.mask.setWidth 32
  | 0x100 => hifLink s.link
  | 0x104 => r.err.setWidth 32
  | 0x108 => r.sbLo
  | 0x10C => r.sbHi
  | 0x110 => r.setupLo
  | 0x114 => r.setupHi
  | 0x11C => setupResult r
  | 0x124 => r.eventVec.setWidth 32
  | _ =>
    if f.val = 0 then
      (if 0x400 ≤ offset && offset < 0x600 then readPart s ((offset - 0x400) / 0x40) ((offset - 0x400) % 0x40) else 0)
    else if 0x400 ≤ offset && offset < 0x440 then readPart s (f.val - 1) (offset - 0x400) else 0

/-- A register of the DVSEC of R344, CLK_RECK_NOW_LO apart, whose read is a command of its own. Its header has the capability ID 0x0023 and version 1
of PCI Express, DVSEC Vendor ID, revision 0 and length, and the DVSEC ID (PRESUMED: notes/assumptions/61.md). -/
def readDvsec (l : HostLink) (offset : Nat) : W32 :=
  match offset with
  | 0x00 => 0x00010023
  | 0x04 => BitVec.ofNat 32 (0x30 * 2 ^ 20 + 0x1C9F)
  | 0x08 => 0x0001
  | 0x10 => BitVec.ofNat 32 (l.ptmSeq.toNat * 2 ^ 16) ||| flag l.ptmFailed 1 ||| flag l.ptmValid 0
  | 0x14 => l.ptmHost.setWidth 32
  | 0x18 => (l.ptmHost >>> 32).setWidth 32
  | 0x1C => l.ptmReck.setWidth 32
  | 0x20 => (l.ptmReck >>> 32).setWidth 32
  | 0x24 => l.ptmDelay
  | 0x2C => l.nowHi
  | _ => 0

/-- A 32-bit entry word of a function's MSI-X table. -/
def readMsix (r : FnRegs) (offset : Nat) : W32 :=
  let e := r.vectors.getD (offset / 16) {}
  if offset % 16 = 0 then e.addr.setWidth 32
  else if offset % 16 = 4 then (e.addr >>> 32).setWidth 32
  else if offset % 16 = 8 then e.data
  else flag e.masked 0

/-- A read of a register through a function: the value, and the state after it. Another size or alignment reads 0 and sets BAD_ACCESS; BAR2,
whose registers are WO, reads 0 (R255, R260). -/
def registerRead (f : Fn) (bar offset size : Nat) (s : State) : W32 × State :=
  let r := s.fnr f.val
  if !s.link.up then (0, s)
  else if bar = barRegisters || bar = barDoorbells then
    if !accessOk offset size then (0, setErr f.val errBadAccess s)
    else (if bar = barRegisters && decide (offset < barSize f.val bar) then readBar0 s f offset else 0, s)
  else if !accessOk offset size then (0, s)
  else if bar = barMsix && decide (offset / 16 < vectorsOf f) then (readMsix r offset, s)
  else if bar = barMsixControl && offset = 0 then (flag r.msixOn 31 ||| flag r.msixMask 30 ||| BitVec.ofNat 32 ((vectorsOf f - 1) * 2 ^ 16), s)
  else if bar = barDevControl2 && offset = 0 then (r.timeout.setWidth 32, s)
  else if bar = barLinkControl && offset = 0 then (if f.val = 0 then s.link.aspm.setWidth 32 else 0, s)
  else if bar = barReports && offset = 0x04 then (r.reports.uncorrectable, s)
  else if bar = barReports && offset = 0x08 then (r.reports.uncorrectableMask, s)
  else if bar = barReports && offset = 0x10 then (r.reports.correctable, s)
  else if bar = barReports && offset = 0x14 then (r.reports.correctableMask, s)
  else if bar = barHeader then (readHeader s f offset, s)
  else if f.val ≠ 0 then (0, s)
  else if bar = barSriov then (readSriov s offset, s)
  else if bar = barDvsec then (readDvsec s.link offset, s)
  else if bar = barPtm && offset = 0 then (flag s.link.ptmEnable 0, s)
  else (0, s)

/-! ### What reaches host memory, in bytes (R4, R225, R263, R271, R275) -/

/-- The writes to host memory that an entry of hostOut is, each an address and its bytes in ascending order: multi-byte fields low byte first
(R4). -/
def HostWrite.writes : HostWrite → List (W64 × List Byte)
  | .completion _ a r => [(a, r.bytes)]
  | .token _ a r => [(a, r.bytes)]
  | .index _ a v => [(a, leBytes 4 v.toNat)]
  | .data _ a bs => [(a, bs)]
  | .statusBlock _ a ws => ws.map (fun w => (a + BitVec.ofNat 64 w.1, leBytes 4 w.2.toNat))
  | .result _ a bs => [(a, bs)]
  | .interrupt _ _ a d => [(a, leBytes 4 d.toNat)]

end Sys2Proof.Machine
end

