-- ==== Sys2Proof/Machine/Wire.lean ====
section
/-! DEFINITION. The bytes of what the module sends: event records, the records and datagrams of the health-record stream, Consort frames, digest
records and pair probes, each low byte first (R4, R400, R431 to R433, R438, R451, R472 to R474, R476 to R479).
Rests on the log entries (notes/assumptions/<n>.md) 12 (DEDUCED), 46 (DEDUCED). -/
namespace Sys2Proof.Machine

/-! ### Event records (R400) -/

/-- The 64 bytes of an event record. -/
def EventRecord.bytes (r : EventRecord) : List Byte :=
  leBytes 4 r.no.toNat ++ [r.kind, r.cls, r.outcome, r.unit.unit, r.unit.x, r.unit.y] ++ leBytes 2 r.unit.a.toNat ++ leBytes 2 r.unit.b.toNat ++ [0, 0]
    ++ leBytes 4 r.unit.c.toNat ++ [r.ctx, r.status, 0, 0] ++ leBytes 8 r.time.toNat ++ leBytes 8 r.lifeSec.toNat ++ leBytes 4 r.step.toNat
    ++ leBytes 4 r.op.toNat ++ leBytes 4 r.suspectFrom.toNat ++ leBytes 4 r.chartSeq.toNat ++ leBytes 4 r.detectNo.toNat ++ leBytes 4 0

/-! ### Fault captures and relay blocks (R111, R501) -/

/-- The 0x9_0000 bytes of a fault capture entry. -/
def Capture.bytes (k : Capture) : List Byte :=
  padList 64 0 (leBytes 4 k.step.toNat ++ leBytes 2 k.op.toNat ++ [k.ctx, if k.os then 0x01 else 0x00, k.array, k.cls, k.fmtLeft, k.fmtBcast]
      ++ leBytes 2 k.row.toNat ++ leBytes 2 k.kLen.toNat ++ leBytes 8 k.time.toNat ++ [k.tau, k.eps, 0, 0] ++ leBytes 4 k.mismatches.toNat
      ++ leBytes 8 k.diff.toNat ++ leBytes 8 k.bound.toNat)
    ++ padList 448 0 (k.results.flatMap (fun r => leBytes 4 r.toNat))
    ++ padList 8704 0 k.left ++ padList (0x90000 - 0x2400) 0 k.bcast

/-- A relay block as it goes down a chain: its header with the CRC-32 over the first twelve bytes and the data, then 4,096 bytes of image, the last
block padded with zeros. -/
def relayBytes (target : Byte) (block count : W32) (data : List Byte) : List Byte :=
  let head := [target, 0, 0, 0] ++ leBytes 4 block.toNat ++ leBytes 4 count.toNat
  let body := padList 4096 0 data
  head ++ leBytes 4 (crc32 (head ++ body)).toNat ++ body

/-! ### Stream records (R473, R474, R476 to R479) -/

/-- A record with its header: TYPE, and LENGTH with the header's own four bytes. -/
def streamRecord (type : Byte) (body : List Byte) : List Byte := [type, 0] ++ leBytes 2 (4 + body.length) ++ body

/-- Numbers laid out in fields of given widths in bytes; a number that is not there reads 0. -/
def layFields : List Nat → List Nat → List Byte
  | [], _ => []
  | w :: ws, l => leBytes w (l.headD 0) ++ layFields ws l.tail

/-- The body of the module record after TIME (R476), from the fields in order. -/
def moduleBody (l : List Nat) : List Byte :=
  layFields [8, 1, 1, 1] (l.take 4) ++ [0] ++ layFields [4, 4, 4, 2, 2, 4, 1, 1, 1] ((l.drop 4).take 9) ++ [0] ++ layFields [8] (l.drop 13)
    ++ leBytes 8 0

/-- Widths of the fields of the die health record after TIME, to ENERGY_MJ; the whole record goes on to its slacks, ageing ratios and counts (R477). -/
def dieWidths : List Nat := [1, 1, 1, 1, 2, 2, 2, 2, 8, 1, 1, 2, 4, 1, 1, 1, 1, 4]
def dieBody (l : List Nat) : List Byte :=
  layFields dieWidths l ++ layFields (List.replicate 16 1) (l.drop 18) ++ layFields [4, 4, 4, 4, 4] (l.drop 34) ++ List.replicate 44 0

/-- Entries that one counter record carries, so that it fits a datagram: 20 + 8n is at most 1,400. -/
def counterPart : Nat := 172

/-- A counter record (R478). -/
def counterBytes (d : Nat) (time : W64) (entries : List (W16 × W16 × W32)) : List Byte :=
  streamRecord 0x03 (leBytes 8 time.toNat ++ [xyByte (dieSite d).1, xyByte (dieSite d).2, BitVec.ofNat 8 (dieKind d), 0] ++ leBytes 2 entries.length ++ [0, 0]
    ++ entries.flatMap (fun e => leBytes 2 e.1.toNat ++ leBytes 2 e.2.1.toNat ++ leBytes 4 e.2.2.toNat))

/-- The body of the energy record (R479) from its fields as the report holds them: partition, flags, creation, start, steps, tokens, the three
sums and the end of the interval. -/
def energyBody (c : CtxId) (l : List Nat) : List Byte :=
  leBytes 8 (l.getD 9 0) ++ leBytes 1 c.val ++ layFields [1, 1] l ++ [0] ++ layFields [8, 8, 4, 4, 8, 8, 4] (l.drop 2) ++ leBytes 4 0

/-- Part i of a Lookout record in P parts: its part field, the record with the entries of the part, and they (R474). -/
def lookoutPart (r : LookoutRec) (parts i : Nat) : List Byte :=
  streamRecord 0x07 (leBytes 1 i ++ leBytes 1 parts ++ leBytes 1 (40 * i) ++ [0]
    ++ ({ r with entries := (r.entries.drop (40 * i)).take 40 } : LookoutRec).bytes)

/-- The records of a report, as the stream carries them; a report outside the stream has none. -/
def Report.records : Report → List (List Byte)
  | .module t l => [streamRecord 0x01 (leBytes 8 t.toNat ++ moduleBody l)]
  | .die _ t l => [streamRecord 0x02 (leBytes 8 t.toNat ++ dieBody l)]
  | .counters d t l => (chunks counterPart (max 1 ((l.length + counterPart - 1) / counterPart)) l).map (counterBytes d.val t)
  | .event r => [streamRecord 0x04 r.bytes]
  | .voltage _ t l => [streamRecord 0x05 ((leBytes 8 t.toNat ++ dieBody l).take 44)]
  | .energy c l => [streamRecord 0x06 (energyBody c l)]
  | .lookout r parts => (List.range parts).map (lookoutPart r parts)
  | .binnacle e => [streamRecord 0x08 (leBytes 8 e.time.toNat ++ [e.event, e.bay] ++ leBytes 2 e.detail.toNat)]
  | .note _ _ _ => []
  | .grade _ _ => []
  | .platformEvent _ _ => []

/-! ### Datagrams (R472) -/

/-- A datagram that carries one record: its 32-byte header, then the record. -/
def datagramBytes (serial : BitVec 128) (h : DatagramHdr) (seq : W32) (r : List Byte) : List Byte :=
  leBytes 2 0x5744 ++ [0x01, 1] ++ leBytes 4 seq.toNat ++ leBytes 2 h.epoch.toNat ++ leBytes 1 h.die.val ++ List.replicate 5 0 ++ leBytes 16 serial.toNat ++ r

/-- Every datagram that the module has sent, in order. -/
def State.datagrams (s : State) : List (List Byte) :=
  (s.mgmt.headers.zip s.mgmt.stream).flatMap (fun (h, r) =>
    r.records.zipIdx.map (fun (b, i) => datagramBytes s.serial h (h.seq + BitVec.ofNat 32 i) b))

/-! ### Command blocks forwarded (R262, R297, R438) -/

/-- COUNT and the granule numbers of a grant or a return. -/
def granuleBlock (c : Byte) (gs : List W16) : List Byte :=
  [c, 0, 0, 0] ++ leBytes 4 gs.length ++ List.replicate 8 0 ++ gs.flatMap (fun g => leBytes 2 g.toNat)

/-- The command block of CTX_CONFIG. -/
def configBlock (b : CtxConfigBlock) : List Byte :=
  [b.context, b.sections, 0, 0, b.layers, b.kvHeads, b.kvFormat, b.headsPerPage] ++ leBytes 4 b.poolPages.toNat ++ leBytes 4 b.stepTable.toNat
    ++ leBytes 2 b.auditRate.toNat ++ leBytes 2 b.kselStep.toNat ++ leBytes 2 b.auditWindow.toNat ++ leBytes 2 b.returnFlag.toNat
    ++ leBytes 4 b.missHigh.toNat ++ leBytes 4 b.missLow.toNat ++ leBytes 4 b.kselMax.toNat ++ leBytes 4 b.auditSeed.toNat ++ leBytes 8 0
    ++ leBytes 16 b.clearMask.toNat ++ b.stopSets.flatMap (fun l => padList 64 0 (l.flatMap (fun t => leBytes 4 t.toNat)))

/-- The command block of MARK_MAP from its fields, with the physical mark in RESULT where the operation gives one. -/
def markBlock (op c : Byte) (v : W16) (kind mode : Byte) (target value : W32) (owner : Byte) (ownerV : W16) (period : W32) (result : List Byte) : List Byte :=
  [op, c] ++ leBytes 2 v.toNat ++ [kind, mode, 0, 0] ++ leBytes 4 target.toNat ++ leBytes 4 value.toNat ++ [owner, 0] ++ leBytes 2 ownerV.toNat
    ++ leBytes 4 period.toNat ++ leBytes 4 0 ++ List.replicate 36 0 ++ result

/-- The code of a forwarded command and its block. -/
def setupBlock : ForwardedSetup → Byte × List Byte
  | .partCreate p g => (0x01, [p, g])
  | .partDestroy p => (0x02, [p])
  | .ctxCreate c p f q => (0x03, [c, p, f, 0] ++ leBytes 4 q.toNat)
  | .ctxDestroy c => (0x04, [c])
  | .ctxConfig b => (0x05, configBlock b)
  | .granuleGrant c gs => (0x06, granuleBlock c gs)
  | .granuleReturn c gs => (0x07, granuleBlock c gs)
  | .markCreate c v k t x p n => (0x0A, markBlock 0x01 c v k 0 t x 0 0 p (leBytes 2 n.toNat))
  | .markShare c v o w n => (0x0A, markBlock 0x02 c v 0 0 0 0 o w 0 (leBytes 2 n.toNat))
  | .markUnmap c v => (0x0A, markBlock 0x03 c v 0 0 0 0 0 0 0 [])
  | .markSignal c v m x => (0x0A, markBlock 0x04 c v 0 m 0 x 0 0 0 [])
  | .gangJoin c v => (0x0A, markBlock 0x08 c v 0 0 0 0 0 0 0 [])
  | .gangLeave c v => (0x0A, markBlock 0x09 c v 0 0 0 0 0 0 0 [])

/-- The primary's RESULT: the physical mark of CREATE and SHARE; the other commands forwarded have none. -/
def setupResultOf : ForwardedSetup → W32
  | .markCreate _ _ _ _ _ _ n => n.setWidth 32
  | .markShare _ _ _ _ n => n.setWidth 32
  | _ => 0

/-! ### Frames (R431, R432, R451) -/

/-- The 64 bytes of a digest record. -/
def digestBytes (d : DigestBody) : List Byte :=
  leBytes 4 d.step.toNat ++ [d.ctx, d.status, 0, 0] ++ leBytes 4 d.rows.toNat ++ leBytes 4 d.records.toNat ++ leBytes 8 d.dShared.toNat
    ++ leBytes 8 d.dKv.toNat ++ leBytes 8 d.dToken.toNat ++ leBytes 8 d.dState.toNat ++ leBytes 8 d.time.toNat ++ leBytes 8 0

def identityBytes (b : IdentityBody) : List Byte :=
  leBytes 16 b.serial.toNat ++ [b.orderCode, b.stepping, b.mode, b.role] ++ leBytes 4 b.version.toNat ++ leBytes 8 b.pairId.toNat ++ leBytes 4 b.epoch.toNat

def dataPayload (d : DataBody) : List Byte :=
  leBytes 4 d.point.toNat ++ [d.object, 0, 0, 0] ++ leBytes 8 d.address.toNat ++ d.bytes

/-- The payload of a pair probe (R433): KIND 1 a probe, 2 an answer. -/
def probePayload (kind : Byte) (q : ProbeBody) : List Byte :=
  leBytes 2 0x5052 ++ [0x01, kind] ++ leBytes 4 q.nonce.toNat ++ leBytes 8 q.pairId.toNat ++ leBytes 16 q.serial.toNat ++ leBytes 4 q.epoch.toNat
    ++ [q.role, (if q.running then 1 else 0) + (if q.held then 2 else 0), 0, 0] ++ leBytes 8 q.time.toNat ++ List.replicate 16 0

/-- The payload of a frame, or of the datagram of a probe. -/
def FrameOut.payload : FrameOut → List Byte
  | .identity b => identityBytes b
  | .ack _ a n => leBytes 4 a.toNat ++ leBytes 4 n.toNat
  | .heartbeat _ role mode running pair => [role, mode, if running then 1 else 0, 0, 0, 0, 0, 0] ++ leBytes 8 pair.toNat
  | .departing _ reason => [reason]
  | .timeReq a => leBytes 8 a.toNat
  | .timeResp a b c => leBytes 8 a.toNat ++ leBytes 8 b.toNat ++ leBytes 8 c.toNat
  | .setup c => let (code, block) := setupBlock c
    [code, 0, 0, 0] ++ leBytes 4 (setupResultOf c).toNat ++ List.replicate 56 0 ++ block
  | .desc _ ring index d bytes => [ring, 0, 0, 0] ++ leBytes 4 index.toNat ++ d ++ bytes
  | .stepStart _ step start => leBytes 4 step.toNat ++ leBytes 4 0 ++ leBytes 8 start.toNat
  | .digest d => digestBytes d
  | .clusterDigest _ step n d => leBytes 4 step.toNat ++ leBytes 4 n ++ leBytes 8 d.dShared.toNat ++ leBytes 8 d.dKv.toNat ++ leBytes 8 d.dToken.toNat
    ++ leBytes 8 d.dState.toNat
  | .mirrorData _ d => dataPayload d
  | .mirrorEnd _ point n => leBytes 4 point.toNat ++ leBytes 4 n.toNat
  | .mirrorAck _ point => leBytes 4 point.toNat
  | .snapshot _ d => dataPayload d
  | .copyReq _ object address length => [object, 0, 0, 0, 0, 0, 0, 0] ++ leBytes 8 address.toNat ++ leBytes 8 length.toNat
  | .copyData _ d => dataPayload d
  | .probe q => probePayload 1 q
  | .probeAnswer q => probePayload 2 q

/-- The 32-byte header of a frame sent. -/
def SentFrame.header (f : SentFrame) : List Byte :=
  leBytes 2 0x434E ++ leBytes 1 f.frame.type ++ leBytes 1 f.port ++ leBytes 2 f.frame.payload.length ++ [0, 0] ++ leBytes 4 f.link.toNat
    ++ leBytes 4 f.stream.toNat ++ leBytes 4 f.epoch.toNat ++ leBytes 1 f.frame.context ++ [0, 0, 0] ++ leBytes 8 f.time.toNat

/-- A frame as it leaves: header, payload, and the CRC-32 over both. -/
def SentFrame.bytes (f : SentFrame) : List Byte :=
  let b := f.header ++ f.frame.payload
  b ++ leBytes 4 (crc32 b).toNat

end Sys2Proof.Machine
end

