-- ==== Sys2Proof/WellFormed.lean ====
section
/-! DEFINITION. Which commands are well formed: the operands that stand for one thing agree with each other. Every check is of
the operand lists alone; the meanings are total and do not depend on it. -/
namespace Sys2Proof

/-- The bytes that came from host memory for a length: all of them, or none where the read was not made or failed. -/
def bytesFit (bytes : List Byte) (length : Nat) : Bool := bytes.length = length || bytes.isEmpty

/-- The stop sets as CTX_CONFIG carries them: sixteen places of sixteen tokens (R195, R262). -/
def CtxConfigBlock.wf (b : CtxConfigBlock) : Bool :=
  b.stopSets.length ≤ 16 && b.stopSets.all (fun l => l.length ≤ 16)

/-- A configuration record has a limit for each compute site and four spare sites (R27). -/
def ConfigRecord.wf (r : ConfigRecord) : Bool := r.limits.length = 100 && r.spareSites.length = 4

/-- A manifest names at least one image (R497). -/
def Manifest.wf (m : Manifest) : Bool := !m.images.isEmpty

/-- A signed object by its own layout. -/
def SignedObject.wf : SignedObject → Bool
  | .manifest m => m.wf
  | .record r => r.wf
  | .revision r => r.entries.length ≤ 16384

/-- A forwarded set-up command's block. -/
def ForwardedSetup.wf : ForwardedSetup → Bool
  | .ctxConfig b => b.wf
  | .granuleGrant _ gs => decide (gs.length ≤ 2008)
  | .granuleReturn _ gs => decide (gs.length ≤ 2008)
  | _ => true

/-- A pass drains into the 2,048 rows of an accumulator buffer (R91). -/
def PassArgs.wf (p : PassArgs) : Bool := decide (1 ≤ p.stride) && decide (p.baseRow + p.rows ≤ 2048)

/-- A format that a conversion writes (R64, R74). -/
def ConvertArgs.wf (d : ConvertArgs) : Bool := decide (d.fmt.toNat ≤ 9)

/-- Scores are converted to a format that a conversion writes, and each row of the pass comes with its σ and v (R113). -/
def OsDest.wf (rows : Nat) : OsDest → Bool
  | .scores args _ d => d.wf && decide (args.length = rows)
  | _ => true

/-- The well-formed commands. -/
def Instr.wf : Instr → Bool
  | .programLoad _ _ _ count _ bytes _ => bytesFit bytes (64 * count.toNat)
  | .write _ _ _ _ length bytes _ => bytesFit bytes length.toNat
  | .ctxConfig _ b => b.wf
  | .weightTileLoad _ _ arrays _ => !arrays.isEmpty && decide arrays.Nodup
  | .wsPass _ _ _ p _ => p.wf && decide (1 ≤ p.rows) && decide (p.rows ≤ 2048) && decide (p.kLen = 128)
  | .osPass _ _ _ p _ dest _ => p.wf && dest.wf p.rows && decide (1 ≤ p.rows) && decide (p.rows ≤ 128) && decide (1 ≤ p.kLen) && decide (p.kLen ≤ 2048)
      && decide (p.kBase % 32 = 0)
  | .accumulatorConvert _ _ _ row d => decide (row < 2048) && d.wf
  | .arraySpareSubstitute _ _ _ column index => decide (index < if column then 65 else 128)
  | .engineInstructionIssue _ _ i => decide (i.ranges.length ≤ 4)
  | .reckonerEpoch d => d.length = 144
  | .packageReceive _ k => k.object.wf
  | .setupFwd _ c => c.wf
  | .descFwd _ _ _ descriptor bytes => decide (descriptor.length = 64) && decide (bytes.length ≤ 4024)
  | _ => true

end Sys2Proof
end

