-- ==== Sys2Proof/Tests/Slice0.lean ====
section
/-! SUPPORT. Small states, each a module in one situation, and tests on them: the checks of WellFormed, the number tables of
the manual (the expected values are those of R66 to R68), and for every obligation with hypotheses states and operands that
meet them, clause by clause. -/
set_option Elab.async false
set_option maxRecDepth 10000
namespace Sys2Proof.Tests
open Sys2Proof Sys2Proof.Machine

/-- A configuration record of the first grade. -/
def record : ConfigRecord :=
  { revision := 1, serial := 7, orderCode := 1, maxClock := 40, maxCap := 210, clusterDis := 0, spareSites := [96, 97, 98, 99], channelDis := 0
    consortDis := 0, limits := List.replicate 100 ⟨150, 40⟩ }

/-- A module that runs, with its host link up, a service die active, and every channel and compute site as it is in service. -/
def up : State :=
  { serial := 7
    life := { aonOn := true, inputOk := true, meshLocked := true, phase := .running, ready := true, resetting := false, stageDone10 := true
              perstOn := false, firmware := .bank 0 false }
    build := { record := some record, recordBad := false, map := List.range 100, grade := 2, channelSpeed := 8800, channelGb := 128 }
    mgmt := { sv0 := ⟨true, 1⟩, sv1 := ⟨true, 1⟩, active := some 0 }
    link := { up := true, width := 16, speed := 7, flit := true }
    fns := [(0, { bme := true }), (1, { bme := true })]
    reck := { now := 80000000000 } }

/-- The running module, its grade reported. -/
def graded : State := up

/-- A press of the attention button that began 20 s ago, and one that began now. -/
def pressed (t : W64) (s : State) : State := { s with bin := { s.bin with press := some t } }

/-- The running module in another phase, or in another power state. -/
def phased (x : StartPhase) : State := { up with life := { up.life with phase := x, ready := false, resetting := true } }
def powered (x : PowerState) : State := { up with life := { up.life with power := x } }

/-- Bay 1 in a state, its pad touched for a second. -/
def bayIn (x : BayState) : State :=
  { up with bin := { up.bin with bays := [(1, { state := x, latchClosed := true, present := true, closedAt := some 0 })]
                                 pads := [(1, { contact := some 0 })] } }
/-- Bay 1 in a state, first among the removals, its channel in a state. -/
def leaving (x : BayState) (c : ChanState) : State :=
  { bayIn x with bin := { (bayIn x).bin with removals := [1] }, chans := [(1, { state := c })] }
/-- Every channel in service. -/
def channels (s : State) : State := { s with chans := (List.range 48).map (fun k => (k, { state := .inService, trained := true })) }

/-- Sites switched on. -/
def lit (n : Nat) (s : State) : State := { s with sites := (List.range n).map (fun k => (k, { power := .on })) }

/-- Partition 0 of group 0, powered, with context 5, which owns granules 0 to 3 and has a submission ring 3, a completion ring 4 and a token ring 6. -/
def ready : State :=
  { lit 12 up with
    parts := [(0, { groups := [0], state := .ready })]
    ctxs := [(5, { part := 0, usesSeq := true, quota := 8, programs := [(1, ⟨96 * 2 ^ 29, 2⟩)], vmarks := [(0, 20)] })]
    marks := [(20, { value := 3 })]
    owners := [(0, 5), (1, 5), (2, 5), (3, 5)]
    mem := [(96 * 2 ^ 29, 8), (96 * 2 ^ 29 + 64, 1)]
    sq := [(3, { ctx := 5, fn := 1, log2 := 6, vector := none, base := 0x1000, wb := 0x8000, compRing := 4 })]
    cq := [(4, { ctx := 5, fn := 1, log2 := 7, vector := none, base := 0x2000, wb := 0x8100 })]
    tq := [(6, { ctx := 5, fn := 1, log2 := 6, vector := none, base := 0x4000, wb := 0x8200 })] }

/-- A step of context 5 at operation 0 of program 1. -/
def step0 : Step := { ctx := 5, ring := 3, index := 0, kind := .training, program := 1, number := 1, rowCount := 0, seqCount := 0, phase := .between }

/-- The module while a step of partition 0 stands as given; its descriptor has reserved its completion record. -/
def stepping (t : Step) : State :=
  { ready with
    parts := [(0, { groups := [0], state := .ready, step := some t })]
    sq := ready.sq.modify 3 (fun r => { r with prod := 1, cons := 1, begun := some 0 })
    cq := ready.cq.modify 4 (fun r => { r with reserved := 1 }) }

/-- A step whose operation runs. -/
def running (d : OpDesc) : Step := { step0 with phase := .running, current := some d }

/-- Cluster 0 with a tile in the shadow registers of array 0 of M-core 0. -/
def tiled : State := { up with clusters := [(0, { cores := [(0, { arrays := [(0, { shadow := { rows := [[.one, .zero]], sums := [.one] }, fresh := true })] })] })] }
/-- M-core 0 of cluster 0 with a fault capture entry, and M-core 1 with one that is filled. -/
def captured : State := { up with clusters := [(0, { cores := [(0, { capture := some { step := 3 } }), (1, { capture := some { step := 4, filled := true } })] })] }
/-- Array 0 with its spares taken. -/
def spared : State := { up with clusters := [(0, { cores := [(0, { arrays := [(0, { spareRow := some 1, spareCol := some 2 })] })] })] }
/-- A core store in which lines 0 to 7 are being written. -/
def boarded : State := { up with clusters := [(0, { stores := [(0, { board := [⟨1, 0, 8, true⟩] })] })] }
/-- Core store 0 of cluster 0 with a word that waits to be written back. -/
def queued : State := { up with stores := [(0, { queue := [7, 9] })] }
/-- A decode step of a context with KV pages. -/
def kvStep : State :=
  { stepping { step0 with kind := .decode } with
    ctxs := [(5, { part := 0, usesSeq := true, kv := some ⟨1, 1, true, 1, 4, 0⟩, programs := [(1, ⟨96 * 2 ^ 29, 2⟩)] })] }

/-- A sequence of context 5. -/
def seqOf (x : SeqState) : Seq :=
  { state := x, ctx := 5, tokenRing := 6, stopSet := 0, promptLen := 4, maxLen := 100, dirBase := 0, dirSpan := 4, promptAddr := 0, temp := 0, topP := 0x3F800000
    topK := 0, seed := 1, hostTag := 9, length := 4, generated := 1 }
/-- A step of a context with KV pages that performs an operation. -/
def kvRunning (d : OpDesc) : State :=
  { kvStep with
    parts := [(0, { groups := [0], state := .ready
                    step := some { running d with kind := .decode, rows := [⟨0, 4, 7⟩], rowCount := 1, seqCount := 1
                                                  seqs := [{ slot := 0, rows := 1, first := 0, final := true }] } })]
    seqs := [(0, seqOf .decode)] }
/-- Mark 20 as given, in a state. -/
def withMark (m : Mark) (s : State) : State := { s with marks := [(20, m)] }
/-- Ring 3 holds an entry that has not been read. -/
def fed (s : State) : State := { s with sq := s.sq.modify 3 (fun r => { r with prod := 1 }) }

/-- What the partner said of itself. -/
def partner : IdentityBody := { serial := 9, orderCode := 1, mode := 3, role := 0, version := 0, pairId := 0, epoch := 2 }
/-- Cables at the Consort ports and at the Ethernet connector. -/
def cabled (s : State) : State :=
  { s with bin := { s.bin with ethernet := true, consortCables := [(0, 1), (1, 2)] } }
/-- Port 0 trained. -/
def ported (s : State) : State :=
  { cabled s with pair := { s.pair with ports := [(0, { lanes := 8, down := false, serial := 9 })] } }
/-- A pair formed over port 0, in a role and a mode. -/
def paired (r : PairRole) (m : Nat) (s : State) : State :=
  { ported s with pair := { (ported s).pair with formed := true, role := r, mode := m, partner := some partner } }
/-- A setting with a value. -/
def setTo (k : Setting) (v : Nat) (s : State) : State := { s with settings := { s.settings with values := s.settings.values.put (settingNum k) v } }

/-- A session 1 of account 0 with a role, on a module whose Ethernet is connected and whose account need not change its password. -/
def session (r : Role) (s : State) : State :=
  { cabled s with mgmt := { s.mgmt with accounts := [⟨0, 8, r, false⟩], sessions := [(1, ⟨0, r, 600, 0⟩)], nextSession := 2 } }
/-- The console at a level. -/
def atLevel (l : Level) (s : State) : State := { s with mgmt := { s.mgmt with console := { s.mgmt.console with level := l } } }
/-- A manifest of version 2 with an image for every kind of die. -/
def manifest2 : Manifest :=
  { version := 2, securityVersion := 1, orderCodes := 7, minStepping := 0, totalLen := 36864
    images := (List.range 7).map (fun k => ⟨BitVec.ofNat 8 (k + 1), BitVec.ofNat 32 (8192 + 4096 * k), 64, 5⟩) }
/-- A signature block of a kind, of slot 0. -/
def block (k : Byte) : List Byte := [0x42, 0x47, 0x49, 0x53, k, 0, 0, 0] ++ List.replicate 3064 0
/-- A revision and a record that a package may carry, and packages of them and of a manifest. -/
def revision2 : ChartRevision := { serial := 7, upToSeq := 1, entries := [] }
def record2 : ConfigRecord := { record with revision := 2 }
def image : List Byte := List.replicate 64 0
def manifest3 (h : BitVec 384) : Manifest := { manifest2 with images := manifest2.images.map (fun e => { e with hash := h }) }
def recordPkg : Package := { kind := 2, objectLen := 3840, totalLen := 3856, object := .record record2, block := block 2 }
def revisionPkg : Package := { kind := 3, objectLen := 3136, totalLen := 3152, object := .revision revision2, block := block 3 }
def manifestPkg (h : BitVec 384) : Package :=
  { kind := 1, objectLen := 4160, totalLen := 36864, object := .manifest (manifest3 h), block := block 1, images := List.replicate 7 image }
/-- An unlock object. -/
def unlock3 : UnlockObject := { lifetime := 60, serial := 7, nonce := 3, perms := 1, block := block 4 }
/-- An update in a phase, with a manifest staged. -/
def updating (p : Activation) (relaying relayed : Bool) (s : State) : State :=
  { s with update := { s.update with phase := p, relaying := relaying, relayed := relayed, staged := some manifest2 } }

/-! ### What some witnesses rest on -/
/-- Channel 1 in service, a retraining of its die running, no slice given yet. -/
def retraining : State := { channels up with chans := [(1, { state := .inService, trained := true, retrain := some .period })] }
/-- A module with one chart entry of the field. -/
def charted : State := { up with build := { up.build with chart := [⟨1, 0, 3, clusterUnit up 0x04 0 1 2 3, 1, 4, true⟩] } }
theorem idleStep (n : Nat) : ({ ready with parts := [(0, { groups := [0], state := .resetting })] } : State).stepOf n = none := by
  by_cases h : n = 0
  · subst h; rfl
  · simp [State.stepOf, State.part, Tab.find, Ne.symm h]
theorem otherPorts1 (x : Nat) (h : x ≠ 0) : ((ported up).port x).lanes = 0 := by
  simp [State.port, ported, Tab.getD, Tab.find, Ne.symm h]
theorem otherPorts2 (x : Nat) (h : x ≠ 0) (k : x ≠ 1) :
    (({ up with pair := { up.pair with ports := [(0, { lanes := 8, down := false, replay := [(3, .timeReq 7)] }), (1, { lanes := 4 })] } } : State).port x).lanes = 0 := by
  simp [State.port, Tab.getD, Tab.find, Ne.symm h, Ne.symm k]
/-- The console at the level of an administrator, a nonce drawn a moment ago. -/
def unlocking : State := { atLevel .admin up with mgmt := { (atLevel .admin up).mgmt with console := { level := .admin, nonce := some (3, 79999999999) } } }
theorem signed (s : State) (body : List Byte) (k : Byte) (hs : bothVerify body (block k) = true)
    (he : Config.romEcdsaDigest 0 = Config.sha384 (List.replicate 97 0)) (hl : Config.romLmsDigest 0 = Config.sha384 (List.replicate 56 0))
    (hr : (rollbackNow s).keyRevoked = 0) : signedBy s body (block k) = true := by
  have e : blockEcdsa (block k) = List.replicate 97 0 := rfl
  have l : blockLms (block k) = List.replicate 56 0 := rfl
  have z : blockSlot (block k) = 0 := rfl
  simp [signedBy, slotHolds, e, l, z, he, hl, hr, hs]
theorem signed_unlock (hs : bothVerify (unlockBytes unlock3) (block 4) = true)
    (he : Config.romEcdsaDigest 0 = Config.sha384 (List.replicate 97 0)) (hl : Config.romLmsDigest 0 = Config.sha384 (List.replicate 56 0)) :
    unlocking.mgmt.active ≠ none ∧ Level.admin.rank ≤ (consoleLevel unlocking).rank ∧ unlockFits unlocking unlock3 = true := by
  refine ⟨by decide +kernel, by decide +kernel, ?_⟩
  have k := signed unlocking _ 4 hs he hl (by decide +kernel)
  have b : unlock3.block = block 4 := rfl
  simp only [unlockFits, b, k, Bool.and_true]
  decide +kernel
theorem unrefused (s : State) (k : Package) (a : (s.update.relaying || decide (s.update.phase ≠ .idle)) = false)
    (b : (decide (k.magic ≠ 0x50574B47) || decide (k.reserved ≠ 0) || !lengthsFit k || decide (k.kind ≠ objectKind k.object) || !objectPlain k.object || !blockPlain k.block) = false)
    (c : decide (blockKind k.block ≠ k.kind) = false)
    (d : (decide ((blockSlot k.block).toNat < 4) && (rollbackNow s).keyRevoked.getLsbD (blockSlot k.block).toNat) = false)
    (e : signedBy s (objectBody k.object) k.block = true) :
    packageBad s k = (match k.object with
      | .manifest m => match manifestBad s (blockSlot k.block) m with
        | some c => some c
        | none => if m.images.zipIdx.any (fun (e, i) => decide (Config.sha384 (k.images.getD i []) ≠ e.hash)) then some refHash else none
      | .record r => recordBad s r
      | .revision r => revisionBad s r) := by
  simp only [packageBad, a, b, c, d, e, firstBad, Bool.not_true, Bool.false_eq_true, if_false] <;> rfl
theorem signed_record (hs : bothVerify (configBytes record2) (block 2) = true)
    (he : Config.romEcdsaDigest 0 = Config.sha384 (List.replicate 97 0)) (hl : Config.romLmsDigest 0 = Config.sha384 (List.replicate 56 0)) :
    up.mgmt.active ≠ none ∧ packageBad up recordPkg = none ∧ recordPkg.object = .record record2 ∧ up.flash0.works = true ∧ up.flash1.works = true := by
  refine ⟨by decide +kernel, ?_, rfl, rfl, rfl⟩
  rw [unrefused _ _ (by decide +kernel) (by decide +kernel) (by decide +kernel) (by decide +kernel) (signed up _ 2 hs he hl (by decide +kernel))]
  decide +kernel
theorem signed_revision (hs : bothVerify (revisionBytes revision2) (block 3) = true)
    (he : Config.romEcdsaDigest 0 = Config.sha384 (List.replicate 97 0)) (hl : Config.romLmsDigest 0 = Config.sha384 (List.replicate 56 0)) :
    charted.mgmt.active ≠ none ∧ packageBad charted revisionPkg = none ∧ revisionPkg.object = .revision revision2 ∧ charted.flash0.works = true := by
  refine ⟨by decide +kernel, ?_, rfl, rfl⟩
  rw [unrefused _ _ (by decide +kernel) (by decide +kernel) (by decide +kernel) (by decide +kernel) (signed charted _ 3 hs he hl (by decide +kernel))]
  decide +kernel
theorem signed_manifest (hs : bothVerify (manifestBytes (manifest3 (Config.sha384 image))) (block 1) = true)
    (he : Config.romEcdsaDigest 0 = Config.sha384 (List.replicate 97 0)) (hl : Config.romLmsDigest 0 = Config.sha384 (List.replicate 56 0)) :
    up.mgmt.active ≠ none ∧ packageBad up (manifestPkg (Config.sha384 image)) = none ∧
      (manifestPkg (Config.sha384 image)).object = .manifest (manifest3 (Config.sha384 image)) ∧ (manifest3 (Config.sha384 image)).recovery = false ∧
      up.flash0.works = true ∧ idleBank up = 1 := by
  refine ⟨by decide +kernel, ?_, rfl, rfl, rfl, by decide +kernel⟩
  rw [unrefused _ _ (by decide +kernel) (by decide +kernel) (by decide +kernel) (by decide +kernel) (signed up _ 1 hs he hl (by decide +kernel))]
  have m : manifestBad up (blockSlot (manifestPkg (Config.sha384 image)).block) (manifest3 (Config.sha384 image)) = none := by
    have z : decide (Config.stepping.toNat < (manifest3 (Config.sha384 image)).minStepping.toNat) = false := by
      have : (manifest3 (Config.sha384 image)).minStepping = 0 := rfl
      simp [this]
    simp only [manifestBad, z, Bool.or_false]
    decide +kernel
  have o : (manifestPkg (Config.sha384 image)).object = .manifest (manifest3 (Config.sha384 image)) := rfl
  simp only [o, m]
  simp [manifestPkg, manifest3, manifest2, List.range, List.range.loop, image]

/-! ### Operands (WellFormed, Decode) and the manual's number tables -/

/-- One ill-formed command for each check of WellFormed: each is refused. -/
theorem test_wf_refuses :
    Instr.wf (.programLoad 3 {} 1 1 0 [0] .ok) = false ∧ Instr.wf (.write 3 {} 0 0 2 [0] .ok) = false ∧
    Instr.wf (.ctxConfig ⟨0, .ok⟩ { context := 5, sections := 2, stopSets := [List.replicate 17 0] }) = false ∧
    Instr.wf (.ctxConfig ⟨0, .ok⟩ { context := 5, sections := 2, stopSets := List.replicate 17 [] }) = false ∧
    Instr.wf (.weightTileLoad 0 0 [] { tile := ⟨0, 3, 0, 0, 0⟩ }) = false ∧ Instr.wf (.weightTileLoad 0 0 [1, 1] { tile := ⟨0, 3, 0, 0, 0⟩ }) = false ∧
    Instr.wf (.wsPass 0 0 0 { left := ⟨0, 3, 0, 0, 0⟩, rows := 0 } []) = false ∧
    Instr.wf (.wsPass 0 0 0 { left := ⟨0, 3, 0, 0, 0⟩, rows := 2049 } []) = false ∧
    Instr.wf (.wsPass 0 0 0 { left := ⟨0, 3, 0, 0, 0⟩, rows := 1, kLen := 129 } []) = false ∧
    Instr.wf (.wsPass 0 0 0 { left := ⟨0, 3, 0, 0, 0⟩, rows := 1, stride := 0 } []) = false ∧
    Instr.wf (.wsPass 0 0 0 { left := ⟨0, 3, 0, 0, 0⟩, rows := 1, baseRow := 2048 } []) = false ∧
    Instr.wf (.osPass 0 0 0 { left := ⟨0, 3, 0, 0, 0⟩, rows := 0 } ⟨0, 3, 0, 0, 0⟩ .accumulator []) = false ∧
    Instr.wf (.osPass 0 0 0 { left := ⟨0, 3, 0, 0, 0⟩, rows := 129 } ⟨0, 3, 0, 0, 0⟩ .accumulator []) = false ∧
    Instr.wf (.osPass 0 0 0 { left := ⟨0, 3, 0, 0, 0⟩, rows := 1, kLen := 0 } ⟨0, 3, 0, 0, 0⟩ .accumulator []) = false ∧
    Instr.wf (.osPass 0 0 0 { left := ⟨0, 3, 0, 0, 0⟩, rows := 1, kLen := 2049 } ⟨0, 3, 0, 0, 0⟩ .accumulator []) = false ∧
    Instr.wf (.osPass 0 0 0 { left := ⟨0, 3, 0, 0, 0⟩, rows := 1, kBase := 16 } ⟨0, 3, 0, 0, 0⟩ .accumulator []) = false ∧
    Instr.wf (.osPass 0 0 0 { left := ⟨0, 3, 0, 0, 0⟩, rows := 1 } ⟨0, 3, 0, 0, 0⟩ (.scores [(0, 64)] none { fmt := 10, line := 0 }) []) = false ∧
    Instr.wf (.osPass 0 0 0 { left := ⟨0, 3, 0, 0, 0⟩, rows := 2 } ⟨0, 3, 0, 0, 0⟩ (.scores [(0, 64)] none { fmt := 9, line := 0 }) []) = false ∧
    Instr.wf (.accumulatorConvert 0 0 0 2048 { fmt := 3, line := 0 }) = false ∧ Instr.wf (.accumulatorConvert 0 0 0 0 { fmt := 10, line := 0 }) = false ∧
    Instr.wf (.arraySpareSubstitute 0 0 0 true 65) = false ∧ Instr.wf (.arraySpareSubstitute 0 0 0 false 128) = false ∧
    Instr.wf (.engineInstructionIssue 0 0 { owner := 1, ranges := List.replicate 5 ⟨0, 1, false⟩ }) = false ∧
    Instr.wf (.reckonerEpoch [0]) = false ∧
    Instr.wf (.packageReceive .pldm { manifestPkg 5 with object := .manifest { manifest2 with images := [] } }) = false ∧
    Instr.wf (.packageReceive .pldm { recordPkg with object := .record { record with limits := [] } }) = false ∧
    Instr.wf (.packageReceive .pldm { recordPkg with object := .record { record with spareSites := [] } }) = false ∧
    Instr.wf (.setupFwd { port := 0 } (.ctxConfig { context := 5, sections := 2, stopSets := List.replicate 17 [] })) = false := by
  decide +kernel

/-- The same commands with operands that agree are well formed. -/
theorem test_wf_accepts :
    Instr.wf (.programLoad 3 {} 1 1 0 (List.replicate 64 0) .ok) = true ∧ Instr.wf (.write 3 {} 0 0 2 [0, 1] .ok) = true ∧
    Instr.wf (.ctxConfig ⟨0, .ok⟩ { context := 5, sections := 2, stopSets := List.replicate 16 (List.replicate 16 0) }) = true ∧
    Instr.wf (.weightTileLoad 0 0 [1, 2] { tile := ⟨0, 3, 0, 0, 0⟩ }) = true ∧
    Instr.wf (.wsPass 0 0 0 { left := ⟨0, 3, 0, 0, 0⟩, rows := 2048 } []) = true ∧
    Instr.wf (.osPass 0 0 0 { left := ⟨0, 3, 0, 0, 0⟩, rows := 128, kLen := 2048, kBase := 32 } ⟨0, 3, 0, 0, 0⟩
      (.scores (List.replicate 128 (0, 64)) none { fmt := 9, line := 0 }) []) = true ∧
    Instr.wf (.accumulatorConvert 0 0 0 2047 { fmt := 9, line := 0 }) = true ∧ Instr.wf (.arraySpareSubstitute 0 0 0 true 64) = true ∧
    Instr.wf (.engineInstructionIssue 0 0 { owner := 1, ranges := List.replicate 4 ⟨0, 1, false⟩ }) = true ∧
    Instr.wf (.reckonerEpoch (List.replicate 144 0)) = true ∧ Instr.wf (.packageReceive .pldm (manifestPkg 5)) = true ∧
    Instr.wf (.packageReceive .pldm recordPkg) = true := by
  decide +kernel

/-- The table gives no row bits: no word spells a command, and putting a word in front changes nothing. -/
theorem test_no_word_spells_a_command :
    decodeTableWord 8 0 = none ∧ decodeTableWord 64 0xFFFFFFFFFFFFFFFF = none ∧ up.withFetchWord 32 5 = up := by decide +kernel

/-- R66: the largest finite value of each floating-point format, as its table gives them (65,504, 448, 57,344, 28, 7.5, 6). -/
theorem test_largest_finite :
    decodeBits 2 0x7BFF = .fin false 2047 5 ∧ 2047 * 2 ^ 5 = 65504 ∧ decodeBits 3 0x7E = .fin false 14 5 ∧ 14 * 2 ^ 5 = 448 ∧
    decodeBits 4 0x7B = .fin false 7 13 ∧ 7 * 2 ^ 13 = 57344 ∧ decodeBits 5 0x1F = .fin false 7 2 ∧ 7 * 2 ^ 2 = 28 ∧
    decodeBits 6 0x1F = .fin false 15 (-1) ∧ decodeBits 7 0x7 = .fin false 3 1 ∧ 3 * 2 ^ 1 = 6 := by decide +kernel

/-- R66: the smallest subnormal of each format, 2^−149, 2^−133, 2^−24, 2^−9, 2^−16, 2^−4, 2^−3 and 2^−1. -/
theorem test_smallest_subnormal :
    decodeBits 0 1 = .fin false 1 (-149) ∧ decodeBits 1 1 = .fin false 1 (-133) ∧ decodeBits 2 1 = .fin false 1 (-24) ∧
    decodeBits 3 1 = .fin false 1 (-9) ∧ decodeBits 4 1 = .fin false 1 (-16) ∧ decodeBits 5 1 = .fin false 1 (-4) ∧
    decodeBits 6 1 = .fin false 1 (-3) ∧ decodeBits 7 1 = .fin false 1 (-1) := by decide +kernel

/-- R67: NaN reads of FP8 E4M3 (0x7F, 0xFF) and of the formats with an all-ones exponent; R68: integers are two's complement. -/
theorem test_special_and_integer_encodings :
    decodeBits 3 0x7F = .nan ∧ decodeBits 3 0xFF = .nan ∧ decodeBits 2 0x7C00 = .inf false ∧ decodeBits 2 0xFC00 = .inf true ∧
    decodeBits 1 0x7FC0 = .nan ∧ decodeBits 8 0x80 = Num.ofInt (-128) ∧ decodeBits 9 0x8 = Num.ofInt (-8) ∧
    decodeBits 9 0x7 = Num.ofInt 7 := by decide +kernel

/-! ### States that meet the hypotheses of the obligations about every command -/

theorem test_meets_StepRunsTheFrontCommand :
    (let s : State := { up with pending := [.getVersion, .getVersion] }
     s.pending = .getVersion :: [.getVersion]) ∧ up.pending = [] ∧ up.life.meshLocked = true ∧ up.reck.lifeTicks < ticksPerSecond ∧
    State.reset.pending = [] ∧ State.reset.life.meshLocked = false :=
  ⟨rfl, rfl, rfl, by decide +kernel, rfl, rfl⟩

theorem test_meets_EveryStepKeepsTheQueueInOrder :
    (∃ t, exec .getVersion up = .next t) ∧ ∃ t, step { up with pending := [.getVersion] } = .next t := ⟨⟨_, rfl⟩, _, rfl⟩

theorem test_meets_EveryStepKeepsMemoryCanonical :
    Safety.MemoryCanonical ready ∧ Safety.MemoryCanonical State.reset ∧ ∃ t, step ready = .next t :=
  ⟨by decide +kernel, by decide +kernel, _, rfl⟩

theorem test_meets_SettingsChangeOnlyByTheirCommands :
    (∃ t, exec .getVersion up = .next t) ∧ (∀ n e k v, Instr.getVersion ≠ .redfishSettingsWrite n e k v) ∧
    (∀ n w, Instr.getVersion ≠ .redfishPowerLimit n w) ∧ (∀ a, Instr.getVersion ≠ .setSetting a) ∧ (∀ a, Instr.getVersion ≠ .cap a) ∧
    Safety.NoStart .getVersion ∧ Instr.getVersion ≠ .activationCommit := by
  refine ⟨⟨_, rfl⟩, ?_, ?_, ?_, ?_, ?_, ?_⟩ <;> simp [Safety.NoStart]

theorem test_meets_ScaleBytesStandForPowersOfTwo : (0xFE : Byte) ≠ 0xFF ∧ (0 : Byte) ≠ 0xFF := by decide

theorem test_meets_ConversionKeepsRepresentableValues :
    (9 : Nat) ≤ 9 ∧ 15 < 2 ^ fmtWidth 9 ∧ decodeBits 9 15 ≠ .nan ∧ 0x7F800000 < 2 ^ fmtWidth 0 ∧ decodeBits 0 0x7F800000 ≠ .nan ∧
    0x7BFF < 2 ^ fmtWidth 2 ∧ decodeBits 2 0x7BFF ≠ .nan ∧ (decodeBits 2 0x7BFF).isInf = false := by decide +kernel

/-! ### States that meet the hypotheses of each other obligation, clause by clause: the states are built above, each clause's
premises decided on one of them -/

theorem test_meets_ButtonCablesAndInputSignalsAct_1 :
    ((let s : State := up; decide (s.life.aonOn = true ∧ s.bin.press = none)) = true) ∧
    ((let s : State := (pressed 80000000000 up); Option.any (fun t0 => decide (s.bin.press = some t0 ∧ s.bin.held = false ∧
      s.since t0 < msTicks 50)) (s.bin.press)) = true) ∧
    ((let s : State := { (pressed 0 up) with mgmt := { up.mgmt with active := none } }; Option.any (fun t0 => decide (s.bin.press = some t0 ∧
      s.bin.held = false ∧ binnacleServed s = false)) (s.bin.press)) = true) ∧
    ((let s : State := (pressed 0 up); Option.any (fun t0 => decide (s.bin.press = some t0 ∧ s.bin.held = false ∧ msTicks 50 ≤ s.since t0 ∧
      binnacleServed s = true)) (s.bin.press)) = true) ∧
    ((let s : State := (pressed 0 (phased (.cold .heater))); Option.any (fun t0 => decide (s.bin.press = some t0 ∧ s.bin.held = false ∧
      msTicks 15000 ≤ s.since t0 ∧ binnacleServed s = true ∧ starting s = true)) (s.bin.press)) = true) ∧
    ((let s : State := { (pressed 0 up) with mgmt := { up.mgmt with active := none } }; Option.any (fun t0 => decide (s.bin.press = some t0 ∧
      s.bin.held = false ∧ msTicks 15000 ≤ s.since t0 ∧ binnacleServed s = false)) (s.bin.press)) = true) ∧
    ((let s : State := (pressed 0 up); Option.any (fun t0 => decide (s.bin.press = some t0 ∧ s.bin.held = false ∧ msTicks 15000 ≤ s.since t0 ∧
      binnacleServed s = true ∧ s.life.phase = .running ∧ s.life.power ≠ .off ∧ s.life.entering = none ∧ s.update.phase = .idle)) (s.bin.press)) = true) ∧
    ((let s : State := up; let up := true; decide (s.bin.ethernet ≠ up)) = true) ∧
    ((let s : State := (powered .off); let us : Nat := 1000; decide (1000 ≤ us ∧ s.life.power = .off)) = true) ∧
    ((let s : State := { up with life := { up.life with entering := some { state := .off } } }; Option.any (fun o => let us : Nat := 1000;
      decide (1000 ≤ us ∧ s.life.entering = some o ∧ o.state = .off)) (s.life.entering)) = true) ∧
    ((let us : Nat := 0; decide (us < 1000)) = true) ∧
    ((let s : State := up; decide (s.life.power ≠ .off ∧ s.life.entering = none)) = true) ∧
    ((let s : State := { up with life := { up.life with cycleReason := some 1 } }; decide (s.life.cycleReason ≠ none)) = true) ∧
    ((let s : State := up; let mv : Nat := 30000; let us : Nat := 20000; decide (s.life.inputOk = true ∧ ((mv < 46000 ∧ 10000 < us) ∨ (59000 < mv ∧
      1000 < us)))) = true) := by
  and_intros <;> decide +kernel

theorem test_meets_ButtonCablesAndInputSignalsAct_2 :
    ((let mv : Nat := 47000; decide (46000 ≤ mv ∧ mv ≤ 59000)) = true) ∧
    ((let s : State := up; let mv : Nat := 30000; decide (mv < 40000 ∧ s.life.aonOn = true)) = true) ∧
    ((let mv : Nat := 40000; decide (40000 ≤ mv)) = true) := by
  and_intros <;> decide +kernel

theorem test_meets_PadTouchActsByBayState :
    ((let s : State := up; let b : Chan := 0; decide (s.life.aonOn = true ∧ (s.pad b.val).contact = none)) = true) ∧
    ((let s : State := (bayIn .inService); let b : Chan := 1; decide ((s.pad b.val).contact ≠ none)) = true) ∧
    ((let s : State := { up with bin := { up.bin with pads := [(1, { contact := some 79999999999 })] } }; let b : Chan := 1;
      Option.any (fun t0 => decide ((s.pad b.val).contact = some t0 ∧ s.since t0 < msTicks 500)) ((s.pad b.val).contact)) = true) ∧
    ((let s : State := (bayIn .inService); let b : Chan := 1; Option.any (fun t0 => decide ((s.pad b.val).contact = some t0 ∧ msTicks 500 ≤ s.since t0 ∧
      (s.pad b.val).registered = false ∧ (s.pad b.val).armed = true ∧ chanEnabled s b.val = true ∧ binnacleServed s = true)) ((s.pad b.val).contact)) = true) ∧
    ((let s : State := { bayIn .inService with mgmt := { up.mgmt with active := none } }; let b : Chan := 0;
      decide ((chanEnabled s b.val = false ∨ binnacleServed s = false))) = true) ∧
    ((let s : State := (channels (bayIn .inService)); let b : Chan := 1; decide ((s.bay b.val).state = .inService ∧ removalRefused s b.val = false)) = true) ∧
    ((let s : State := (bayIn .inService); let b : Chan := 1; decide ((s.bay b.val).state = .inService ∧ removalRefused s b.val = true)) = true) ∧
    ((let s : State := (bayIn .inService); let b : Chan := 1; decide ((s.bay b.val).state = .inService ∧
      (4 < outAfter s b.val ∨ s.life.power ≠ .on ∨ starting s = true ∨ chanEnabled s b.val = false))) = true) := by
  and_intros <;> decide +kernel

theorem test_meets_BaysAreEmptiedAndFilled :
    ((let s : State := (leaving .queued .inService); let b : Chan := 1; decide (s.bin.removals.head? = some b.val ∧ (s.bay b.val).state = .queued ∧
      (s.chan b.val).state = .inService ∧ b.val ∉ s.dimmWork.requests)) = true) ∧
    ((let s : State := up; let b : Chan := 0; decide (s.bin.removals.head? ≠ some b.val)) = true) ∧
    ((let s : State := (leaving .migrating .out); let b : Chan := 1; decide ((s.bay b.val).state = .migrating ∧ (s.chan b.val).state = .out)) = true) ∧
    ((let s : State := (leaving .emptied .out); let b : Chan := 1; decide ((s.bay b.val).state = .emptied)) = true) ∧
    ((let s : State := up; let b : Chan := 0; decide ((s.bay b.val).state ≠ .emptied)) = true) ∧
    ((let s : State := (leaving .queued .inService); let b : Chan := 1; decide ((s.bay b.val).state.powered = true ∧ chanEnabled s b.val = true)) = true) ∧
    ((let s : State := up; let b : Chan := 0; decide ((s.bay b.val).state.powered = false)) = true) ∧
    ((let s : State := up; let b : Chan := 0; decide (s.life.aonOn = true ∧ (s.bay b.val).latchClosed = false)) = true) ∧
    ((let s : State := (leaving .emptied .out); let b : Chan := 1; Option.any (fun t0 => decide ((s.bay b.val).closedAt = some t0 ∧
      msTicks 2000 ≤ s.since t0 ∧ (s.bay b.val).latchClosed = true ∧ (s.bay b.val).present = true ∧ (s.bay b.val).state.powered = false ∧
      s.life.phase = .running ∧ s.life.power = .on ∧ s.life.entering = none ∧ binnacleServed s = true ∧ chanEnabled s b.val = true ∧
      (chanUsable s b.val = true ∨ (s.bay b.val).state = .safe))) ((s.bay b.val).closedAt)) = true) ∧
    ((let s : State := (channels (bayIn .bringUp)); let b : Chan := 1; decide ((s.bay b.val).state = .bringUp)) = true) := by
  and_intros <;> decide +kernel

theorem test_meets_StartsRunStageByStage :
    ((let s : State := State.reset; let c : ColdCause := .inputQualified; decide (coldMayBegin c s = true)) = true) ∧
    ((let s : State := up; let c : ColdCause := .inputQualified; decide (coldMayBegin c s = false)) = true) ∧
    ((let s : State := (phased (.cold .segments)); decide (s.life.phase = .cold .segments)) = true) ∧
    ((let s : State := (phased (.cold .mapReady)); decide (s.life.phase = .cold .mapReady ∧ s.life.orders = [])) = true) ∧
    ((let s : State := up; decide (s.life.phase = .running)) = true) ∧
    ((let s : State := (phased (.cold .heater)); let b := false; decide (s.life.phase = .cold .heater ∧ (b = true → diesInBand s = true))) = true) ∧
    ((let s : State := (phased (.cold .heater)); decide (s.life.phase = .cold .heater ∧ diesInBand s = false)) = true) ∧
    ((let s : State := (phased (.warm .sitesDown)); decide (s.life.phase = .warm .sitesDown)) = true) ∧
    ((let s : State := (phased (.warm .mapReady)); decide (s.life.phase = .warm .mapReady ∧ s.life.orders = [])) = true) ∧
    ((let s : State := up; decide (s.link.up = true ∧ s.life.phase = .running ∧ s.life.power ≠ .off ∧ s.life.entering = none ∧
      s.update.phase = .idle)) = true) ∧
    ((let f : Fn := 0; let v : W32 := 0; decide ((f ≠ 0 ∨ v ≠ 0x4D525354))) = true) ∧
    ((let s : State := (phased (.cold .serviceBoot)); decide (starting s = true)) = true) ∧
    ((let s : State := { up with life := { up.life with resetAt := some 0, ready := false } }; decide (s.life.resetAt ≠ none ∧ s.life.ready = false ∧
      s.mgmt.active ≠ none)) = true) := by
  and_intros <;> decide +kernel

theorem test_meets_ArraysLoadPassAndDrain_1 :
    ((let s : State := up; let c : Cluster := 0; let m : Fin 4 := 0; let arrays : List (Fin 4) := []; let l : TileLoad := { tile := ⟨0, 3, 0, 0, 0⟩ };
      decide ((s.cluster c.val).stopped = false ∧ readable l.tile = true ∧ (s.core c.val m.val).waiting = [] ∧
      coreReady s c.val m.val (.weightTileLoad c m arrays l) = true ∧ l.parity = false ∧ l.differs = false ∧
      (s.coreStore c.val m.val).bad (linearWords l.tile.line 0 (weightTileBytes l.tile.fmt.toNat l.tile.scale.toNat)) = [])) = true) ∧
    ((let s : State := tiled; let c : Cluster := 0; let m : Fin 4 := 0; let arrays : List (Fin 4) := [0, 2];
      let l : TileLoad := { tile := ⟨0, 3, 0, 0, 0⟩ }; decide ((s.cluster c.val).stopped = false ∧ readable l.tile = true ∧
      (s.core c.val m.val).waiting = [] ∧ (∃ a ∈ arrays, (s.array c.val m.val a.val).fresh = true))) = true) ∧
    ((let s : State := { up with clusters := [(0, { stopped := true })] }; let c : Cluster := 0; decide ((s.cluster c.val).stopped = true)) = true) ∧
    ((let p : PassArgs := { left := ⟨64, 3, 0, 0, 0⟩, rows := 0 }; decide ((p.rows = 0 ∨ 2048 < p.rows))) = true) ∧
    ((let p : PassArgs := { left := ⟨64, 3, 0, 0, 0⟩, rows := 0 };
      decide ((p.rows = 0 ∨ 128 < p.rows ∨ p.kLen = 0 ∨ 2048 < p.kLen ∨ p.kBase % 32 ≠ 0))) = true) ∧
    ((let s : State := up; let c : Cluster := 0; let m : Fin 4 := 0; let a : Fin 4 := 0; let p : PassArgs := { left := ⟨64, 3, 0, 0, 0⟩, rows := 2 };
      let u : List Upset := []; decide ((s.cluster c.val).stopped = false ∧ wsFits p = true ∧ (s.core c.val m.val).waiting = [] ∧
      (s.coreStore c.val m.val).waiting = [] ∧ coreReady s c.val m.val (.wsPass c m a p u) = true ∧ p.parity = false ∧ p.errors = [] ∧
      leftBad (leftRows (s.coreStore c.val m.val) p 128) = [])) = true) ∧
    ((let s : State := up; let c : Cluster := 0; let m : Fin 4 := 0; let a : Fin 4 := 0; let p : PassArgs := { left := ⟨64, 3, 0, 0, 0⟩, rows := 2 };
      let top : OperandRef := ⟨0, 3, 0, 0, 0⟩; let u : List Upset := []; let k : Nat := 300; let ml : Bool := true;
      decide ((s.cluster c.val).stopped = false ∧ (s.core c.val m.val).waiting = [] ∧ (s.coreStore c.val m.val).waiting = [] ∧ p.errors = [] ∧
      osPassFits p top (.finish k ml) = true ∧ coreReady s c.val m.val (.osPass c m a p top (.finish k ml) u) = true)) = true) ∧
    ((let s : State := up; let c : Cluster := 0; let m : Fin 4 := 0; let a : Fin 4 := 0; let p : PassArgs := { left := ⟨64, 3, 0, 0, 0⟩, rows := 2 };
      let top : OperandRef := ⟨0, 3, 0, 0, 0⟩; let u : List Upset := []; decide ((s.cluster c.val).stopped = false ∧ (s.core c.val m.val).waiting = [] ∧
      (s.coreStore c.val m.val).waiting = [] ∧ p.errors = [] ∧ osPassFits p top .accumulator = true ∧
      coreReady s c.val m.val (.osPass c m a p top .accumulator u) = true ∧ p.parity = false ∧ p.differs = false ∧
      leftBad (leftRows (s.coreStore c.val m.val) p p.kLen) = [] ∧
      (s.coreStore c.val m.val).bad (linearWords top.line (topBytes p top).1 (topBytes p top).2) = [])) = true) ∧
    ((let s : State := up; let c : Cluster := 0; let m : Fin 4 := 0; let a : Fin 4 := 0; let row : Nat := 0;
      let d : ConvertArgs := { fmt := 1, line := 200 }; decide ((s.cluster c.val).stopped = false ∧ row < accRows ∧ writable d = true ∧ d.error = none ∧
      (s.core c.val m.val).waiting = [] ∧ ((s.array c.val m.val a.val).acc.getD row {}).poison = false)) = true) ∧
    ((let s : State := { up with clusters := [(0, { cores := [(0, { arrays := [(0, { acc := [(0, { poison := true })] })] })] })] }; let c : Cluster := 0;
      let m : Fin 4 := 0; let a : Fin 4 := 0; let row : Nat := 0; let d : ConvertArgs := { fmt := 1, line := 200 };
      decide ((s.cluster c.val).stopped = false ∧ row < accRows ∧ writable d = true ∧ d.error = none ∧ (s.core c.val m.val).waiting = [] ∧
      ((s.array c.val m.val a.val).acc.getD row {}).poison = true)) = true) ∧
    ((let s : State := { up with clusters := [(0, { cores := [(0, { waiting := [.accumulatorConvert 0 0 0 0 { fmt := 1, line := 200 }] })] })] };
      let c : Cluster := 0; let m : Fin 4 := 0; let a : Fin 4 := 0; let row : Nat := 0; let d : ConvertArgs := { fmt := 1, line := 200 };
      decide ((s.cluster c.val).stopped = false ∧ row < accRows ∧ writable d = true ∧ d.error = none ∧
      (s.core c.val m.val).waiting.any (sameOrder (.accumulatorConvert c m a row d)) = true)) = true) ∧
    ((let row : Nat := 2048; let d : ConvertArgs := { fmt := 1, line := 200 }; decide ((accRows ≤ row ∨ writable d = false))) = true) ∧
    ((let s : State := captured; let c : Cluster := 0; let m : Fin 4 := 0; Option.any (fun e => let x : Option EccKind := none;
      decide ((s.core c.val m.val).capture = some e ∧ e.filled = false ∧ x ≠ some .uncorrectable)) ((s.core c.val m.val).capture)) = true) ∧
    ((let s : State := captured; let c : Cluster := 0; let m : Fin 4 := 1; Option.any (fun e => let x : Option EccKind := none;
      decide ((s.core c.val m.val).capture = some e ∧ e.filled = true ∧ x ≠ some .uncorrectable)) ((s.core c.val m.val).capture)) = true) := by
  and_intros <;> decide +kernel

theorem test_meets_ArraysLoadPassAndDrain_2 :
    ((let s : State := up; let c : Cluster := 0; let m : Fin 4 := 0; let a : Fin 4 := 0; let i : Nat := 5; decide (clusterBusy s c.val = false ∧
      (s.cluster c.val).subs = [] ∧ i < 128 ∧ (s.array c.val m.val a.val).spareRow = none)) = true) ∧
    ((let s : State := up; let c : Cluster := 0; let m : Fin 4 := 0; let a : Fin 4 := 0; let i : Nat := 5; decide (clusterBusy s c.val = false ∧
      (s.cluster c.val).subs = [] ∧ i < 65 ∧ (s.array c.val m.val a.val).spareCol = none)) = true) ∧
    ((let s : State := (stepping (running { opcode := 8 })); let c : Cluster := 0; let i : Nat := 5; decide (clusterBusy s c.val = true ∧ i < 128)) = true) ∧
    ((let i : Nat := 128; decide (128 ≤ i)) = true) ∧
    ((let i : Nat := 128; decide (65 ≤ i)) = true) := by
  and_intros <;> decide +kernel

theorem test_meets_OnChipMemoryActs :
    ((let s : State := up; let c : Cluster := 0; let k : Fin 7 := 0; let i : EngineInstr := { owner := 2, ranges := [⟨0, 4, true⟩] };
      decide ((s.cluster c.val).stopped = false ∧ (s.core c.val k.val).waiting = [] ∧ (match i.work with | .compute _ => true | _ => false) = true ∧
      i.errors = [] ∧ i.storeErrors = [] ∧ (s.coreStore c.val k.val).waiting = [] ∧ i.finished = [] ∧ mayIssue (s.coreStore c.val k.val).board i = true ∧
      (s.coreStore c.val k.val).bad (instrReads i) = [])) = true) ∧
    ((let s : State := up; let c : Cluster := 0; let k : Fin 7 := 0;
      let i : EngineInstr := { owner := 2, ranges := [⟨8, 4, false⟩, ⟨18, 4, false⟩, ⟨28, 4, false⟩, ⟨38, 4, false⟩, ⟨48, 4, false⟩] };
      decide ((s.cluster c.val).stopped = false ∧ (s.core c.val k.val).waiting = [] ∧ (match i.work with | .compute _ => true | _ => false) = true ∧
      i.errors = [] ∧ i.storeErrors = [] ∧ (s.coreStore c.val k.val).waiting = [] ∧ i.finished = [] ∧ 4 < i.ranges.length)) = true) ∧
    ((let s : State := { up with clusters := [(0, { stores := [(0, { board := [⟨1, 0, 8, true⟩], waiting := [{ owner := 2, ranges := [⟨0, 4, true⟩] }] })] })] };
      let c : Cluster := 0; let k : Fin 7 := 0; Option.any (fun j => let i : EngineInstr := { owner := 4, ranges := [] , finished := [(1, true)]};
      decide ((s.cluster c.val).stopped = false ∧ (s.core c.val k.val).waiting = [] ∧ (match i.work with | .compute _ => true | _ => false) = true ∧
      i.errors = [] ∧ i.storeErrors = [] ∧ (s.coreStore c.val k.val).waiting = [j] ∧ (match j.work with | .compute _ => true | _ => false) = true ∧
      j.errors = [] ∧ j.storeErrors = [] ∧ i.ranges = [] ∧
      mayIssue ((s.coreStore c.val k.val).board.filter (fun h => !i.finished.contains (h.owner, h.write))) j = true ∧
      (s.coreStore c.val k.val).bad (instrReads j) = [])) (((s.coreStore c.val k.val).waiting).head?)) = true) ∧
    ((let s : State := boarded; let c : Cluster := 0; let k : Fin 7 := 0; let i : EngineInstr := { owner := 2, ranges := [⟨0, 4, true⟩] };
      decide ((s.cluster c.val).stopped = false ∧ (s.core c.val k.val).waiting = [] ∧ (match i.work with | .compute _ => true | _ => false) = true ∧
      i.errors = [] ∧ i.storeErrors = [] ∧ (s.coreStore c.val k.val).waiting = [] ∧ i.finished = [] ∧ i.ranges.length ≤ 4 ∧
      mayIssue (s.coreStore c.val k.val).board i = false)) = true) ∧
    ((let s : State := { (stepping (running { opcode := 8 })) with clusters := [(0, { stores := [(0, { cells := [(3, 7)] })] })] }; let n : Nat := 0;
      Option.any (fun p => Option.any (fun st => let ss : Nat := 0; let words : Nat := 2; let b := 2000; decide (partOf s n = some p ∧
      s.stepOf p = some st ∧ ss % 64 = 0 ∧ ss + 64 * words ≤ 100 * segmentBytes ∧ openTo s st.ctx ss (64 * words) = true ∧
      (b < ss ∨ ss + 64 * words ≤ b))) (s.stepOf p)) (partOf s n)) = true) ∧
    ((let s : State := { (stepping (running { opcode := 8 })) with clusters := [(0, { stores := [(0, { cells := [(3, 7)] })] })] }; let n : Nat := 0;
      Option.any (fun p => Option.any (fun st => let k : Nat := 0; let line : Nat := 0; let ss : Nat := 0; let words : Nat := 2; let columns : Nat := 0;
      let i := 0; let j := 0; decide (partOf s n = some p ∧ s.stepOf p = some st ∧ ss % 64 = 0 ∧ ss + 64 * words ≤ 100 * segmentBytes ∧
      openTo s st.ctx ss (64 * words) = true ∧ (∀ i, i < words → granuleWord line columns i ∉ (s.coreStore n k).poison) ∧ i < words ∧
      j < 64)) (s.stepOf p)) (partOf s n)) = true) ∧
    ((let s : State := { (stepping (running { opcode := 8 })) with clusters := [(0, { stores := [(0, { cells := [(3, 7)] })] })] }; let n : Nat := 0;
      Option.any (fun p => Option.any (fun st => let ss : Nat := 8388608; let words : Nat := 2; decide (partOf s n = some p ∧ s.stepOf p = some st ∧
      ss % 64 = 0 ∧ ss + 64 * words ≤ 100 * segmentBytes ∧ openTo s st.ctx ss (64 * words) = false ∧ st.failed = none)) (s.stepOf p)) (partOf s n)) = true) ∧
    ((let s : State := queued; let m : StoreRef := (.core 0 0); let w : Nat := 7; let q := [9]; decide ((s.store m).queue = w :: q ∧
      w ∉ (s.store m).written)) = true) ∧
    ((let m : StoreRef := (.accumulator 0 0 0); decide ((∃ c a b, m = .accumulator c a b))) = true) ∧
    ((let s : State := up; let m : StoreRef := (.core 0 0); let row : Nat := 0; let w : Nat := 7; let flips := [0, 1];
      decide ((∀ c a b, m ≠ .accumulator c a b) ∧ (s.store m).queue.length < queueSize m ∧ 64 * row + w % 64 ∉ (s.store m).queue ∧
      64 * row + w % 64 ∉ (s.store m).written ∧ wordFinds flips = some .correctable)) = true) ∧
    ((let s : State := up; let m : StoreRef := (.core 0 0); let row : Nat := 0; let k := 0; decide ((s.store m).remap.all (fun e => e.1 != row) = true ∧
      nextSpare s m row = some k ∧ isPrimary s = false ∧ isSecondary s = false)) = true) ∧
    ((let s : State := { up with owners := [(0, 0x41), (1, 0x40)], scrubs := [⟨5, []⟩] }; let g : GranuleId := 0; decide (s.owner g.val = 0x41)) = true) ∧
    ((let s : State := up; let g : GranuleId := 0; decide (s.owner g.val ≠ 0x41)) = true) ∧
    ((let s : State := { up with owners := [(0, 0x41), (1, 0x40)], scrubs := [⟨5, []⟩] }; decide ((∃ r ∈ s.scrubs, r.granules = []))) = true) := by
  and_intros <;> decide +kernel

theorem test_meets_OperationsRunOneAtATime :
    ((let s : State := (stepping { step0 with op := 2 }); let p : PartId := 0;
      Option.any (fun q => Option.any (fun t => Option.any (fun k => let i := (if t.current.isSome then t.op + 1 else t.op);
      Option.any (fun g => decide (s.part p.val = some q ∧ q.step = some t ∧ s.ctx t.ctx.val = some k ∧ t.failed = none ∧ t.fetched = none ∧
      t.fetchBad = none ∧ t.phase ≠ .compared ∧ t.phase ≠ .ended ∧ t.current.all (fun d => d.opcode != 0x01) = true ∧
      i = (if t.current.isSome then t.op + 1 else t.op) ∧ k.programs.find t.program = some g ∧
      g.count ≤ i)) (k.programs.find t.program)) (s.ctx t.ctx.val)) (q.step)) (s.part p.val)) = true) ∧
    ((let s : State := (stepping step0); let p : PartId := 0;
      Option.any (fun q => Option.any (fun t => Option.any (fun k => let i := (if t.current.isSome then t.op + 1 else t.op);
      Option.any (fun g => let d := { opcode := 8 }; decide (s.part p.val = some q ∧ q.step = some t ∧ s.ctx t.ctx.val = some k ∧ t.failed = none ∧
      t.fetched = none ∧ t.fetchBad = none ∧ t.phase ≠ .compared ∧ t.phase ≠ .ended ∧ t.current.all (fun d => d.opcode != 0x01) = true ∧
      i = (if t.current.isSome then t.op + 1 else t.op) ∧ k.programs.find t.program = some g ∧ i < g.count ∧ (g.base + 64 * i) / 64 ∉ s.memPoison ∧
      d = decodeDesc t.rowCount t.seqCount (s.ssRead (g.base + 64 * i) 64))) (k.programs.find t.program)) (s.ctx t.ctx.val)) (q.step)) (s.part p.val)) = true) ∧
    ((let s : State := (stepping { step0 with fetched := some { opcode := 8 } }); let p : PartId := 0;
      Option.any (fun q => Option.any (fun t => Option.any (fun k => let d := { opcode := 8 }; decide (s.part p.val = some q ∧ q.step = some t ∧
      s.ctx t.ctx.val = some k ∧ t.failed = none ∧ t.phase = .between ∧ t.fetchBad = none ∧ t.fetched = some d ∧
      s.wafer.stopped = false)) (s.ctx t.ctx.val)) (q.step)) (s.part p.val)) = true) ∧
    ((let s : State := (stepping { step0 with fetchBad := some 3 }); let p : PartId := 0;
      Option.any (fun q => Option.any (fun t => Option.any (fun k => Option.any (fun st => decide (s.part p.val = some q ∧ q.step = some t ∧
      s.ctx t.ctx.val = some k ∧ t.failed = none ∧ t.phase = .between ∧ t.fetchBad = some st ∧
      s.wafer.stopped = false)) (t.fetchBad)) (s.ctx t.ctx.val)) (q.step)) (s.part p.val)) = true) ∧
    ((let s : State := (stepping (running { opcode := 8 })); let p : PartId := 0;
      Option.any (fun q => Option.any (fun t => Option.any (fun k => decide (s.part p.val = some q ∧ q.step = some t ∧ s.ctx t.ctx.val = some k ∧
      t.failed = none ∧ t.phase ≠ .between ∧ t.current.isSome = true)) (s.ctx t.ctx.val)) (q.step)) (s.part p.val)) = true) ∧
    ((let s : State := { (stepping { step0 with phase := .running, current := some { opcode := 8 }, done := true, arrived := [0] }) with wafer := { ready.wafer with stopped := true } };
      let p : PartId := 0; Option.any (fun q => Option.any (fun t => Option.any (fun k => decide (s.part p.val = some q ∧ q.step = some t ∧
      s.ctx t.ctx.val = some k ∧ t.failed = none ∧ s.wafer.stopped = true)) (s.ctx t.ctx.val)) (q.step)) (s.part p.val)) = true) ∧
    ((let s : State := (stepping { step0 with phase := .running, current := some { opcode := 8 }, done := true, arrived := [0] }); let p : PartId := 0;
      Option.any (fun q => Option.any (fun t => Option.any (fun k => let c : Cluster := 0; decide (s.part p.val = some q ∧ q.step = some t ∧
      s.ctx t.ctx.val = some k ∧ t.failed = none ∧ t.phase = .running ∧ t.done = true ∧ t.complete = false ∧ q.clusters.contains c.val = true ∧
      t.arrived.contains c.val = true)) (s.ctx t.ctx.val)) (q.step)) (s.part p.val)) = true) ∧
    ((let s : State := { (stepping { step0 with phase := .running, current := some { opcode := 8 }, done := true, arrived := [0] }) with wafer := { ready.wafer with stopped := true } };
      let p : PartId := 0; Option.any (fun q => Option.any (fun t => Option.any (fun k => let c : Cluster := 10; decide (s.part p.val = some q ∧
      q.step = some t ∧ s.ctx t.ctx.val = some k ∧ t.failed = none ∧ t.phase = .running ∧ t.done = true ∧ t.complete = false ∧
      q.clusters.contains c.val = true ∧ t.arrived.contains c.val = false ∧ s.wafer.stopped = true)) (s.ctx t.ctx.val)) (q.step)) (s.part p.val)) = true) ∧
    ((let s : State := { (stepping { step0 with phase := .running, current := some { opcode := 8 }, done := true }) with wafer := { ready.wafer with dirs := (List.range 1200).map (fun k => (k, { credits := [0, 0, 0, 0] })) } };
      let p : PartId := 0; Option.any (fun q => Option.any (fun t => Option.any (fun k => let c : Cluster := 0; decide (s.part p.val = some q ∧
      q.step = some t ∧ s.ctx t.ctx.val = some k ∧ t.failed = none ∧ t.phase = .running ∧ t.done = true ∧ t.complete = false ∧
      q.clusters.contains c.val = true ∧ t.arrived.contains c.val = false ∧
      (combinedAt (arrivalTree s p.val q) (t.arrived ++ [c.val]) c.val).all (fun a => pathOpen s 0 [a, nextHop s.wafer.routesFor 0 a (unitAt (barrierMark s p.val / 128))]) = false)) (s.ctx t.ctx.val)) (q.step)) (s.part p.val)) = true) ∧
    ((let s : State := (stepping { step0 with phase := .running, current := some { opcode := 8 }, complete := true, done := true }); let p : PartId := 0;
      Option.any (fun q => Option.any (fun t => Option.any (fun k => decide (s.part p.val = some q ∧ q.step = some t ∧ s.ctx t.ctx.val = some k ∧
      t.failed = none ∧ t.complete = true ∧ t.released = false ∧ s.wafer.stopped = false ∧
      (treeLinks (arrivalTree s p.val q)).all (fun x => pathOpen s 0 [x.2, x.1]) = true)) (s.ctx t.ctx.val)) (q.step)) (s.part p.val)) = true) ∧
    ((let s : State := { (stepping { step0 with phase := .running, current := some { opcode := 8 }, complete := true, done := true }) with wafer := { ready.wafer with stopped := true } };
      let p : PartId := 0; Option.any (fun q => Option.any (fun t => Option.any (fun k => decide (s.part p.val = some q ∧ q.step = some t ∧
      s.ctx t.ctx.val = some k ∧ t.failed = none ∧ t.complete = true ∧
      (s.wafer.stopped = true ∨ (treeLinks (arrivalTree s p.val q)).all (fun x => pathOpen s 0 [x.2, x.1]) = false))) (s.ctx t.ctx.val)) (q.step)) (s.part p.val)) = true) ∧
    ((let s : State := (stepping step0); let p : PartId := 0;
      Option.any (fun q => Option.any (fun t => Option.any (fun k => decide (s.part p.val = some q ∧ q.step = some t ∧ s.ctx t.ctx.val = some k ∧
      t.failed = none ∧ t.complete = false)) (s.ctx t.ctx.val)) (q.step)) (s.part p.val)) = true) ∧
    ((let s : State := (stepping { step0 with phase := .running, current := some { opcode := 8 }, complete := true, done := true, released := true });
      let p : PartId := 0; Option.any (fun q => Option.any (fun t => Option.any (fun k => let d : OpDesc := { opcode := 8 }; decide (s.part p.val = some q ∧
      q.step = some t ∧ s.ctx t.ctx.val = some k ∧ t.failed = none ∧ t.current = some d ∧ d.opcode ≠ 0x01 ∧ t.phase = .running ∧
      t.released = true)) (s.ctx t.ctx.val)) (q.step)) (s.part p.val)) = true) ∧
    ((let s : State := (stepping (running { opcode := 8 })); let p : PartId := 0;
      Option.any (fun q => Option.any (fun t => Option.any (fun k => let d : OpDesc := { opcode := 8 }; decide (s.part p.val = some q ∧ q.step = some t ∧
      s.ctx t.ctx.val = some k ∧ t.failed = none ∧ t.current = some d ∧ d.opcode ≠ 0x01 ∧ t.phase = .running ∧
      t.released = false)) (s.ctx t.ctx.val)) (q.step)) (s.part p.val)) = true) := by
  and_intros <;> decide +kernel

theorem test_meets_OperationsRunOneAtATime_by_hand :
    let t : Step := { step0 with phase := .running, current := some { opcode := 8 }, op := 1, done := true }
    let q : Partition := { groups := [0], state := .ready, step := some t };
      let s : State := stepping t
    s.part 0 = some q ∧ q.step = some t ∧ (s.ctx t.ctx.val).isSome = true ∧ t.failed = none ∧ t.phase = .running ∧
      t.done = true ∧
      t.complete = false ∧ q.clusters.contains 0 = true ∧ t.arrived.contains 0 = false ∧ s.wafer.stopped = false ∧
      (s.cluster 0).subs = [] ∧
      (∀ k, (s.core 0 k).waiting = [] ∧
      (s.coreStore 0 k).waiting = []) ∧
      (combinedAt (arrivalTree s 0 q) (t.arrived ++ [0]) 0).all (fun a =>
        pathOpen s 0 [a, nextHop s.wafer.routesFor 0 a (unitAt (barrierMark s 0 / 128))]) = true :=
  ⟨rfl, rfl, by decide +kernel, rfl, rfl, rfl, rfl, by decide +kernel, rfl, rfl, rfl, fun _ => ⟨rfl, rfl⟩, by decide +kernel⟩

theorem test_meets_StepsEndWithOneRecord :
    ((let s : State := (stepping (running { opcode := 1 })); let p : PartId := 0;
      Option.any (fun q => Option.any (fun t => Option.any (fun k => Option.any (fun d => decide (s.part p.val = some q ∧ q.step = some t ∧
      s.ctx t.ctx.val = some k ∧ lockedStep s = false ∧ t.current = some d ∧ d.opcode = 0x01 ∧ t.phase = .running ∧ t.done = false ∧ t.failed = none ∧
      recordsFree stDone t s = true)) (t.current)) (s.ctx t.ctx.val)) (q.step)) (s.part p.val)) = true) ∧
    ((let s : State := (stepping (running { opcode := 1 })); let p : PartId := 0;
      Option.any (fun q => Option.any (fun t => Option.any (fun k => Option.any (fun d => decide (s.part p.val = some q ∧ q.step = some t ∧
      s.ctx t.ctx.val = some k ∧ lockedStep s = false ∧ t.current = some d ∧ d.opcode = 0x01 ∧ t.phase = .running ∧ t.done = false ∧ t.failed = none ∧
      s.errs.seqCopyOff = false)) (t.current)) (s.ctx t.ctx.val)) (q.step)) (s.part p.val)) = true) ∧
    ((let s : State := { (stepping (running { opcode := 0 })) with errs := { ready.errs with seqCopyOff := true } }; let p : PartId := 0;
      Option.any (fun q => Option.any (fun t => Option.any (fun k => decide (s.part p.val = some q ∧ q.step = some t ∧ s.ctx t.ctx.val = some k ∧
      lockedStep s = false ∧ s.errs.seqCopyOff = true)) (s.ctx t.ctx.val)) (q.step)) (s.part p.val)) = true) ∧
    ((let s : State := (stepping { step0 with failed := some (9, 3) }); let p : PartId := 0;
      Option.any (fun q => Option.any (fun t => Option.any (fun k => Option.any (fun (st, op) => decide (s.part p.val = some q ∧ q.step = some t ∧
      s.ctx t.ctx.val = some k ∧ lockedStep s = false ∧ t.failed = some (st, op) ∧ t.phase ≠ .compared ∧ t.phase ≠ .ended ∧ st ≠ stDone ∧
      recordsFree st t s = true)) (t.failed)) (s.ctx t.ctx.val)) (q.step)) (s.part p.val)) = true) ∧
    ((let s : State := (stepping (running { opcode := 1 })); let p : PartId := 0;
      Option.any (fun q => Option.any (fun t => Option.any (fun k => decide (s.part p.val = some q ∧ q.step = some t ∧ s.ctx t.ctx.val = some k ∧
      lockedStep s = false ∧ t.failed = none)) (s.ctx t.ctx.val)) (q.step)) (s.part p.val)) = true) ∧
    ((let s : State := (stepping (running { opcode := 0 })); let p : PartId := 0;
      Option.any (fun q => Option.any (fun t => Option.any (fun k => Option.any (fun d => decide (s.part p.val = some q ∧ q.step = some t ∧
      s.ctx t.ctx.val = some k ∧ lockedStep s = false ∧ t.current = some d ∧ d.opcode = 0x00 ∧ t.phase = .running ∧ t.done = false ∧
      t.failed = none)) (t.current)) (s.ctx t.ctx.val)) (q.step)) (s.part p.val)) = true) ∧
    ((let s : State := kvStep; let p : PartId := 0;
      Option.any (fun q => Option.any (fun t => Option.any (fun k => Option.any (fun c => decide (s.part p.val = some q ∧ q.step = some t ∧
      t.kind = .decode ∧ s.ctx t.ctx.val = some k ∧ k.kv = some c)) (k.kv)) (s.ctx t.ctx.val)) (q.step)) (s.part p.val)) = true) ∧
    ((let s : State := (stepping (running { opcode := 1 })); let p : PartId := 0; Option.any (fun q => Option.any (fun t => decide (s.part p.val = some q ∧
      q.step = some t ∧ t.kind ≠ .decode)) (q.step)) (s.part p.val)) = true) ∧
    ((let s : State := (stepping { step0 with phase := .gangHold 5 }); let p : PartId := 0; Option.any (fun q => Option.any (fun t => let w := 5;
      decide (s.part p.val = some q ∧ q.step = some t ∧ t.phase = .gangHold w ∧ navigatorAt p.val w s = true)) (q.step)) (s.part p.val)) = true) ∧
    ((let s : State := (stepping { step0 with phase := .gangHold 90000000000 }); let p : PartId := 0;
      Option.any (fun q => Option.any (fun t => let w := 90000000000; decide (s.part p.val = some q ∧ q.step = some t ∧ t.phase = .gangHold w ∧
      navigatorAt p.val w s = false)) (q.step)) (s.part p.val)) = true) ∧
    ((let s : State := (stepping { step0 with phase := .lockedHold 90000000000 }); let p : PartId := 0;
      Option.any (fun q => Option.any (fun t => let w := 90000000000; decide (s.part p.val = some q ∧ q.step = some t ∧ t.phase = .lockedHold w ∧
      navigatorAt p.val w s = false)) (q.step)) (s.part p.val)) = true) ∧
    ((let s : State := (stepping { step0 with phase := .lockedHold 5 }); let p : PartId := 0; Option.any (fun q => Option.any (fun t => let w := 5;
      decide (s.part p.val = some q ∧ q.step = some t ∧ t.phase = .lockedHold w ∧ navigatorAt p.val w s = true)) (q.step)) (s.part p.val)) = true) ∧
    ((let s : State := (stepping (running { opcode := 1 })); let p : PartId := 0; Option.any (fun q => Option.any (fun t => decide (s.part p.val = some q ∧
      q.step = some t ∧ t.phase = .running)) (q.step)) (s.part p.val)) = true) := by
  and_intros <;> decide +kernel

theorem test_meets_OperationsCarryOutTheirWork :
    ((let s : State := (stepping (running { opcode := 2, m := 1, n := 64, k := 64, g := 1, addrA := 16, addrB := 64, addrD := 128, addrX := 200, fmtA := 8, fmtB := 8, fmtD := 8 }));
      let p : PartId := 0; let h : List HwFault := []; let q : Partition := (s.part p.val).getD { groups := [] };
      let t : Step := (s.stepOf p.val).getD step0; let d : OpDesc := ((s.stepOf p.val).bind (·.current)).getD {};
      List.any (Safety.operations p h) (fun x => decide (Safety.Running s p q t d ∧ x.2.1 d = true ∧ zeroWork d = false))) = true) ∧
    ((let s : State := (stepping (running { opcode := 2 })); let p : PartId := 0; let h : List HwFault := [];
      let q : Partition := (s.part p.val).getD { groups := [] }; let t : Step := (s.stepOf p.val).getD step0;
      let d : OpDesc := ((s.stepOf p.val).bind (·.current)).getD {}; List.any (Safety.operations p h) (fun x => decide (Safety.Running s p q t d ∧
      x.2.1 d = true ∧ zeroWork d = true))) = true) ∧
    ((let s : State := (stepping (running { opcode := 2, m := 1, n := 64, k := 64, g := 1, addrA := 16, addrB := 64, addrD := 128, addrX := 200, fmtA := 8, fmtB := 8, fmtD := 8 }));
      let p : PartId := 0; let h : List HwFault := []; List.any (Safety.operations p h) (fun x => let q := (s.part p.val).getD { groups := [] };
      let t := (s.stepOf p.val).getD step0; let d := ((s.stepOf p.val).bind (·.current)).getD {}; decide (Safety.Running s p q t d ∧
      x.2.1 d = false))) = true) ∧
    (Safety.operations 0 [] ≠ [] ∧ up.part 0 = none) := by
  and_intros <;> decide +kernel

theorem test_meets_MoveCopiesAsThroughABuffer :
    ((let s : State := (stepping (running { opcode := 8, n := 64, addrA := 0, addrD := 128 })); let p : PartId := 0;
      let q : Partition := (s.part p.val).getD { groups := [] }; let t : Step := (s.stepOf p.val).getD step0;
      let d : OpDesc := ((s.stepOf p.val).bind (·.current)).getD {}; decide (Safety.Running s p q t d ∧ isOp 0x08 d = true ∧ d.n ≠ 0 ∧ 64 ∣ d.n ∧
      Safety.Open s t (moveWork ⟨s, q.clusters, t, d⟩) ∧ poisonedWords s (moveWork ⟨s, q.clusters, t, d⟩).reads = [] ∧ d.layA = 0)) = true) := by decide +kernel

theorem test_meets_SequenceOperationsCarryOut :
    ((let s : State := (kvRunning { opcode := 12, m := 1, n := 64, k := 64, g := 1, addrA := 16, addrB := 64, addrD := 128, addrX := 200, fmtA := 8, fmtB := 8, fmtD := 8 });
      let p : PartId := 0; let q : Partition := (s.part p.val).getD { groups := [] }; let t : Step := (s.stepOf p.val).getD step0;
      Option.any (fun k => Option.any (fun c => let d : OpDesc := ((s.stepOf p.val).bind (·.current)).getD {}; decide (Safety.Running s p q t d ∧
      zeroWork d = false ∧ s.ctx t.ctx.val = some k ∧ k.kv = some c ∧ c.perPage ≤ 7 ∧ isOp 0x0C d = true)) (k.kv)) (s.ctx t.ctx.val)) = true) ∧
    ((let s : State := (kvRunning { opcode := 13, m := 1, n := 64, k := 64, g := 1, addrA := 16, addrB := 64, addrD := 128, addrX := 200, fmtA := 8, fmtB := 8, fmtD := 8 });
      let p : PartId := 0; let q : Partition := (s.part p.val).getD { groups := [] }; let t : Step := (s.stepOf p.val).getD step0;
      Option.any (fun k => Option.any (fun c => let d : OpDesc := ((s.stepOf p.val).bind (·.current)).getD {}; decide (Safety.Running s p q t d ∧
      zeroWork d = false ∧ s.ctx t.ctx.val = some k ∧ k.kv = some c ∧ c.perPage ≤ 7 ∧ isOp 0x0D d = true)) (k.kv)) (s.ctx t.ctx.val)) = true) ∧
    ((let s : State := (kvRunning { opcode := 14, m := 1, n := 64, k := 64, g := 1, addrA := 16, addrB := 64, addrD := 128, addrX := 200, fmtA := 8, fmtB := 8, fmtD := 8 });
      let p : PartId := 0; let q : Partition := (s.part p.val).getD { groups := [] }; let t : Step := (s.stepOf p.val).getD step0;
      Option.any (fun k => Option.any (fun c => let d : OpDesc := ((s.stepOf p.val).bind (·.current)).getD {}; decide (Safety.Running s p q t d ∧
      zeroWork d = false ∧ s.ctx t.ctx.val = some k ∧ k.kv = some c ∧ c.perPage ≤ 7 ∧ isOp 0x0E d = true)) (k.kv)) (s.ctx t.ctx.val)) = true) ∧
    ((let s : State := (kvRunning { opcode := 5, m := 1, n := 64, k := 64, g := 1, addrA := 16, addrB := 64, addrD := 128, addrX := 200, fmtA := 8, fmtB := 8, fmtD := 8, p0 := 0x10001 });
      let p : PartId := 0; let q : Partition := (s.part p.val).getD { groups := [] }; let t : Step := (s.stepOf p.val).getD step0;
      Option.any (fun k => Option.any (fun c => let d : OpDesc := ((s.stepOf p.val).bind (·.current)).getD {}; decide (Safety.Running s p q t d ∧
      zeroWork d = false ∧ s.ctx t.ctx.val = some k ∧ k.kv = some c ∧ c.perPage ≤ 7 ∧ isOp 0x05 d = true)) (k.kv)) (s.ctx t.ctx.val)) = true) ∧
    ((let s : State := (kvRunning { opcode := 17, m := 1, n := 64, k := 64, g := 1, addrA := 16, addrB := 64, addrD := 128, addrX := 200, fmtA := 8, fmtB := 8, fmtD := 8 });
      let p : PartId := 0; let q : Partition := (s.part p.val).getD { groups := [] }; let t : Step := (s.stepOf p.val).getD step0;
      Option.any (fun k => Option.any (fun c => let d : OpDesc := ((s.stepOf p.val).bind (·.current)).getD {}; decide (Safety.Running s p q t d ∧
      zeroWork d = false ∧ s.ctx t.ctx.val = some k ∧ k.kv = some c ∧ c.perPage ≤ 7 ∧ isOp 0x11 d = true)) (k.kv)) (s.ctx t.ctx.val)) = true) ∧
    ((let s : State := (kvRunning { opcode := 12, m := 1, n := 64, k := 64, g := 1, addrA := 16, addrB := 64, addrD := 128, addrX := 200, fmtA := 8, fmtB := 8, fmtD := 8 });
      let p : PartId := 0; let h : List HwFault := []; let q : Partition := (s.part p.val).getD { groups := [] };
      let t : Step := (s.stepOf p.val).getD step0; Option.any (fun k => Option.any (fun c => let d : OpDesc := ((s.stepOf p.val).bind (·.current)).getD {};
      let i : Instr × Nat := (.attnDecode 0 [], 0x0D); decide (Safety.Running s p q t d ∧ zeroWork d = false ∧ s.ctx t.ctx.val = some k ∧ k.kv = some c ∧
      c.perPage ≤ 7 ∧ i ∈ [(.kvAppend p h, 0x0C), (.attnDecode p h, 0x0D), (.attnPrefill p h, 0x0E), (.predict p h, 0x05), (.sample p h, 0x11)] ∧
      isOp i.2 d = false)) (k.kv)) (s.ctx t.ctx.val)) = true) := by
  and_intros <;> decide +kernel

theorem test_meets_MarkOpcodesWaitForTheirUnit :
    ((let s : State := (stepping (running { opcode := 18, mark := some 200, p0 := 0, p1 := 7 })); let p : PartId := 0;
      let q : Partition := (s.part p.val).getD { groups := [] }; let t : Step := (s.stepOf p.val).getD step0;
      let d := ((s.stepOf p.val).bind (·.current)).getD {}; Option.any (fun k => decide (Safety.Running s p q t d ∧ isOp 0x12 d = true ∧
      d.mark = some k)) (d.mark)) = true) ∧
    ((let s : State := (stepping (running { opcode := 19, mark := some 200, p0 := 0, p1 := 7 })); let p : PartId := 0;
      let q : Partition := (s.part p.val).getD { groups := [] }; let t : Step := (s.stepOf p.val).getD step0;
      let d := ((s.stepOf p.val).bind (·.current)).getD {}; Option.any (fun k => decide (Safety.Running s p q t d ∧ isOp 0x13 d = true ∧
      d.mark = some k)) (d.mark)) = true) ∧
    ((let s : State := (stepping (running { opcode := 18 })); let p : PartId := 0; let q : Partition := (s.part p.val).getD { groups := [] };
      let t : Step := (s.stepOf p.val).getD step0; let d := ((s.stepOf p.val).bind (·.current)).getD {}; decide (Safety.Running s p q t d ∧
      isOp 0x12 d = true ∧ d.mark = none)) = true) ∧
    ((let s : State := (stepping (running { opcode := 19 })); let p : PartId := 0; let q : Partition := (s.part p.val).getD { groups := [] };
      let t : Step := (s.stepOf p.val).getD step0; let d := ((s.stepOf p.val).bind (·.current)).getD {}; decide (Safety.Running s p q t d ∧
      isOp 0x13 d = true ∧ d.mark = none)) = true) ∧
    ((let s : State := { stepping { step0 with phase := .waiting } with net := { fabric := [⟨0, 1, 4, .wake⟩] } }; let p : PartId := 0;
      Option.any (fun m => let q : Partition := (s.part p.val).getD { groups := [] }; let t : Step := (s.stepOf p.val).getD step0;
      decide (s.part p.val = some q ∧ q.step = some t ∧ t.phase = .waiting ∧
      s.net.fabric.find? (fun x => x.part == p && x.body == .wake && x.mayCross s) = some m)) (s.net.fabric.find? (fun x => x.part == p && x.body == .wake && x.mayCross s))) = true) ∧
    ((let s : State := { stepping { step0 with phase := .signalling } with net := { fabric := [⟨0, 1, 4, .ack⟩] } }; let p : PartId := 0;
      Option.any (fun m => let q : Partition := (s.part p.val).getD { groups := [] }; let t : Step := (s.stepOf p.val).getD step0;
      decide (s.part p.val = some q ∧ q.step = some t ∧ t.phase = .signalling ∧
      s.net.fabric.find? (fun x => x.part == p && x.body == .ack && x.mayCross s) = some m)) (s.net.fabric.find? (fun x => x.part == p && x.body == .ack && x.mayCross s))) = true) ∧
    ((let s : State := (stepping (running { opcode := 18, mark := some 200, p0 := 0, p1 := 7 })); let p : PartId := 0;
      decide ((∀ m ∈ s.net.fabric, m.part ≠ p ∨ m.body ≠ .wake ∨ m.mayCross s = false))) = true) ∧
    ((let s : State := (stepping (running { opcode := 18, mark := some 200, p0 := 0, p1 := 7 })); let p : PartId := 0;
      decide ((∀ m ∈ s.net.fabric, m.part ≠ p ∨ m.body ≠ .ack ∨ m.mayCross s = false))) = true) := by
  and_intros <;> decide +kernel

theorem test_meets_MarkOperationsAct_1 :
    ((let s : State := (withMark {value := 3} (stepping (running { opcode := 18 }))); let k : MarkId := 20; let src : MarkSrc := .host;
      let e : Option EccKind := none; decide ((s.mark k.val).waiters = [] ∧ (s.mark k.val).bad = false ∧ e ≠ some .uncorrectable ∧
      (s.mark k.val).kind = .counter ∧ sends s k.val 0 src = true ∧ sourceWaits k.val 0 src s = false)) = true) ∧
    ((let s : State := (withMark {value := 3} (stepping (running { opcode := 18 }))); let k : MarkId := 20; let src : MarkSrc := .host;
      let e : Option EccKind := none; decide ((s.mark k.val).waiters = [] ∧ (s.mark k.val).bad = false ∧ e ≠ some .uncorrectable ∧
      (s.mark k.val).kind = .counter ∧ sends s k.val 1 src = true ∧ sourceWaits k.val 1 src s = false)) = true) ∧
    ((let s : State := (withMark {kind := .barrier, target := 2} (stepping (running { opcode := 18 }))); let k : MarkId := 20; let src : MarkSrc := .host;
      let e : Option EccKind := none; decide ((s.mark k.val).waiters = [] ∧ (s.mark k.val).bad = false ∧ e ≠ some .uncorrectable ∧
      (s.mark k.val).kind = .barrier ∧ sends s k.val 2 src = true ∧ sourceWaits k.val 2 src s = false)) = true) ∧
    ((let s : State := (withMark {value := 3} (stepping (running { opcode := 18 }))); let k : MarkId := 20; let src : MarkSrc := .host;
      let e : Option EccKind := none; decide ((s.mark k.val).waiters = [] ∧ (s.mark k.val).bad = false ∧ e ≠ some .uncorrectable ∧
      (s.mark k.val).kind ≠ .gang ∧ sends s k.val 3 src = true ∧ sourceWaits k.val 3 src s = false)) = true) ∧
    ((let s : State := (withMark {kind := .gang, target := 2, members := [5], period := 1000} (stepping (running { opcode := 18 }))); let k : MarkId := 20;
      let e : Option EccKind := none; decide ((s.mark k.val).waiters = [] ∧ (s.mark k.val).bad = false ∧ e ≠ some .uncorrectable ∧
      (s.mark k.val).kind = .gang)) = true) ∧
    ((let s : State := (withMark {value := 3} (stepping (running { opcode := 18 }))); let k : MarkId := 20; let src : MarkSrc := .firmware;
      let e : Option EccKind := none; decide ((s.mark k.val).waiters = [] ∧ (s.mark k.val).bad = false ∧ e ≠ some .uncorrectable ∧
      sends s k.val 0 src = false)) = true) ∧
    ((let s : State := (withMark {value := 3} (stepping (running { opcode := 18 }))); let k : MarkId := 20; let src : MarkSrc := .firmware;
      let e : Option EccKind := none; decide ((s.mark k.val).waiters = [] ∧ (s.mark k.val).bad = false ∧ e ≠ some .uncorrectable ∧
      sends s k.val 1 src = false)) = true) ∧
    ((let s : State := (withMark {value := 3} (stepping (running { opcode := 18 }))); let k : MarkId := 20; let src : MarkSrc := .firmware;
      let e : Option EccKind := none; decide ((s.mark k.val).waiters = [] ∧ (s.mark k.val).bad = false ∧ e ≠ some .uncorrectable ∧
      sends s k.val 3 src = false)) = true) ∧
    ((let s : State := (withMark {value := 3} (stepping (running { opcode := 18 }))); let k : MarkId := 20; let e : Option EccKind := none;
      decide ((s.mark k.val).waiters = [] ∧ (s.mark k.val).bad = false ∧ e ≠ some .uncorrectable)) = true) ∧
    ((let s : State := (withMark {value := 3} (stepping (running { opcode := 18 }))); let k : MarkId := 20; let c : CtxId := 5; let w : W32 := 0;
      let p : PartId := 0; let t : Step := ((runningStep s c.val).map (·.2)).getD step0; let e : Option EccKind := none;
      decide (mapsMark s c.val k.val = true ∧ runningStep s c.val = some (p.val, t) ∧ (s.mark k.val).waiters = [] ∧ (s.mark k.val).bad = false ∧
      e ≠ some .uncorrectable ∧ sourceWaits k.val 16 (.context c) s = false ∧ reached (s.mark k.val).value w = true)) = true) ∧
    ((let s : State := (withMark {value := 3} (stepping (running { opcode := 18 }))); let k : MarkId := 20; let c : CtxId := 5; let w : W32 := 4;
      let p : PartId := 0; let t : Step := ((runningStep s c.val).map (·.2)).getD step0; let e : Option EccKind := none;
      decide (mapsMark s c.val k.val = true ∧ runningStep s c.val = some (p.val, t) ∧ (s.mark k.val).waiters = [] ∧ (s.mark k.val).bad = false ∧
      e ≠ some .uncorrectable ∧ sourceWaits k.val 16 (.context c) s = false ∧ reached (s.mark k.val).value w = false)) = true) ∧
    ((let s : State := (withMark {value := 3} (stepping (running { opcode := 18 }))); let k : MarkId := 20; let c : CtxId := 5; let w : W32 := 0;
      let p : PartId := 0; let t : Step := ((runningStep s c.val).map (·.2)).getD step0; let e : Option EccKind := none;
      decide (mapsMark s c.val k.val = true ∧ runningStep s c.val = some (p.val, t) ∧ (s.mark k.val).waiters = [] ∧ (s.mark k.val).bad = false ∧
      e ≠ some .uncorrectable ∧ sourceWaits k.val 18 (.context c) s = false ∧ (s.mark k.val).kind = .counter ∧ w ≤ (s.mark k.val).value)) = true) ∧
    ((let s : State := (withMark {value := 3} (stepping (running { opcode := 18 }))); let k : MarkId := 20; let c : CtxId := 5; let w : W32 := 4;
      let p : PartId := 0; let t : Step := ((runningStep s c.val).map (·.2)).getD step0; let e : Option EccKind := none;
      decide (mapsMark s c.val k.val = true ∧ runningStep s c.val = some (p.val, t) ∧ (s.mark k.val).waiters = [] ∧ (s.mark k.val).bad = false ∧
      e ≠ some .uncorrectable ∧ sourceWaits k.val 18 (.context c) s = false ∧ (s.mark k.val).kind = .counter ∧ (s.mark k.val).value < w)) = true) ∧
    ((let s : State := (withMark {kind := .barrier, target := 2} (stepping (running { opcode := 18 }))); let k : MarkId := 20; let c : CtxId := 5;
      let p : PartId := 0; let t : Step := ((runningStep s c.val).map (·.2)).getD step0; let e : Option EccKind := none;
      decide (mapsMark s c.val k.val = true ∧ runningStep s c.val = some (p.val, t) ∧ (s.mark k.val).waiters = [] ∧ (s.mark k.val).bad = false ∧
      e ≠ some .uncorrectable ∧ (s.mark k.val).kind ≠ .counter)) = true) := by
  and_intros <;> decide +kernel

theorem test_meets_MarkOperationsAct_2 :
    ((let s : State := (withMark {kind := .barrier, target := 2} (stepping (running { opcode := 18 }))); let k : MarkId := 20; let c : CtxId := 5;
      let p : PartId := 0; let t : Step := ((runningStep s c.val).map (·.2)).getD step0; let e : Option EccKind := none;
      decide (mapsMark s c.val k.val = true ∧ runningStep s c.val = some (p.val, t) ∧ (s.mark k.val).waiters = [] ∧ (s.mark k.val).bad = false ∧
      e ≠ some .uncorrectable ∧ sourceWaits k.val 17 (.context c) s = false ∧ (s.mark k.val).kind = .barrier ∧
      (s.mark k.val).count + 1 ≠ (s.mark k.val).target)) = true) ∧
    ((let s : State := (withMark {kind := .barrier, target := 1, value := 4} (stepping (running { opcode := 18 }))); let k : MarkId := 20;
      let c : CtxId := 5; let p : PartId := 0; let t : Step := ((runningStep s c.val).map (·.2)).getD step0; let e : Option EccKind := none;
      decide (mapsMark s c.val k.val = true ∧ runningStep s c.val = some (p.val, t) ∧ (s.mark k.val).waiters = [] ∧ (s.mark k.val).bad = false ∧
      e ≠ some .uncorrectable ∧ sourceWaits k.val 17 (.context c) s = false ∧ (s.mark k.val).kind = .barrier ∧
      (s.mark k.val).count + 1 = (s.mark k.val).target)) = true) ∧
    ((let s : State := (withMark {value := 3} (stepping (running { opcode := 18 }))); let k : MarkId := 20; let c : CtxId := 5; let p : PartId := 0;
      let t : Step := ((runningStep s c.val).map (·.2)).getD step0; let e : Option EccKind := none; decide (mapsMark s c.val k.val = true ∧
      runningStep s c.val = some (p.val, t) ∧ (s.mark k.val).waiters = [] ∧ (s.mark k.val).bad = false ∧ e ≠ some .uncorrectable ∧
      (s.mark k.val).kind ≠ .barrier)) = true) ∧
    ((let s : State := (withMark {value := 3} (stepping (running { opcode := 18 }))); let k : MarkId := 20; let c : CtxId := 5; let p : PartId := 0;
      let t : Step := ((runningStep s c.val).map (·.2)).getD step0; let e : Option EccKind := none; decide (mapsMark s c.val k.val = true ∧
      runningStep s c.val = some (p.val, t) ∧ (s.mark k.val).waiters = [] ∧ (s.mark k.val).bad = false ∧ e ≠ some .uncorrectable)) = true) ∧
    ((let s : State := (withMark {value := 3} (stepping (running { opcode := 18 }))); let k : MarkId := 20;
      let e : Option EccKind := (some .uncorrectable); decide (((s.mark k.val).bad = true ∨ e = some .uncorrectable))) = true) := by
  and_intros <;> decide +kernel

theorem test_meets_GangsReleaseTogetherAndQuietWaitsAreRecorded :
    ((let s : State := (withMark { kind := .gang, target := 1, members := [5], period := 1000 } (stepping { step0 with phase := .gangWait }));
      let k : MarkId := 20; let c : CtxId := 5; Option.any (fun (p, t) => let e : Option EccKind := none; decide ((s.mark k.val).kind = .gang ∧
      runningStep s c.val = some (p, t) ∧ t.phase = .gangWait ∧ c ∈ (s.mark k.val).members ∧ c ∉ (s.mark k.val).arrived ∧
      (s.mark k.val).count + 1 = (s.mark k.val).target ∧ (s.mark k.val).target ≠ 0 ∧ (∀ w ∈ (s.mark k.val).waiters, w.mode = .gang) ∧
      (s.mark k.val).bad = false ∧ e ≠ some .uncorrectable ∧ s.wafer.stopped = false)) (runningStep s c.val)) = true) ∧
    ((let s : State := (withMark { kind := .gang, target := 1, members := [5], period := 1000 } (stepping step0)); let k : MarkId := 20;
      let c : CtxId := 5; Option.any (fun (p, t) => let e : Option EccKind := none; decide ((s.mark k.val).kind = .gang ∧
      runningStep s c.val = some (p, t) ∧ (s.mark k.val).bad = false ∧ e ≠ some .uncorrectable ∧
      (t.phase ≠ .gangWait ∨ c ∉ (s.mark k.val).members ∨ s.wafer.stopped = true))) (runningStep s c.val)) = true) ∧
    ((let s : State := (withMark { kind := .gang, target := 1, members := [5], period := 1000 } (stepping { step0 with phase := .gangWait }));
      let k : MarkId := 20; let n : Nat := 1; decide (n ≠ 0 ∧ (markNow s k.val).toNat + 4000 + n < 2 ^ 64)) = true) ∧
    ((let s : State := (withMark { kind := .counter, waiters := [⟨5, .atLeast, 9, 0, none⟩] } (stepping { step0 with phase := .waiting, current := some { opcode := 0x13 } }));
      let c : CtxId := 5; Option.any (fun (p, t) => Option.any (fun x => decide (runningStep s c.val = some (p, t) ∧ s.ctx c.val = some x ∧
      waitingEngines s c ≠ [] ∧ x.episode = false ∧ x.lookout = none ∧
      msTicks x.lookoutMs ≤ s.since x.quietSince)) (s.ctx c.val)) (runningStep s c.val)) = true) ∧
    ((let s : State := { (withMark { kind := .counter, waiters := [⟨5, .atLeast, 9, 0, none⟩] } (stepping { step0 with phase := .waiting, current := some { opcode := 0x13 } })) with ctxs := [(5, { part := 0, vmarks := [(0, 20)], lookout := some ⟨5, 0, 0, 0, 0, 0, 0, []⟩ })] };
      let c : CtxId := 5; Option.any (fun (p, t) => Option.any (fun x => decide (runningStep s c.val = some (p, t) ∧ s.ctx c.val = some x ∧
      waitingEngines s c ≠ [] ∧ x.episode = false ∧ x.lookout ≠ none ∧
      msTicks x.lookoutMs ≤ s.since x.quietSince)) (s.ctx c.val)) (runningStep s c.val)) = true) ∧
    ((let s : State := { ready with ctxs := [(5, { part := 0, lookoutMs := 60000, quietSince := 79999999999 })] }; let c : CtxId := 5;
      Option.any (fun x => decide (s.ctx c.val = some x ∧ (s.since x.quietSince < msTicks x.lookoutMs ∨ x.episode = true))) (s.ctx c.val)) = true) ∧
    ((let s : State := (withMark { kind := .gang, target := 1, members := [5], period := 1000 } (stepping { step0 with phase := .gangWait }));
      let c : CtxId := 5; decide (waitingEngines s c = [])) = true) := by
  and_intros <;> decide +kernel

theorem test_meets_DoorbellsOutOfRangeAreRefused :
    ((let s : State := ready; let f : Fn := 0; let n : RingId := 3; Option.any (fun r => let v : W32 := 65; decide (s.link.up = true ∧
      isSecondary s = false ∧ reaches s f r.ctx = true ∧ s.sq.find n.val = some r ∧
      (2 ^ r.log2 < (v - r.cons).toInt ∨ (v - r.prod).toInt < 0))) (s.sq.find n.val)) = true) ∧
    ((let s : State := ready; let f : Fn := 0; let n : RingId := 4; Option.any (fun r => let v : W32 := 1; decide (s.link.up = true ∧
      isSecondary s = false ∧ reaches s f r.ctx = true ∧ s.cq.find n.val = some r ∧
      (0 < (v - r.prod).toInt ∨ (v - r.cons).toInt < 0))) (s.cq.find n.val)) = true) ∧
    ((let s : State := ready; let f : Fn := 0; let n : RingId := 6; Option.any (fun r => let v : W32 := 1; decide (s.link.up = true ∧
      isSecondary s = false ∧ reaches s f r.ctx = true ∧ s.tq.find n.val = some r ∧
      (0 < (v - r.prod).toInt ∨ (v - r.cons).toInt < 0))) (s.tq.find n.val)) = true) ∧
    ((let s : State := ready; let f : Fn := 0; let n : RingId := 3; Option.any (fun r => let v : W32 := 0; decide (s.link.up = true ∧
      isSecondary s = false ∧ reaches s f r.ctx = true ∧ s.sq.find n.val = some r ∧ (v - r.cons).toInt ≤ 2 ^ r.log2 ∧
      0 ≤ (v - r.prod).toInt)) (s.sq.find n.val)) = true) ∧
    ((let s : State := ready; let f : Fn := 0; let n : RingId := 4; Option.any (fun r => let v : W32 := 0; decide (s.link.up = true ∧
      isSecondary s = false ∧ reaches s f r.ctx = true ∧ s.cq.find n.val = some r ∧ (v - r.prod).toInt ≤ 0 ∧
      0 ≤ (v - r.cons).toInt)) (s.cq.find n.val)) = true) ∧
    ((let s : State := ready; let f : Fn := 0; let n : RingId := 6; Option.any (fun r => let v : W32 := 0; decide (s.link.up = true ∧
      isSecondary s = false ∧ reaches s f r.ctx = true ∧ s.tq.find n.val = some r ∧ (v - r.prod).toInt ≤ 0 ∧ 0 ≤ (v - r.cons).toInt ∧
      s.heldRecs.getD n.val [] = [])) (s.tq.find n.val)) = true) := by
  and_intros <;> decide +kernel

theorem test_meets_RegisterWritesAct :
    ((let s : State := ready; let f : Fn := 0; let n : RingId := 4; decide (s.link.up = true ∧
      (s.sq.find n.val).all (fun r => decide (reaches s f r.ctx = false)) = true)) = true) ∧
    ((let s : State := ready; let f : Fn := 0; let n : RingId := 3; decide (s.link.up = true ∧
      (s.cq.find n.val).all (fun r => decide (reaches s f r.ctx = false)) = true)) = true) ∧
    ((let s : State := ready; let f : Fn := 0; let n : RingId := 3; decide (s.link.up = true ∧
      (s.tq.find n.val).all (fun r => decide (reaches s f r.ctx = false)) = true)) = true) ∧
    ((let s : State := ready; decide (s.link.up = true)) = true) ∧
    ((let s : State := ready; let f : Fn := 1; let c : CtxId := 5; Option.any (fun k => decide (s.link.up = true ∧ f ≠ 0 ∧
      s.ctx c.val = some k)) (s.ctx c.val)) = true) ∧
    ((let s : State := ready; let bar : Nat := 0; decide (s.link.up = true ∧ Safety.Settled s ∧ (bar = barRegisters ∨ bar = barDoorbells))) = true) ∧
    ((let s : State := ready; let off : Nat := 0; decide (s.link.up = true ∧ Safety.Settled s ∧ off % 4 = 0 ∧
      off ∉ [0x020, 0x024, 0x104, 0x108, 0x10C, 0x110, 0x114, 0x124])) = true) ∧
    ((let s : State := ready; let f : Fn := 1; decide (s.link.up = true ∧ Safety.Settled s ∧ f ≠ 0)) = true) ∧
    ((let s : State := ready; let f : Fn := 0; let n := 0; decide (s.link.up = true ∧ Safety.Settled s ∧ n < vectorsOf f ∧ (s.fnr f.val).pba = [])) = true) ∧
    ((let s : State := ready; let f : Fn := 0; let n := 2048; decide (s.link.up = true ∧ Safety.Settled s ∧ vectorsOf f ≤ n)) = true) ∧
    ((let s : State := { ready with fns := [(0, { bme := true }), (1, { bme := true, msixOn := true, pba := [3], vectors := [(3, { masked := true, addr := 0x1000, data := 9 })] })] };
      let f : Fn := 1; let n : Nat := 3; let v : W32 := 0; let e : MsixVector := ((s.fnr f.val).vectors.getD n {}); decide (s.link.up = true ∧
      n < vectorsOf f ∧ (s.fnr f.val).vectors.getD n {} = e ∧ (s.fnr f.val).msixOn = true ∧ (s.fnr f.val).msixMask = false ∧ (s.fnr f.val).bme = true ∧
      (s.fnr f.val).pba = [n] ∧ v.getLsbD 0 = false)) = true) ∧
    ((let s : State := { up with link := {} }; decide (s.link.up = false)) = true) := by
  and_intros <;> decide +kernel

theorem test_meets_HostTimersAndPtmAct :
    ((let s : State := { up with fns := [(0, { bme := true, sbLo := 1 }), (1, { bme := true, sbLo := 5, sbHi := 1, mask := 0 })] }; let f : Fn := 0;
      decide (s.link.up = true ∧ (s.fnr f.val).sbLo.toNat % 2 = 1 ∧ (s.fnr f.val).bme = true)) = true) ∧
    ((let s : State := ready; let f : Fn := 0; decide (s.link.up = true ∧ (s.fnr f.val).sbLo.toNat % 2 = 0)) = true) ∧
    ((let s : State := { { ready with cq := ready.cq.modify 4 (fun r => { r with prod := 2, unsignalled := 1, vector := some 3, coalUs := 5 }), tq := ready.tq.modify 6 (fun r => { r with prod := 2, unsignalled := 1, vector := some 3, coalUs := 5 }) } with fns := [(0, { bme := true }), (1, { bme := true, msixOn := true })] };
      let n : RingId := 4; Option.any (fun r => let v := 3; decide (s.link.up = true ∧ s.cq.find n.val = some r ∧ r.vector = some v ∧ r.unsignalled ≠ 0 ∧
      r.coalUs ≠ 0 ∧ (s.fnr r.fn.val).msixOn = true)) (s.cq.find n.val)) = true) ∧
    ((let s : State := { { ready with cq := ready.cq.modify 4 (fun r => { r with prod := 2, unsignalled := 1, vector := some 3, coalUs := 5 }), tq := ready.tq.modify 6 (fun r => { r with prod := 2, unsignalled := 1, vector := some 3, coalUs := 5 }) } with fns := [(0, { bme := true }), (1, { bme := true, msixOn := true })] };
      let n : RingId := 6; Option.any (fun r => let v := 3; decide (s.link.up = true ∧ s.tq.find n.val = some r ∧ r.vector = some v ∧ r.unsignalled ≠ 0 ∧
      r.coalUs ≠ 0 ∧ (s.fnr r.fn.val).msixOn = true)) (s.tq.find n.val)) = true) ∧
    ((let s : State := ready; let f : Fn := 0; decide (s.link.up = true ∧ (s.fnr f.val).bme = true ∧ (s.fnr f.val).pending = none)) = true) ∧
    ((let s : State := (fed ready); let n : RingId := 3; Option.any (fun (q, k) => let f := q.fn; decide (s.link.up = true ∧
      takeable s n.val = some (q, k) ∧ q.fn = f)) (takeable s n.val)) = true) ∧
    ((let s : State := { up with link := { up.link with ptmEnable := true } }; let v : W32 := 1; decide (s.link.up = true ∧ s.link.ptmEnable = true ∧
      v.getLsbD 0 = true ∧ s.link.ptmOpen = none)) = true) ∧
    ((let s : State := ready; let v : W32 := 0; decide (s.link.up = true ∧ (s.link.ptmEnable = false ∨ v.getLsbD 0 = false))) = true) ∧
    ((let s : State := ready; decide (s.link.up = true ∧ s.link.ptmEnable = false)) = true) := by
  and_intros <;> decide +kernel

theorem test_meets_HostTimersAndPtmAct_by_hand :
    let s : State := { up with fns := [(1, { sbLo := 1 })] }
    s.link.up = true ∧ (s.fnr 1).bme = false ∧ (s.fnr 1).unread = none ∧
      ∀ p t, s.stepOf p = some t → t.phase ≠ .ended :=
  ⟨rfl, rfl, rfl, fun _ _ h => nomatch h⟩

theorem test_meets_LinkAndFunctionResetsAct :
    ((let s : State := up; let w := 16; let v := 7; decide (s.life.stageDone10 = true ∧ s.life.perstOn = false ∧ (s.die hostDie).failed = false ∧
      min w (hostWidth s.link.lanesOut) ∈ [1, 2, 4, 8, 16] ∧ 1 ≤ v ∧ v ≤ 7)) = true) ∧
    ((let s : State := State.reset; let w := 16; let v := 7; decide ((s.life.perstOn = true ∨ v = 0 ∨ 7 < v ∨ w ∉ [1, 2, 4, 8, 16] ∧
      w < hostWidth s.link.lanesOut))) = true) ∧
    ((let s : State := State.reset; decide (s.link.up = false)) = true) := by
  and_intros <;> decide +kernel

theorem test_meets_LinkAndFunctionResetsAct_by_hand :
    up.link.up = true ∧ ∀ p, up.stepOf p = none :=
  ⟨rfl, fun _ => rfl⟩

theorem test_meets_LinkAndFunctionResetsAct_by_hand_2 :
    (1 : Fn) ≠ 0 ∧ up.link.up = true ∧ (∀ p, up.stepOf p = none) ∧ Tab.wf up.sq ∧ Tab.wf up.cq ∧ Tab.wf up.ctxs :=
  ⟨by decide, rfl, fun _ => rfl, by decide, by decide, by decide⟩

theorem test_meets_StepDescriptorsBeginSteps :
    ((let s : State := (fed ready); let n : RingId := 3; Option.any (fun (q, k) => Option.any (fun part => let h : DescHdr := {}; let pr : W16 := 1;
      let cnt : W32 := 0; decide (takeable s n.val = some (q, k) ∧ h.read = .ok ∧ pr.toNat ≤ 63 ∧ cnt.toNat ≤ 262144 ∧ s.part k.part.val = some part ∧
      q.waitsFor = [] ∧ mayBegin s part q.ctx k = true ∧ pairKeeps s k = false ∧ k.gang = none ∧ s.pair.formed = false ∧
      (k.programs.find pr.toNat).isSome = true ∧ (∀ m ∈ ringsWithStep s k.part.val, m = n.val) ∧ Tab.wf s.sq ∧
      h.seqCopy = none)) (s.part k.part.val)) (takeable s n.val)) = true) := by decide +kernel

theorem test_meets_SequenceDescriptorsAct :
    ((let s : State := { fed ready with ctxs := [(5, { part := 0, usesSeq := true, quota := 8, kv := some ⟨1, 1, true, 1, 4, 0⟩, programs := [(1, ⟨96 * 2 ^ 29, 2⟩)], pool := [(0, ⟨1, 0⟩)] })], dir := [(0, { page := 0 })], seqs := [(0, seqOf .decode)], tq := ready.tq.modify 6 (fun r => { r with prod := 64 }) };
      let n : RingId := 3; Option.any (fun (q, k) => let h : DescHdr := {};
      let a : AdmitArgs := { promptAddr := 0, promptLen := 4, maxLen := 100, tokenRing := 6, temp := 0, topP := 0x3F800000 };
      decide (takeable s n.val = some (q, k) ∧ h.read = .ok ∧ lockedStep s = false ∧ a.promptLen ≠ 0 ∧
      admitReason s q.ctx k a = 0)) (takeable s n.val)) = true) ∧
    ((let s : State := (fed ready); let n : RingId := 3; Option.any (fun (q, k) => let h : DescHdr := {};
      let a : AdmitArgs := { promptAddr := 0, promptLen := 4, maxLen := 100, tokenRing := 6, temp := 0, topP := 0x3F800000 };
      decide (takeable s n.val = some (q, k) ∧ h.read = .ok ∧ lockedStep s = false ∧ a.promptLen ≠ 0 ∧
      admitReason s q.ctx k a ≠ 0)) (takeable s n.val)) = true) ∧
    ((let s : State := (fed ready); let n : RingId := 3; Option.any (fun (q, k) => let h : DescHdr := {};
      let a : AdmitArgs := { promptAddr := 0, maxLen := 0, tokenRing := 6, promptLen := 0 }; decide (takeable s n.val = some (q, k) ∧ h.read = .ok ∧
      lockedStep s = false ∧ a.promptLen = 0)) (takeable s n.val)) = true) ∧
    ((let s : State := { fed ready with seqs := [(0, seqOf .decode), (1, seqOf .prefill), (2, seqOf .stopped), (3, { seqOf .decode with ctx := 6 })] };
      let n : RingId := 3; Option.any (fun (q, k) => let h : DescHdr := {}; let slot : W32 := 0;
      Option.any (fun x => decide (takeable s n.val = some (q, k) ∧ h.read = .ok ∧ lockedStep s = false ∧ s.seqs.find slot.toNat = some x ∧ x.ctx = q.ctx ∧
      (x.state = .prefill ∨ x.state = .decode) ∧ inRunningStep s slot.toNat = false)) (s.seqs.find slot.toNat)) (takeable s n.val)) = true) ∧
    ((let s : State := { fed ready with parts := [(0, { groups := [0], state := .ready, step := some { step0 with kind := .decode, rows := [⟨0, 4, 7⟩], seqs := [{ slot := 0, rows := 1, first := 0, final := true }] } })], seqs := [(0, seqOf .decode)], tq := ready.tq };
      let n : RingId := 3; Option.any (fun (q, k) => let h : DescHdr := {}; let slot : W32 := 0;
      Option.any (fun x => decide (takeable s n.val = some (q, k) ∧ h.read = .ok ∧ lockedStep s = false ∧ s.seqs.find slot.toNat = some x ∧ x.ctx = q.ctx ∧
      inRunningStep s slot.toNat = true ∧ (x.state = .prefill ∨ x.state = .decode))) (s.seqs.find slot.toNat)) (takeable s n.val)) = true) ∧
    ((let s : State := { fed ready with seqs := [(0, seqOf .decode), (1, seqOf .prefill), (2, seqOf .stopped), (3, { seqOf .decode with ctx := 6 })] };
      let n : RingId := 3; Option.any (fun (q, k) => let h : DescHdr := {}; let slot : W32 := 0;
      Option.any (fun x => decide (takeable s n.val = some (q, k) ∧ h.read = .ok ∧ lockedStep s = false ∧ s.seqs.find slot.toNat = some x ∧ x.ctx = q.ctx ∧
      inRunningStep s slot.toNat = false)) (s.seqs.find slot.toNat)) (takeable s n.val)) = true) ∧
    ((let s : State := (fed ready); let n : RingId := 3; Option.any (fun (q, k) => let h : DescHdr := {}; let slot : W32 := 0;
      decide (takeable s n.val = some (q, k) ∧ h.read = .ok ∧ lockedStep s = false ∧
      (s.seqs.find slot.toNat).all (fun x => decide (x.ctx ≠ q.ctx)) = true)) (takeable s n.val)) = true) := by
  and_intros <;> decide +kernel

theorem test_meets_TransfersAndProgramsAct :
    ((let s : State := { ready with sq := ready.sq.modify 3 (fun r => { r with prod := 1, cons := 1, begun := some 0, moving := some { type := 0x07, tag := 9, irqNow := false, host := 0x9000, ss := 4032, length := 128, bytes := List.replicate 128 7, moved := 0 } }) };
      let n : RingId := 3; Option.any (fun q => Option.any (fun m => Option.any (fun i => decide (s.sq.find n.val = some q ∧ q.moving = some m ∧
      q.begun = some i ∧ m.moved < m.length ∧ m.bytes.length = m.length - m.moved ∧ transferBad s q.ctx (m.ss + m.moved) m.piece = none ∧
      (wordsOf (m.ss + m.moved) m.piece).all (fun w => decide (w ∉ s.memPoison)) = true)) (q.begun)) (q.moving)) (s.sq.find n.val)) = true) ∧
    ((let s : State := (fed ready); let n : RingId := 3; Option.any (fun (q, k) => let h : DescHdr := {}; let a : BitVec 36 := 0; let l : W64 := 64;
      let bs : List Byte := (List.replicate 64 3); decide (takeable s n.val = some (q, k) ∧ h.read = .ok ∧ h.errors = [] ∧ lockedStep s = false ∧ l ≠ 0 ∧
      a.toNat % 4096 + l.toNat ≤ 4096 ∧ bs.length = l.toNat ∧ transferBad s q.ctx a.toNat l.toNat = none ∧
      (wordsOf a.toNat l.toNat).all (fun w => decide (w ∉ s.memPoison)) = true)) (takeable s n.val)) = true) ∧
    ((let s : State := (fed ready); let n : RingId := 3; Option.any (fun (q, k) => let h : DescHdr := {}; let a : BitVec 36 := 0; let l : W64 := 64;
      decide (takeable s n.val = some (q, k) ∧ h.read = .ok ∧ h.errors = [] ∧ lockedStep s = false ∧ l ≠ 0 ∧ a.toNat % 4096 + l.toNat ≤ 4096 ∧
      transferBad s q.ctx a.toNat l.toNat = none ∧ (wordsOf a.toNat l.toNat).all (fun w => decide (w ∉ s.memPoison)) = true)) (takeable s n.val)) = true) ∧
    ((let s : State := (fed ready); let n : RingId := 3; Option.any (fun (q, k) => let h : DescHdr := {}; let a : BitVec 36 := 4032; let l : W64 := 128;
      let bs : List Byte := (List.replicate 128 3); decide (takeable s n.val = some (q, k) ∧ h.read = .ok ∧ h.errors = [] ∧ lockedStep s = false ∧
      4096 < a.toNat % 4096 + l.toNat ∧ l.toNat ≤ segmentBytes ∧ bs.length = l.toNat ∧ transferBad s q.ctx a.toNat l.toNat = none ∧
      (wordsOf a.toNat (4096 - a.toNat % 4096)).all (fun w => decide (w ∉ s.memPoison)) = true)) (takeable s n.val)) = true) ∧
    ((let s : State := (fed ready); let n : RingId := 3; Option.any (fun (q, k) => let h : DescHdr := {}; let a : BitVec 36 := (4 * 8388608);
      let l : W64 := 64; let st : Byte := stAccess; decide (takeable s n.val = some (q, k) ∧ h.read = .ok ∧ h.errors = [] ∧ lockedStep s = false ∧ l ≠ 0 ∧
      l.toNat ≤ segmentBytes ∧ transferBad s q.ctx a.toNat l.toNat = some st)) (takeable s n.val)) = true) ∧
    ((let s : State := (fed ready); let n : RingId := 3; Option.any (fun (q, k) => let h : DescHdr := {}; let pr : W16 := 1; let cnt : W32 := 1;
      let host : W64 := 0x9000; let bs : List Byte := (List.replicate 64 3); Option.any (fun v => decide (takeable s n.val = some (q, k) ∧ h.read = .ok ∧
      h.errors = [] ∧ lockedStep s = false ∧ cnt ≠ 0 ∧ pr.toNat ≤ 63 ∧ cnt.toNat ≤ 65536 ∧ host.toNat % 64 = 0 ∧ handleInUse s q.ctx pr.toNat = false ∧
      placeProgram q.ctx.val pr.toNat cnt.toNat bs (readEntry n.val q s) = some v ∧
      s.pair.formed = false)) (placeProgram q.ctx.val pr.toNat cnt.toNat bs (readEntry n.val q s))) (takeable s n.val)) = true) ∧
    ((let s : State := { fed ready with ctxs := [(5, { part := 0, programs := [(2, ⟨96 * 2 ^ 29, 2 ^ 24⟩)] })] }; let n : RingId := 3;
      Option.any (fun (q, k) => let h : DescHdr := {}; let pr : W16 := 1; let cnt : W32 := 1; let host : W64 := 0x9000;
      let bs : List Byte := (List.replicate 64 3); decide (takeable s n.val = some (q, k) ∧ h.read = .ok ∧ h.errors = [] ∧ lockedStep s = false ∧ cnt ≠ 0 ∧
      pr.toNat ≤ 63 ∧ cnt.toNat ≤ 65536 ∧ host.toNat % 64 = 0 ∧ handleInUse s q.ctx pr.toNat = false ∧
      placeProgram q.ctx.val pr.toNat cnt.toNat bs (readEntry n.val q s) = none)) (takeable s n.val)) = true) ∧
    ((let s : State := (fed ready); let n : RingId := 3; Option.any (fun (q, k) => let h : DescHdr := {}; let pr : W16 := 1;
      decide (takeable s n.val = some (q, k) ∧ h.read = .ok ∧ h.errors = [] ∧ lockedStep s = false ∧ pr.toNat ≤ 63 ∧
      handleInUse s q.ctx pr.toNat = false)) (takeable s n.val)) = true) := by
  and_intros <;> decide +kernel

theorem test_meets_DescriptorsCompleteWithOneRecord :
    ((let s : State := (fed ready); let n : RingId := 3; Option.any (fun (q, k) => let h : DescHdr := {}; decide (takeable s n.val = some (q, k) ∧
      lockedStep s = false ∧ h.read = .ok)) (takeable s n.val)) = true) ∧
    ((let s : State := (fed ready); let n : RingId := 3; Option.any (fun (q, k) => let h : DescHdr := { read := .failed };
      decide (takeable s n.val = some (q, k) ∧ lockedStep s = false ∧ h.read = .failed)) (takeable s n.val)) = true) ∧
    ((let s : State := (fed ready); let n : RingId := 3; Option.any (fun (q, k) => let h : DescHdr := {}; decide (takeable s n.val = some (q, k) ∧
      lockedStep s = false ∧ h.read = .ok)) (takeable s n.val)) = true) ∧
    ((let s : State := (fed ready); let n : RingId := 3; Option.any (fun (q, k) => let h : DescHdr := {}; let pr : W16 := 64;
      decide (takeable s n.val = some (q, k) ∧ lockedStep s = false ∧ h.read = .ok ∧ pr.toNat > 63)) (takeable s n.val)) = true) ∧
    ((let s : State := (fed ready); let n : RingId := 3; Option.any (fun (q, k) => let s2 : State := ready; decide (takeable s n.val = some (q, k) ∧
      lockedStep s = false ∧ takeable s2 n.val = none)) (takeable s n.val)) = true) ∧
    ((let s : State := (fed ready); let n : RingId := 3; Option.any (fun (q, k) => let s2 : State := ready; decide (takeable s n.val = some (q, k) ∧
      lockedStep s = false ∧ takeable s2 n.val = none)) (takeable s n.val)) = true) := by
  and_intros <;> decide +kernel

theorem test_meets_EngineResetsAndExchangesAct :
    ((let s : State := (stepping { step0 with op := 1 }); let ix : Byte := 0; let p : PartId := 0;
      Option.any (fun q => Option.any (fun t => Option.any (fun k => decide (s.link.up = true ∧ s.pair.formed = false ∧ s.errs.tests = [] ∧ ix.toNat < 100 ∧
      partOf s ix.toNat = some p.val ∧ s.part p.val = some q ∧ q.step = some t ∧ s.ctx t.ctx.val = some k ∧ k.reset = .none ∧ t.phase ≠ .compared ∧
      t.phase ≠ .ended ∧ recordsFree stAborted t s = true ∧ partExchanging s q = false ∧
      (s.site (s.siteOf ix.toNat)).power = .on)) (s.ctx t.ctx.val)) (q.step)) (s.part p.val)) = true) ∧
    ((let s : State := { ready with build := { ready.build with exchanges := [⟨3, 96⟩] } }; let ix : Byte := 0; let p : PartId := 0;
      Option.any (fun q => let fs := []; decide (s.link.up = true ∧ s.pair.formed = false ∧ s.errs.tests = [] ∧ ix.toNat < 100 ∧
      partOf s ix.toNat = some p.val ∧ s.part p.val = some q ∧ partExchanging s q = true ∧
      (∀ j ∈ s.life.resetsWait, resetCovers s j (.clusterEngineReset 0 ix fs) = false ∧
      resetCovers s (.clusterEngineReset 0 ix fs) j = false))) (s.part p.val)) = true) ∧
    ((let s : State := { ready with build := { ready.build with exchanges := [⟨3, 96⟩] }, life := { ready.life with resetsWait := [.clusterEngineReset 0 0 [], .partReset 0 0 0x50525354 []] } };
      let ix : Byte := 0; let p : PartId := 0; Option.any (fun q => let fs := []; decide (s.link.up = true ∧ s.pair.formed = false ∧ s.errs.tests = [] ∧
      ix.toNat < 100 ∧ partOf s ix.toNat = some p.val ∧ s.part p.val = some q ∧ partExchanging s q = true ∧
      (∃ j ∈ s.life.resetsWait, resetCovers s j (.clusterEngineReset 0 ix fs) = true))) (s.part p.val)) = true) ∧
    ((let s : State := { ready with build := { ready.build with exchanges := [⟨3, 96⟩] } }; let ix : Byte := 0; let a := true;
      let vs := ([] : List (Chan × Bool)); decide (s.link.up = true ∧ s.pair.formed = false ∧ s.errs.tests = [] ∧ s.build.exchanges ≠ [] ∧ ix.toNat < 12 ∧
      (∀ j ∈ s.life.resetsWait, resetCovers s j (.memoryDieEngineReset 0 ix a vs) = false ∧
      resetCovers s (.memoryDieEngineReset 0 ix a vs) j = false))) = true) ∧
    ((let s : State := { ready with build := { ready.build with exchanges := [⟨3, 96⟩] } }; let ix : Byte := 0; decide (s.link.up = true ∧
      s.pair.formed = false ∧ s.errs.tests = [] ∧ s.build.exchanges ≠ [] ∧ ix.toNat < 4 ∧
      (∀ j ∈ s.life.resetsWait, resetCovers s j (.consortDieEngineReset 0 ix) = false ∧ resetCovers s (.consortDieEngineReset 0 ix) j = false))) = true) ∧
    ((let s : State := ready; let ix : Byte := 0; let f : Fn := 1; decide (s.link.up = true ∧ s.pair.formed = false ∧ s.errs.tests = [] ∧
      (f ≠ 0 ∨ 100 ≤ ix.toNat))) = true) ∧
    ((let s : State := { up with dimmWork := { asked := [0] } }; let die : Fin 12 := 0; decide (s.link.up = true ∧ s.pair.formed = false ∧
      s.errs.tests = [] ∧ die.val ∈ s.dimmWork.asked)) = true) ∧
    ((let s : State := ready; let die : Fin 12 := 0; decide (s.link.up = true ∧ s.pair.formed = false ∧ s.errs.tests = [] ∧
      die.val ∉ s.dimmWork.asked)) = true) ∧
    ((let s : State := ready; let ix : Byte := 0; decide (s.link.up = true ∧ s.pair.formed = false ∧ s.errs.tests = [] ∧ ix.toNat < 4 ∧
      s.build.exchanges = [])) = true) ∧
    ((let s : State := { ready with build := { ready.build with exchanges := [⟨3, 96⟩] } }; let n : Cluster := 3;
      Option.any (fun e => decide (s.build.exchanges.find? (fun x => x.n == n.val) = some e ∧
      (partOf s n.val).all (fun p => decide (partIdle s p = true)) = true ∧ n.val < s.build.map.length ∧ e.m < s.build.map.length ∧ e.m ≠ n.val ∧
      s.life.resetsWait = [])) (s.build.exchanges.find? (fun x => x.n == n.val))) = true) := by
  and_intros <;> decide +kernel

theorem test_meets_EngineResetsAndExchangesAct_by_hand :
    up.link.up = true ∧ up.pair.formed = false ∧ up.errs.tests = [] ∧ (11 : Byte).toNat < 12 ∧ up.build.exchanges = [] ∧
      ∀ p, dimmOutstanding up 11 p = false :=
  ⟨rfl, rfl, rfl, by decide, rfl, fun _ => rfl⟩

theorem test_meets_PartitionAndContextResetsAct :
    ((let s : State := ready; let p : PartId := 0; Option.any (fun q => let f : Fn := 0; let v := 0; decide (s.link.up = true ∧ s.pair.formed = false ∧
      s.errs.tests = [] ∧ s.part p.val = some q ∧ (v ≠ 0x50525354 ∨ (f ≠ 0 ∧ f.val ≠ p.val + 1)))) (s.part p.val)) = true) ∧
    ((let s : State := { ready with parts := [(0, { groups := [0], state := .forming })], ctxs := [] }; let p : PartId := 0;
      Option.any (fun q => decide (s.link.up = true ∧ s.pair.formed = false ∧ s.errs.tests = [] ∧ s.part p.val = some q ∧
      q.state = .forming)) (s.part p.val)) = true) ∧
    ((let s : State := { ready with build := { ready.build with exchanges := [⟨3, 96⟩] }, life := { ready.life with resetsWait := [.clusterEngineReset 0 0 [], .partReset 0 0 0x50525354 []] } };
      let p : PartId := 0; Option.any (fun q => let fs := []; decide (s.link.up = true ∧ s.pair.formed = false ∧ s.errs.tests = [] ∧ s.part p.val = some q ∧
      q.state ≠ .forming ∧ partExchanging s q = true ∧
      (∃ j ∈ s.life.resetsWait, resetCovers s j (.partReset 0 p 0x50525354 fs) = true))) (s.part p.val)) = true) ∧
    ((let s : State := { ready with build := { ready.build with exchanges := [⟨3, 96⟩] } }; let p : PartId := 0; Option.any (fun q => let fs := [];
      decide (s.link.up = true ∧ s.pair.formed = false ∧ s.errs.tests = [] ∧ s.part p.val = some q ∧ q.state ≠ .forming ∧ partExchanging s q = true ∧
      (∀ j ∈ s.life.resetsWait, resetCovers s j (.partReset 0 p 0x50525354 fs) = false))) (s.part p.val)) = true) ∧
    ((let s : State := ready; let p : PartId := 0; Option.any (fun q => let c : CtxId := 5; Option.any (fun k => let v : W32 := 0x43545805;
      decide (s.link.up = true ∧ s.pair.formed = false ∧ s.errs.tests = [] ∧ s.part p.val = some q ∧ s.ctx c.val = some k ∧ k.part = p ∧
      v.toNat / 256 = 0x435458 ∧ v.toNat % 64 = c.val ∧ k.reset = .none)) (s.ctx c.val)) (s.part p.val)) = true) ∧
    ((let s : State := ready; let p : PartId := 0; Option.any (fun q => let c : CtxId := 5; Option.any (fun k => let v : W32 := 0;
      decide (s.link.up = true ∧ s.pair.formed = false ∧ s.errs.tests = [] ∧ s.part p.val = some q ∧ s.ctx c.val = some k ∧ k.part = p ∧
      v.toNat / 256 ≠ 0x435458)) (s.ctx c.val)) (s.part p.val)) = true) ∧
    ((let s : State := { ready with ctxs := [(5, { part := 0, reset := .draining })] }; let p : PartId := 0; Option.any (fun q => let c : CtxId := 5;
      Option.any (fun k => decide (s.link.up = true ∧ s.pair.formed = false ∧ s.errs.tests = [] ∧ s.part p.val = some q ∧ s.ctx c.val = some k ∧
      k.part = p ∧ k.reset = .draining ∧ partExchanging s q = false ∧ partUnmapped s q = false ∧
      runningStep s c.val = none)) (s.ctx c.val)) (s.part p.val)) = true) ∧
    ((let s : State := ready; let p : PartId := 0; Option.any (fun q => let c : CtxId := 5; Option.any (fun k => decide (s.link.up = true ∧
      s.pair.formed = false ∧ s.errs.tests = [] ∧ s.part p.val = some q ∧ s.ctx c.val = some k ∧ k.part = p ∧
      k.reset ≠ .draining)) (s.ctx c.val)) (s.part p.val)) = true) ∧
    ((let s : State := { (stepping { step0 with op := 1 }) with ctxs := [(5, { part := 0, reset := .draining })] }; let p : PartId := 0;
      Option.any (fun q => let c : CtxId := 5; Option.any (fun k => let t := (s.stepOf p.val).getD step0; decide (s.link.up = true ∧ s.pair.formed = false ∧
      s.errs.tests = [] ∧ s.part p.val = some q ∧ s.ctx c.val = some k ∧ k.part = p ∧ k.reset = .draining ∧
      runningStep s c.val = some (p.val, t))) (s.ctx c.val)) (s.part p.val)) = true) ∧
    ((let s : State := { ready with ctxs := [(5, { part := 0, halted := true })] }; let p : PartId := 0; Option.any (fun q => let c : CtxId := 5;
      Option.any (fun k => let v : W32 := 0x43545805; decide (s.link.up = true ∧ s.pair.formed = false ∧ s.errs.tests = [] ∧ s.part p.val = some q ∧
      s.ctx c.val = some k ∧ k.part = p ∧ v.toNat % 64 = c.val ∧ k.reset = .none ∧ k.halted = true ∧ partUnmapped s q = false ∧ k.waitsFor = false ∧
      partExchanging s q = false)) (s.ctx c.val)) (s.part p.val)) = true) ∧
    ((let s : State := { ready with ctxs := [(5, { part := 0, halted := true, waitsFor := true })] }; let p : PartId := 0;
      Option.any (fun q => let c : CtxId := 5; Option.any (fun k => let v : W32 := 0x43545805; decide (s.link.up = true ∧ s.pair.formed = false ∧
      s.errs.tests = [] ∧ s.part p.val = some q ∧ s.ctx c.val = some k ∧ k.part = p ∧ v.toNat % 64 = c.val ∧ k.reset = .none ∧ k.halted = true ∧
      partUnmapped s q = false ∧ k.waitsFor = true)) (s.ctx c.val)) (s.part p.val)) = true) ∧
    ((let s : State := ready; let p : PartId := 0; Option.any (fun q => let c : CtxId := 5; Option.any (fun k => let v : W32 := 0x43545805;
      decide (s.link.up = true ∧ s.pair.formed = false ∧ s.errs.tests = [] ∧ s.part p.val = some q ∧ s.ctx c.val = some k ∧ k.part = p ∧
      v.toNat % 64 = c.val ∧ k.halted = false)) (s.ctx c.val)) (s.part p.val)) = true) := by
  and_intros <;> decide +kernel

theorem test_meets_PartitionAndContextResetsAct_by_hand :
    let q : Partition := { groups := [0], state := .resetting }; let s : State := { ready with parts := [(0, q)] }
    s.link.up = true ∧
      s.pair.formed = false ∧ s.errs.tests = [] ∧ s.part 0 = some q ∧ q.state ≠ .forming ∧ (∀ n, s.stepOf n = none) ∧
      partExchanging s q = false ∧
      partUnmapped s q = false ∧ Tab.wf s.ctxs :=
  ⟨rfl, rfl, rfl, rfl, by decide, idleStep, by decide +kernel, by decide +kernel, by decide +kernel⟩

theorem test_meets_SetupCommandsAnswerOnce :
    ((let s : State := { up with fns := [(0, { bme := true, pending := some (.grant 5 [1]) })] }; let i : Instr := (.partDestroy ⟨0, .ok⟩ 0);
      Option.any (fun x => let h := x.1; decide (partCreateWaits i s = false ∧ s.link.up = true ∧
      ((s.fnr h.fn.val).pending ≠ none ∨ (s.fnr h.fn.val).unread ≠ none))) (setupEval i)) = true) ∧
    ((let s : State := { up with fns := [] }; let i : Instr := (.partDestroy ⟨0, .ok⟩ 0); Option.any (fun x => let h := x.1;
      decide (partCreateWaits i s = false ∧ s.link.up = true ∧ (s.fnr h.fn.val).pending = none ∧ (s.fnr h.fn.val).unread = none ∧
      (s.fnr h.fn.val).bme = false)) (setupEval i)) = true) ∧
    ((let s : State := up; let i : Instr := (.partDestroy ⟨0, .failed⟩ 0); Option.any (fun x => let h := x.1; decide (partCreateWaits i s = false ∧
      s.link.up = true ∧ (s.fnr h.fn.val).pending = none ∧ (s.fnr h.fn.val).unread = none ∧ (s.fnr h.fn.val).bme = true ∧
      h.read = .failed)) (setupEval i)) = true) ∧
    ((let s : State := { up with life := { up.life with ready := false } }; let i : Instr := (.partDestroy ⟨0, .ok⟩ 0); Option.any (fun x => let h := x.1;
      decide (partCreateWaits i s = false ∧ s.link.up = true ∧ (s.fnr h.fn.val).pending = none ∧ (s.fnr h.fn.val).unread = none ∧
      (s.fnr h.fn.val).bme = true ∧ h.read = .ok ∧ s.life.ready = false)) (setupEval i)) = true) ∧
    ((let s : State := { up with pair := { up.pair with formed := true, mode := 2, role := .secondary } }; let i : Instr := (.partDestroy ⟨0, .ok⟩ 0);
      Option.any (fun x => let h := x.1; decide (partCreateWaits i s = false ∧ s.link.up = true ∧ (s.fnr h.fn.val).pending = none ∧
      (s.fnr h.fn.val).unread = none ∧ (s.fnr h.fn.val).bme = true ∧ h.read = .ok ∧ s.life.ready = true ∧ noServiceDie s = false ∧
      isSecondary s = true)) (setupEval i)) = true) ∧
    ((let s : State := up; let i : Instr := (.partDestroy ⟨0, .ok⟩ 0); let st := stConfig; Option.any (fun x => let h := x.1;
      decide (partCreateWaits i s = false ∧ s.link.up = true ∧ (s.fnr h.fn.val).pending = none ∧ (s.fnr h.fn.val).unread = none ∧
      (s.fnr h.fn.val).bme = true ∧ h.read = .ok ∧ s.life.ready = true ∧ noServiceDie s = false ∧ isSecondary s = false ∧
      (match x.2 s with | .fail y => y == st | _ => false) = true)) (setupEval i)) = true) ∧
    ((let s : State := up; let i : Instr := (.setupReserved ⟨0, .ok⟩ 9); let code : Byte := 9; let op : Byte := 77; Option.any (fun x => let h := x.1;
      decide (partCreateWaits i s = false ∧ s.link.up = true ∧ (i = .setupReserved h code ∨ i = .markMapReservedOp h op) ∧ Safety.MailboxFree s h.fn ∧
      h.read = .ok)) (setupEval i)) = true) := by
  and_intros <;> decide +kernel

theorem test_meets_PartitionsAreMadeAndDestroyed :
    ((let s : State := up; let p : PartId := 0; let g : Byte := 1; decide (Safety.MailboxFree s 0 ∧ s.pair.formed = false ∧ s.update.phase = .idle ∧
      g ≠ 0 ∧ s.part p.val = none ∧ (∀ x ∈ groupList g, groupPlaceable s x = true ∧ ∀ e ∈ s.parts, x ∉ e.2.groups) ∧ s.life.power = .on)) = true) ∧
    ((let s : State := { up with parts := [(0, { groups := [0], state := .ready })] }; let p : PartId := 0; let g : Byte := 1;
      decide (Safety.MailboxFree s 0 ∧ s.pair.formed = false ∧ s.update.phase = .idle ∧ g ≠ 0 ∧ s.part p.val ≠ none)) = true) ∧
    ((let s : State := up; let p : PartId := 0;
      let s2 : State := { ready with parts := [(0, { groups := [0], state := .forming })], fns := [(0, { bme := true, pending := some (.partCreate 0) })] };
      Option.any (fun q => decide (Safety.MailboxFree s 0 ∧ s.pair.formed = false ∧ s.update.phase = .idle ∧ s2.part p.val = some q ∧
      partFormed s2 q = true ∧ partUnmapped s2 q = false ∧ (s2.fnr 0).pending = some (.partCreate p) ∧ s2.pair.formed = false)) (s2.part p.val)) = true) ∧
    ((let s : State := up; let p : PartId := 0; let s2 : State := ready; Option.any (fun q => decide (Safety.MailboxFree s 0 ∧ s.pair.formed = false ∧
      s.update.phase = .idle ∧ s2.part p.val = some q ∧ partFormed s2 q = false ∧ (q.state ≠ .forming ∨ partUnmapped s2 q = false))) (s2.part p.val)) = true) ∧
    ((let s : State := up; let p : PartId := 0;
      let s2 : State := { ready with parts := [(0, { groups := [0], state := .forming })], build := { ready.build with unmapped := [3] }, fns := [(0, { bme := true, pending := some (.partCreate 0) })] };
      Option.any (fun q => decide (Safety.MailboxFree s 0 ∧ s.pair.formed = false ∧ s.update.phase = .idle ∧ s2.part p.val = some q ∧ q.state = .forming ∧
      partUnmapped s2 q = true ∧ (s2.fnr 0).pending = some (.partCreate p) ∧ Tab.wf s2.parts)) (s2.part p.val)) = true) ∧
    ((let s : State := { up with parts := [(0, { groups := [0], state := .ready })] }; let p : PartId := 0; decide (Safety.MailboxFree s 0 ∧
      s.pair.formed = false ∧ s.update.phase = .idle ∧ partExists s p.val = true ∧ partHolds s p.val = false)) = true) ∧
    ((let s : State := ready; let p : PartId := 0; decide (Safety.MailboxFree s 0 ∧ s.pair.formed = false ∧ s.update.phase = .idle ∧
      partExists s p.val = true ∧ partHolds s p.val = true)) = true) ∧
    ((let s : State := up; let f : Fn := 1; decide (Safety.MailboxFree s 0 ∧ s.pair.formed = false ∧ s.update.phase = .idle ∧ f ≠ 0 ∧
      Safety.MailboxFree s f)) = true) := by
  and_intros <;> decide +kernel

theorem test_meets_ContextsAreMadeConfiguredAndDestroyed :
    ((let s : State := ready; let c : CtxId := 6; let p : PartId := 0; let fl : Byte := 0; let quota : W32 := 0; decide (Safety.MailboxFree s 0 ∧
      s.pair.formed = false ∧ partExists s p.val = true ∧ s.ctx c.val = none ∧ (fl.getLsbD 0 = true → quota ≠ 0 ∧ quota.toNat ≤ 32768))) = true) ∧
    ((let s : State := ready; let c : CtxId := 5; Option.any (fun k => let p : PartId := 0; let fl : Byte := 0; let quota : W32 := 0;
      decide (Safety.MailboxFree s 0 ∧ s.pair.formed = false ∧ s.ctx c.val = some k ∧ partExists s p.val = true ∧ (fl.getLsbD 0 = true → quota ≠ 0 ∧
      quota.toNat ≤ 32768))) (s.ctx c.val)) = true) ∧
    ((let s : State := (stepping { step0 with op := 1 }); let n := 3;
      let r := (s.sq.find n).getD { ctx := 5, fn := 1, log2 := 6, vector := none, base := 0, wb := 0 }; let c := r.ctx;
      Option.any (fun k => decide (Safety.MailboxFree s 0 ∧ s.pair.formed = false ∧ s.ctx c.val = some k ∧ (n, r) ∈ s.sq ∧ r.ctx = c ∧
      r.begun ≠ none)) (s.ctx c.val)) = true) ∧
    ((let s : State := ready; let c : CtxId := 5; Option.any (fun k => let b : CtxConfigBlock := { context := 5, sections := 2 };
      decide (Safety.MailboxFree s 0 ∧ s.pair.formed = false ∧ s.ctx c.val = some k ∧ b.context = BitVec.ofNat 8 c.val ∧ b.sections.getLsbD 0 = false ∧
      (b.sections.getLsbD 2 = true → auditBad b = false))) (s.ctx c.val)) = true) ∧
    ((let s : State := (channels ready); let c : CtxId := 5;
      Option.any (fun k => let b : CtxConfigBlock := { context := 5, sections := 1, layers := 1, kvHeads := 1, kvFormat := 1, headsPerPage := 1, poolPages := 2, stepTable := 1 };
      Option.any (fun pool => decide (Safety.MailboxFree s 0 ∧ s.pair.formed = false ∧ s.ctx c.val = some k ∧ b.context = BitVec.ofNat 8 c.val ∧
      b.sections.getLsbD 0 = true ∧ kvBad s c k b = false ∧ (b.sections.getLsbD 2 = true → auditBad b = false) ∧
      s.seqs.all (fun e => decide (e.2.ctx ≠ c)) = true ∧ assignPool s (kvOf b).blocks = some pool)) (assignPool s (kvOf b).blocks)) (s.ctx c.val)) = true) := by
  and_intros <;> decide +kernel

theorem test_meets_ContextsAreMadeConfiguredAndDestroyed_by_hand :
    let s : State := { ready with sq := [] }
    Safety.MailboxFree s 0 ∧ s.pair.formed = false ∧ (s.ctx 5).isSome = true ∧
      ∀ n r, (n, r) ∈ s.sq → r.ctx = 5 → r.cons = r.prod ∧ r.begun = none :=
  ⟨by decide +kernel, rfl, by decide +kernel, fun _ _ h => nomatch h⟩

theorem test_meets_GranulesAndRingsAreMadeAndReturned :
    ((let s : State := ready; let c : CtxId := 5; Option.any (fun k => let gs : List W16 := []; decide (Safety.MailboxFree s 0 ∧ s.pair.formed = false ∧
      s.ctx c.val = some k ∧ gs.length ≤ 2040 ∧ gs.all (fun g => decide (g.toNat < 24576 ∧ s.owner g.toNat = 0x40)) = true)) (s.ctx c.val)) = true) ∧
    ((let s : State := { ready with owners := [(0, 5), (1, 0x41), (2, 0x40)] }; let c : CtxId := 5; Option.any (fun k => let gs : List W16 := [1];
      decide (Safety.MailboxFree s 0 ∧ s.pair.formed = false ∧ s.ctx c.val = some k ∧ gs.length ≤ 2040 ∧ (gs.all (fun g => decide (g.toNat < 24576 ∧
      (s.owner g.toNat = 0x40 ∨ s.owner g.toNat = 0x41))) = true) ∧ gs.any (fun g => decide (s.owner g.toNat = 0x41)) = true)) (s.ctx c.val)) = true) ∧
    ((let s : State := ready; let c : CtxId := 5; Option.any (fun k => let gs : List W16 := [0]; decide (Safety.MailboxFree s 0 ∧ s.pair.formed = false ∧
      s.ctx c.val = some k ∧ gs.length ≤ 2040 ∧ gs.all (fun g => decide (g.toNat < 24576)) = true ∧
      gs.any (fun g => decide ((s.owner g.toNat).toNat < 64)) = true ∧ gs.all (fun g => decide (s.owner g.toNat ≠ 0x42 ∧
      s.owner g.toNat ≠ 0x43)) = true)) (s.ctx c.val)) = true) ∧
    ((let s : State := ready; let c : CtxId := 5; Option.any (fun k => let gs : List W16 := [0];
      let s2 : State := { ready with owners := [(7, 0x40)], fns := [(0, { bme := true, pending := some (.grant 5 [7]) })] }; let l := [7];
      decide (Safety.MailboxFree s 0 ∧ s.pair.formed = false ∧ s.ctx c.val = some k ∧ gs.length ≤ 2040 ∧ (s2.fnr 0).pending = some (.grant c l) ∧
      s2.pair.formed = false ∧ l.all (fun n => decide (n < 24576 ∧ s2.owner n = 0x40)) = true)) (s.ctx c.val)) = true) ∧
    ((let s : State := ready; let c : CtxId := 5; Option.any (fun k => let gs : List W16 := [0];
      let s2 : State := { ready with owners := [(7, 0x41)], fns := [(0, { bme := true, pending := some (.grant 5 [7]) })] }; let l := [7];
      decide (Safety.MailboxFree s 0 ∧ s.pair.formed = false ∧ s.ctx c.val = some k ∧ gs.length ≤ 2040 ∧ (s2.fnr 0).pending = some (.grant c l) ∧
      (l.all (fun n => decide (n < 24576 ∧ (s2.owner n = 0x40 ∨ s2.owner n = 0x41))) = true) ∧
      l.any (fun n => decide (s2.owner n = 0x41)) = true)) (s.ctx c.val)) = true) ∧
    ((let s : State := ready; let c : CtxId := 5; Option.any (fun k => let gs : List W16 := [0]; decide (Safety.MailboxFree s 0 ∧ s.pair.formed = false ∧
      s.ctx c.val = some k ∧ gs.length ≤ 2040 ∧ gs ≠ [] ∧ gs.all (fun g => decide (g.toNat < 24576 ∧ s.owner g.toNat = BitVec.ofNat 8 c.val ∧
      holdsTable k g.toNat = false)) = true)) (s.ctx c.val)) = true) ∧
    ((let s : State := ready;
      let b : RingBlock := { kind := 0, ring := 9, context := 5, sizeLog2 := 6, base := 0x10000, wbAddr := 0x20000, compRing := 4 }; let c : CtxId := 5;
      Option.any (fun k => decide (Safety.MailboxFree s 0 ∧ s.ctx c.val = some k ∧ b.context = BitVec.ofNat 8 c.val ∧ 6 ≤ b.sizeLog2.toNat ∧
      b.sizeLog2.toNat ≤ 16 ∧ (b.vector = 0xFFFF ∨ b.vector.toNat < 2048) ∧ b.base.toNat % 4096 = 0 ∧ b.wbAddr.toNat % 64 = 0 ∧ b.kind = 0 ∧
      (s.cq.find b.compRing.toNat).any (fun r => decide (r.ctx = c)) = true ∧ s.sq.find b.ring.toNat = none)) (s.ctx c.val)) = true) ∧
    ((let s : State := ready;
      let b : RingBlock := { kind := 1, ring := 3, context := 5, sizeLog2 := 6, base := 0x10000, wbAddr := 0x20000, compRing := 4 }; let c : CtxId := 5;
      Option.any (fun k => decide (Safety.MailboxFree s 0 ∧ s.ctx c.val = some k ∧ b.context = BitVec.ofNat 8 c.val ∧ 6 ≤ b.sizeLog2.toNat ∧
      b.sizeLog2.toNat ≤ 16 ∧ (b.vector = 0xFFFF ∨ b.vector.toNat < 2048) ∧ b.base.toNat % 4096 = 0 ∧ b.wbAddr.toNat % 64 = 0 ∧ b.kind = 1 ∧
      b.coalesceUs.toNat ≤ 1000 ∧ s.cq.find b.ring.toNat = none)) (s.ctx c.val)) = true) ∧
    ((let s : State := ready;
      let b : RingBlock := { kind := 2, ring := 3, context := 5, sizeLog2 := 6, base := 0x10000, wbAddr := 0x20000, compRing := 4 }; let c : CtxId := 5;
      Option.any (fun k => decide (Safety.MailboxFree s 0 ∧ s.ctx c.val = some k ∧ b.context = BitVec.ofNat 8 c.val ∧ 6 ≤ b.sizeLog2.toNat ∧
      b.sizeLog2.toNat ≤ 16 ∧ (b.vector = 0xFFFF ∨ b.vector.toNat < 2048) ∧ b.base.toNat % 4096 = 0 ∧ b.wbAddr.toNat % 64 = 0 ∧ b.kind = 2 ∧
      b.coalesceUs.toNat ≤ 1000 ∧ s.tq.find b.ring.toNat = none ∧ s.heldRecs = [] ∧ s.seqs = [])) (s.ctx c.val)) = true) ∧
    ((let s : State := ready; let c : CtxId := 5; Option.any (fun k => let n : Byte := 3; Option.any (fun r => decide (Safety.MailboxFree s 0 ∧
      s.ctx c.val = some k ∧ s.sq.find n.toNat = some r ∧ r.cons = r.prod ∧ r.begun = none)) (s.sq.find n.toNat)) (s.ctx c.val)) = true) ∧
    ((let s : State := (fed ready); let c : CtxId := 5; Option.any (fun k => let n : Byte := 3; Option.any (fun r => decide (Safety.MailboxFree s 0 ∧
      s.ctx c.val = some k ∧ s.sq.find n.toNat = some r ∧ r.cons ≠ r.prod)) (s.sq.find n.toNat)) (s.ctx c.val)) = true) ∧
    ((let s : State := ready; let c : CtxId := 5; Option.any (fun k => let n : Byte := 4; Option.any (fun r => decide (Safety.MailboxFree s 0 ∧
      s.ctx c.val = some k ∧ s.cq.find n.toNat = some r ∧ (∃ e ∈ s.sq, e.2.compRing = n.toNat))) (s.cq.find n.toNat)) (s.ctx c.val)) = true) ∧
    ((let s : State := ready; let c : CtxId := 5; Option.any (fun k => let n : Byte := 3; decide (Safety.MailboxFree s 0 ∧ s.ctx c.val = some k ∧
      s.tq.find n.toNat = none)) (s.ctx c.val)) = true) := by
  and_intros <;> decide +kernel

theorem test_meets_MarkMapOperationsAct :
    ((let s : State := ready; let block := ((s.fnr 0).setupHi.setWidth 64 <<< 32) + (s.fnr 0).setupLo.setWidth 64 + 0x40; let c : CtxId := 5;
      Option.any (fun k => Option.any (fun n => let v : W16 := 1; let kind : Byte := 0; let target : W32 := 0; let period : W32 := 0;
      decide (Safety.MailboxFree s 0 ∧ s.pair.formed = false ∧ s.ctx c.val = some k ∧ v.toNat ≤ 2047 ∧
      block = ((s.fnr 0).setupHi.setWidth 64 <<< 32) + (s.fnr 0).setupLo.setWidth 64 + 0x40 ∧ createBad kind target period = false ∧
      k.vmarks.find v.toNat = none ∧ freeMark s k.part.val = some n ∧ n < 8192)) (freeMark s k.part.val)) (s.ctx c.val)) = true) ∧
    ((let s : State := ready; let block := ((s.fnr 0).setupHi.setWidth 64 <<< 32) + (s.fnr 0).setupLo.setWidth 64 + 0x40; let c : CtxId := 5;
      Option.any (fun k => let v : W16 := 1; let m : MarkId := 20; let o : CtxId := 5; Option.any (fun ok => let w : W16 := 0;
      decide (Safety.MailboxFree s 0 ∧ s.pair.formed = false ∧ s.ctx c.val = some k ∧ v.toNat ≤ 2047 ∧
      block = ((s.fnr 0).setupHi.setWidth 64 <<< 32) + (s.fnr 0).setupLo.setWidth 64 + 0x40 ∧ s.ctx o.val = some ok ∧ ok.vmarks.find w.toNat = some m ∧
      k.vmarks.find v.toNat = none)) (s.ctx o.val)) (s.ctx c.val)) = true) ∧
    ((let s : State := ready; let block := ((s.fnr 0).setupHi.setWidth 64 <<< 32) + (s.fnr 0).setupLo.setWidth 64 + 0x40; let c : CtxId := 5;
      Option.any (fun k => let v : W16 := 0; let m : MarkId := 20; decide (Safety.MailboxFree s 0 ∧ s.pair.formed = false ∧ s.ctx c.val = some k ∧
      v.toNat ≤ 2047 ∧ block = ((s.fnr 0).setupHi.setWidth 64 <<< 32) + (s.fnr 0).setupLo.setWidth 64 + 0x40 ∧ k.vmarks.find v.toNat = some m ∧
      (∀ w ∈ (s.mark m.val).waiters, w.ctx ≠ c) ∧ c ∉ (s.mark m.val).members)) (s.ctx c.val)) = true) ∧
    ((let s : State := ready; let block := ((s.fnr 0).setupHi.setWidth 64 <<< 32) + (s.fnr 0).setupLo.setWidth 64 + 0x40; let c : CtxId := 5;
      Option.any (fun k => let v : W16 := 0; let m : MarkId := 20; let e : Option EccKind := none; decide (Safety.MailboxFree s 0 ∧ s.pair.formed = false ∧
      s.ctx c.val = some k ∧ v.toNat ≤ 2047 ∧ block = ((s.fnr 0).setupHi.setWidth 64 <<< 32) + (s.fnr 0).setupLo.setWidth 64 + 0x40 ∧
      k.vmarks.find v.toNat = some m ∧ (s.mark m.val).kind = .counter ∧ (s.mark m.val).waiters = [] ∧ s.wafer.stopped = false ∧ (s.mark m.val).bad = false ∧
      e ≠ some .uncorrectable)) (s.ctx c.val)) = true) ∧
    ((let s : State := { withMark { kind := .counter } ready with wafer := { ready.wafer with stopped := true } };
      let block := ((s.fnr 0).setupHi.setWidth 64 <<< 32) + (s.fnr 0).setupLo.setWidth 64 + 0x40; let c : CtxId := 5; Option.any (fun k => let v : W16 := 0;
      let m : MarkId := 20; decide (Safety.MailboxFree s 0 ∧ s.pair.formed = false ∧ s.ctx c.val = some k ∧ v.toNat ≤ 2047 ∧
      block = ((s.fnr 0).setupHi.setWidth 64 <<< 32) + (s.fnr 0).setupLo.setWidth 64 + 0x40 ∧ k.vmarks.find v.toNat = some m ∧
      (s.mark m.val).kind = .counter ∧ s.wafer.stopped = true)) (s.ctx c.val)) = true) ∧
    ((let s : State := ready; let block := ((s.fnr 0).setupHi.setWidth 64 <<< 32) + (s.fnr 0).setupLo.setWidth 64 + 0x40; let c : CtxId := 5;
      Option.any (fun k => let v : W16 := 0; let m : MarkId := 20; let e : Option EccKind := none; decide (Safety.MailboxFree s 0 ∧ s.pair.formed = false ∧
      s.ctx c.val = some k ∧ v.toNat ≤ 2047 ∧ block = ((s.fnr 0).setupHi.setWidth 64 <<< 32) + (s.fnr 0).setupLo.setWidth 64 + 0x40 ∧
      k.vmarks.find v.toNat = some m ∧ (s.mark m.val).bad = false ∧ e ≠ some .uncorrectable)) (s.ctx c.val)) = true) ∧
    ((let s : State := (withMark { kind := .gang, target := 3, members := [7] } ready);
      let block := ((s.fnr 0).setupHi.setWidth 64 <<< 32) + (s.fnr 0).setupLo.setWidth 64 + 0x40; let c : CtxId := 5; Option.any (fun k => let v : W16 := 0;
      let m : MarkId := 20; decide (Safety.MailboxFree s 0 ∧ s.pair.formed = false ∧ s.ctx c.val = some k ∧ v.toNat ≤ 2047 ∧
      block = ((s.fnr 0).setupHi.setWidth 64 <<< 32) + (s.fnr 0).setupLo.setWidth 64 + 0x40 ∧ k.vmarks.find v.toNat = some m ∧ (s.mark m.val).kind = .gang ∧
      (∀ x ∈ (s.mark m.val).members, ∀ y, s.ctx x.val = some y → y.part ≠ k.part) ∧ k.gang = none)) (s.ctx c.val)) = true) ∧
    ((let s : State := { withMark { kind := .gang, target := 3, members := [5, 7] } ready with ctxs := [(5, { part := 0, vmarks := [(0, 20)], gang := some 20 })] };
      let block := ((s.fnr 0).setupHi.setWidth 64 <<< 32) + (s.fnr 0).setupLo.setWidth 64 + 0x40; let c : CtxId := 5; Option.any (fun k => let v : W16 := 0;
      let m : MarkId := 20; decide (Safety.MailboxFree s 0 ∧ s.pair.formed = false ∧ s.ctx c.val = some k ∧ v.toNat ≤ 2047 ∧
      block = ((s.fnr 0).setupHi.setWidth 64 <<< 32) + (s.fnr 0).setupLo.setWidth 64 + 0x40 ∧ k.vmarks.find v.toNat = some m ∧ c ∈ (s.mark m.val).members ∧
      runningStep s c.val = none ∧ (s.mark m.val).count.toNat < (s.mark m.val).target.toNat - 1 ∧
      (s.mark m.val).arrived.contains c = false)) (s.ctx c.val)) = true) ∧
    ((let s : State := ready; let block := ((s.fnr 0).setupHi.setWidth 64 <<< 32) + (s.fnr 0).setupLo.setWidth 64 + 0x40; let c : CtxId := 5;
      Option.any (fun k => let v : W16 := 0; let ms : W32 := 1; decide (Safety.MailboxFree s 0 ∧ s.pair.formed = false ∧ s.ctx c.val = some k ∧
      v.toNat ≤ 2047 ∧ block = ((s.fnr 0).setupHi.setWidth 64 <<< 32) + (s.fnr 0).setupLo.setWidth 64 + 0x40 ∧ ms ≠ 0 ∧
      ms.toNat ≤ 60000)) (s.ctx c.val)) = true) ∧
    ((let s : State := ready; let block := ((s.fnr 0).setupHi.setWidth 64 <<< 32) + (s.fnr 0).setupLo.setWidth 64 + 0x40; let c : CtxId := 5;
      Option.any (fun k => let v : W16 := 0; let ms : W32 := 0; decide (Safety.MailboxFree s 0 ∧ s.pair.formed = false ∧ s.ctx c.val = some k ∧
      v.toNat ≤ 2047 ∧ block = ((s.fnr 0).setupHi.setWidth 64 <<< 32) + (s.fnr 0).setupLo.setWidth 64 + 0x40 ∧
      (ms = 0 ∨ 60000 < ms.toNat))) (s.ctx c.val)) = true) ∧
    ((let s : State := { ready with ctxs := [(5, { part := 0, lookout := some ⟨5, 0, 0, 0, 0, 0, 0, []⟩ })] };
      let block := ((s.fnr 0).setupHi.setWidth 64 <<< 32) + (s.fnr 0).setupLo.setWidth 64 + 0x40; let c : CtxId := 5;
      Option.any (fun k => Option.any (fun r => let v : W16 := 0; decide (Safety.MailboxFree s 0 ∧ s.pair.formed = false ∧ s.ctx c.val = some k ∧
      v.toNat ≤ 2047 ∧ block = ((s.fnr 0).setupHi.setWidth 64 <<< 32) + (s.fnr 0).setupLo.setWidth 64 + 0x40 ∧
      k.lookout = some r)) (k.lookout)) (s.ctx c.val)) = true) ∧
    ((let s : State := ready; let block := ((s.fnr 0).setupHi.setWidth 64 <<< 32) + (s.fnr 0).setupLo.setWidth 64 + 0x40; let c : CtxId := 5;
      Option.any (fun k => let v : W16 := 0; decide (Safety.MailboxFree s 0 ∧ s.pair.formed = false ∧ s.ctx c.val = some k ∧ v.toNat ≤ 2047 ∧
      block = ((s.fnr 0).setupHi.setWidth 64 <<< 32) + (s.fnr 0).setupLo.setWidth 64 + 0x40 ∧ k.lookout = none)) (s.ctx c.val)) = true) := by
  and_intros <;> decide +kernel

theorem test_meets_MarkMapOperationsAct_by_hand :
    let s : State := withMark { kind := .counter, bad := true } ready; Safety.MailboxFree s 0 ∧ s.pair.formed = false ∧
      (s.ctx 5).isSome = true ∧
      (s.mark 20).bad = true ∧ (∀ j, runningStep s j = none) ∧ (s.mark 20).kind = .counter ∧ s.wafer.stopped = false :=
  ⟨by decide +kernel, rfl, rfl, rfl, fun _ => rfl, rfl, rfl⟩

theorem test_meets_LinksAndChannelsFailAndLeave_1 :
    ((let s : State := up; let a : Pos := 0; let south : Bool := false; let back : Bool := false;
      let x := (if back then (if south then a.val + 12 else a.val + 1) else a.val);
      let y := (if back then a.val else (if south then a.val + 12 else a.val + 1));
      decide (x = (if back then (if south then a.val + 12 else a.val + 1) else a.val) ∧
      y = (if back then a.val else (if south then a.val + 12 else a.val + 1)) ∧ (a.val, south) ∈ linksAt a.val ∧ (a.val, south) ∉ s.wafer.linksOut)) = true) ∧
    ((let s : State := up; let a : Pos := 11; let south : Bool := false;
      decide (((a.val, south) ∉ linksAt a.val ∨ (a.val, south) ∈ s.wafer.linksOut))) = true) ∧
    ((let s : State := { up with wafer := { up.wafer with linksOut := [(5, true)] } };
      decide ((s.wafer.stopped = true ∨ s.wafer.routesFor ≠ s.wafer.linksOut))) = true) ∧
    ((let s : State := up; decide (s.wafer.stopped = false ∧ s.wafer.routesFor = s.wafer.linksOut)) = true) ∧
    ((let s : State := ((channels up)); let ch : Chan := 0; let t0 : Int := 20; let t1 : Int := 0;
      decide (((s.chan ch.val).state = .takingOut ∨ (s.chan ch.val).state = .inService ∧
      (95 < t0 → ∀ h, (s.chan ch.val).hotSince.1 = some h → s.since h < msTicks 1000) ∧
      (95 < t1 → ∀ h, (s.chan ch.val).hotSince.2 = some h → s.since h < msTicks 1000)))) = true) ∧
    ((let s : State := ({ channels up with chans := [(1, { state := .inService, hotSince := (some 0, none), retrain := some .period, sliceAt := some 79999999999 })] });
      let ch : Chan := 1; let t0 : Int := 96; let t1 : Int := 0; let h : W64 := 0; decide ((s.chan ch.val).state = .inService ∧ msTicks 1000 ≤ s.since h ∧
      ((95 < t0 ∧ (s.chan ch.val).hotSince.1 = some h) ∨ (95 < t1 ∧ (s.chan ch.val).hotSince.2 = some h)) ∧ ch.val ∉ s.dimmWork.requests)) = true) ∧
    ((let s : State := ((channels up)); let ch : Chan := 0; let f := .clean;
      decide (((s.chan ch.val).state = .inService ∨ (s.chan ch.val).state = .takingOut) ∧ burstRead (s.chan ch.val).marks f = .clean)) = true) ∧
    ((let s : State := ((channels up)); let ch : Chan := 0; let f := (.errors 0 [3]); let ds := [0];
      decide (((s.chan ch.val).state = .inService ∨ (s.chan ch.val).state = .takingOut) ∧ burstRead (s.chan ch.val).marks f = .corrected ds)) = true) ∧
    ((let s : State := ((channels up)); let ch : Chan := 0; let f := (.errors 1 ((List.range 20).map (Fin.ofNat 80)));
      decide (((s.chan ch.val).state = .inService ∨ (s.chan ch.val).state = .takingOut) ∧ burstRead (s.chan ch.val).marks f = .uncorrectable)) = true) ∧
    ((let s : State := ((channels up)); let ch : Chan := 0; let c : RetrainCause := .oscillator; decide (s.build.trainMode = 0 ∧
      (s.chan ch.val).state = .inService ∧ retrainDue s (s.chan ch.val) c = true ∧
      (dieChans (ch.val / 4)).all (fun d => decide ((s.chan d).retrain = none)) = true)) = true) ∧
    ((let s : State := up; let ch : Chan := 0;
      decide (((s.chan ch.val).retrain = none ∨ ((s.chan ch.val).sliceAt).any (fun e => decide (s.since e < 200000)) = true))) = true) ∧
    ((let s : State := ({ channels up with dimmWork := { requests := [1] } }); let ch : Chan := 1; decide (s.dimmWork.active = none ∧
      s.dimmWork.requests.head? = some ch.val ∧ ((s.bay ch.val).state ≠ .queued ∨ ch.val ∈ s.dimmWork.forced) ∧ pagesOn s ch.val = [])) = true) ∧
    ((let s : State := up; let ch : Chan := 0; decide (s.dimmWork.active ≠ some ch.val ∧
      (s.dimmWork.active ≠ none ∨ s.dimmWork.requests.head? ≠ some ch.val ∨ ((s.bay ch.val).state = .queued ∧ ch.val ∉ s.dimmWork.forced)))) = true) ∧
    ((let s : State := { (channels ready) with dimmWork := { active := some 1 }, dimm := [(274877906944 + 3, 7)], dir := [(0, { page := 0 })], ctxs := [(5, { part := 0, usesSeq := true, kv := some ⟨1, 1, true, 1, 4, 0⟩, pool := [(0, ⟨1, 0⟩), (1, ⟨2, 0⟩)], used := [(0, ⟨0⟩)] })] };
      let ch : Chan := 1; decide (s.dimmWork.active = some ch.val ∧ (∃ x ∈ pagesOn s ch.val, (placePage x.1 x.2 s).isSome = true))) = true) := by
  and_intros <;> decide +kernel

theorem test_meets_LinksAndChannelsFailAndLeave_2 :
    ((let s : State := ({ channels up with dimmWork := { active := some 1 } }); let ch : Chan := 1; decide (s.dimmWork.active = some ch.val ∧
      pagesOn s ch.val = [])) = true) ∧
    ((let s : State := { (channels ready) with dimmWork := { active := some 1 }, dimm := [(274877906944 + 3, 7)], dir := [(0, { page := 0 })], ctxs := [(5, { part := 0, usesSeq := true, kv := some ⟨1, 1, true, 1, 4, 0⟩, pool := [(0, ⟨1, 0⟩), (1, ⟨2, 0⟩)], used := [(0, ⟨0⟩)] })] };
      let ch : Chan := 1; let c : CtxId := 5; let k : Context := (s.ctx 5).getD { part := 0 }; Option.any (fun g => let page : Nat := 0;
      let use : PageUse := ⟨0⟩; Option.any (fun (q, k2) => let a : Nat := (pageAddr k 0).getD 0; let b : Nat := (pageAddr k2 q).getD 0;
      decide (s.dimmWork.active = some ch.val ∧ s.pair.formed = false ∧ s.ctx c.val = some k ∧ k.used.find page = some use ∧
      (c.val, page) ∈ pagesOn s ch.val ∧ allocPage s k use.entry = some (q, k2) ∧ k.kv = some g ∧ k2.kv = some g ∧ pageAddr k page = some a ∧
      pageAddr k2 q = some b ∧
      ((summaryAddr k2 q).all (fun i => decide (i + 1024 ≤ b ∨ b + g.stride ≤ i)) = true))) (allocPage s k use.entry)) (k.kv)) = true) ∧
    ((let s : State := up; let ch : Chan := 0; decide (s.dimmWork.active ≠ some ch.val)) = true) ∧
    ((let s : State := { up with dimmWork := { fenced := [(5, ⟨1, 0⟩)] }, dimm := [(274877906944 + 3, 7), (5, 6)] }; let c : CtxId := 5;
      decide ((∃ e ∈ s.dimmWork.fenced, e.1 = c.val))) = true) ∧
    ((let s : State := up; let c : CtxId := 5; decide ((∀ e ∈ s.dimmWork.fenced, e.1 ≠ c.val))) = true) := by
  and_intros <;> decide +kernel

theorem test_meets_LinksAndChannelsFailAndLeave_by_hand :
    up.build.trainMode ≠ 0 ∨ retrainDue up (up.chan 0) .period = false ∨ ∃ d ∈ dieChans 0, (up.chan d).retrain ≠ none :=
  .inr (.inl (by decide +kernel))

theorem test_meets_LinksAndChannelsFailAndLeave_by_hand_2 :
    (retraining.chan 1).retrain ≠ none ∧ (∀ e, (retraining.chan 1).sliceAt = some e → 200000 ≤ retraining.since e) :=
  ⟨by decide, fun _ h => nomatch h⟩

theorem test_meets_LinksAndChannelsFailAndLeave_by_hand_3 :
    (retraining.chan 1).retrain ≠ none ∧ (∀ e, (retraining.chan 1).sliceAt = some e → 200000 ≤ retraining.since e) :=
  ⟨by decide, fun _ h => nomatch h⟩

theorem test_meets_LinksAndChannelsFailAndLeave_by_hand_4 :
    (retraining.chan 1).retrain ≠ none ∧
      (∀ e, (retraining.chan 1).sliceAt = some e → 200000 ≤ retraining.since e) ∧
      (retraining.chan 1).state = .inService ∧
      1 ∉ retraining.dimmWork.requests :=
  ⟨by decide, fun _ h => (nomatch h), rfl, by decide⟩

theorem test_meets_ReferencesNodesAndInstancesFail :
    ((let s : State := up; decide (s.mgmt.active ≠ none)) = true) ∧
    ((let s : State := up; decide (s.mgmt.active ≠ none ∧ (s.die resonatorDie).failed = false)) = true) ∧
    ((let s : State := up; decide (s.mgmt.active ≠ none ∧ s.pair.formed = false ∧ s.power.ownBad = false)) = true) ∧
    ((let s : State := { up with power := { up.power with ownBad := true } }; decide (s.mgmt.active ≠ none ∧ s.power.ownBad = true ∧
      s.power.partnerBad = true)) = true) ∧
    ((let s : State := up; let a : Pos := 0; decide (a.val ∉ s.wafer.nodesOut ∧ s.pair.formed = false ∧ posCompute a.val = none)) = true) ∧
    ((let s : State := { up with wafer := { up.wafer with nodesOut := [13] } }; let a : Pos := 13; decide (a.val ∈ s.wafer.nodesOut)) = true) ∧
    ((let s : State := up; let a : Pos := 0; decide (a.val ∉ s.reck.faulty)) = true) ∧
    ((let x : Drift := ⟨9, 79999999000, 5⟩; let n : W64 := 80000000000; decide (-64 ≤ x.d ∧ x.d ≤ 64 ∧ 504 ≤ (n - x.at_).toNat)) = true) ∧
    ((let s : State := up; let ds : List Int := (List.replicate 144 2); decide (s.life.meshLocked = true ∧ s.pair.formed = false ∧ ds.length = 144)) = true) ∧
    ((let s : State := { up with life := { up.life with meshLocked := false } }; decide (s.life.meshLocked = false)) = true) := by
  and_intros <;> decide +kernel

theorem test_meets_RegionsChangeFrequencyByAStop :
    ((let s : State := { (lit 12 up) with power := { up.power with regions := [(0, { freq := 30, want := some 28 })] } }; let r : Region := 0;
      decide (regionRuns s r.val = true ∧ (s.region r.val).stopped = false)) = true) ∧
    ((let s : State := { (lit 100 up) with power := { up.power with regions := [(0, { freq := 30, realign := true, stopped := true })] } };
      let r : Region := 0; decide (regionRuns s r.val = true ∧ (s.region r.val).stopped = true)) = true) ∧
    ((let s : State := up; let r : Region := 0; decide (regionRuns s r.val = false)) = true) ∧
    ((let s : State := { (lit 100 up) with power := { up.power with regions := [(0, { freq := 30, realign := true })] } }; let r : Region := 0;
      decide ((s.region r.val).realign = true ∧ (s.region r.val).stopped = false)) = true) ∧
    ((let s : State := { (lit 100 up) with power := { up.power with regions := [(0, { freq := 30, realign := true, stopped := true })] } };
      let r : Region := 0; decide ((s.region r.val).realign = true ∧ (s.region r.val).stopped = true)) = true) ∧
    ((let s : State := { (lit 12 up) with power := { up.power with regions := [(0, { freq := 30, want := some 28 })] } }; let r : Region := 0; let f := 28;
      decide ((s.region r.val).realign = false ∧ (s.region r.val).want = some f ∧ (s.region r.val).stopped = false ∧ regionRuns s r.val = true ∧
      (∀ i ∈ regionSites r.val, (s.site i).power ≠ .admitted) ∧ ((s.region r.val).behind = true → ∀ i ∈ regionSites r.val, (s.site i).requested = false) ∧
      (f = (s.region r.val).freq ∨ changedLately s r.val = false))) = true) ∧
    ((let s : State := up; let r : Region := 0; decide ((s.region r.val).realign = false ∧
      ((s.region r.val).want = none ∨ (s.region r.val).stopped = true ∨ regionRuns s r.val = false ∨ (∃ i ∈ regionSites r.val, (s.site i).power = .admitted) ∨ ((s.region r.val).behind = true ∧
      ∃ i ∈ regionSites r.val, (s.site i).requested = true) ∨ ((∀ f, (s.region r.val).want = some f → f ≠ (s.region r.val).freq) ∧
      changedLately s r.val = true)))) = true) ∧
    ((let s : State := { up with power := { up.power with regions := [(0, { freq := 30, stopped := true, want := some 28 })] } }; let r : Region := 0;
      let f := 28; decide ((s.region r.val).realign = false ∧ (s.region r.val).want = some f ∧ (s.region r.val).stopped = true)) = true) ∧
    ((let s : State := up; let r : Region := 0; decide ((s.region r.val).realign = false ∧
      ((s.region r.val).stopped = false ∨ (s.region r.val).want = none))) = true) ∧
    ((let s : State := { (lit 12 up) with power := { up.power with regions := [(0, { freq := 30, want := some 28 })] } }; let r : Region := 0;
      List.any (regionSites r.val) (fun i => decide ((s.site i).power ≠ .dark))) = true) ∧
    ((let s : State := up; decide (s.mgmt.active ≠ none)) = true) ∧
    ((let s : State := up; decide (s.mgmt.active ≠ none)) = true) := by
  and_intros <;> decide +kernel

theorem test_meets_DroopHoldLowersARegion :
    ((let s : State := { (lit 30 up) with power := { up.power with regions := [(0, { freq := 30, alarms := List.replicate 8 79999999999 })] } };
      let x : SiteId := 0; decide ((s.site x.val).power = .on ∧
      8 ≤ ((s.region (siteRegion x.val)).alarms.filter (fun t => decide (s.since t < 4000000))).length ∧
      (s.region (siteRegion x.val)).stopped = false)) = true) ∧
    ((let s : State := (lit 12 up); let x : SiteId := 0; decide ((s.site x.val).power = .on ∧
      ((s.region (siteRegion x.val)).alarms.filter (fun t => decide (s.since t < 4000000))).length < 8)) = true) ∧
    ((let s : State := (lit 12 up); let x : SiteId := 0; decide ((s.site x.val).power = .on)) = true) := by
  and_intros <;> decide +kernel

theorem test_meets_DroopAlarmsAreRecorded :
    ((let s : State := (lit 12 up); let x : SiteId := 20; decide ((s.site x.val).power ≠ .on)) = true) ∧
    ((let s : State := (lit 12 up); let x : SiteId := 0; decide ((s.site x.val).power = .on)) = true) := by
  and_intros <;> decide +kernel

theorem test_meets_PowerPathFaultsAct :
    ((let s : State := up; let x : SiteId := 0; decide (s.pair.formed = false ∧ s.siteOf (s.logicalAt x.val) = x.val ∧ s.mgmt.active ≠ none ∧
      (s.site x.val).primaryOpen = false ∧ (s.site x.val).duplicateOpen = false)) = true) ∧
    ((let s : State := up; let x : SiteId := 0; let b : Bool := true; decide (s.pair.formed = false ∧ s.siteOf (s.logicalAt x.val) = x.val ∧
      s.mgmt.active ≠ none ∧ (s.site x.val).bothOpen = false ∧ (b = true ∨ (s.site x.val).duplicateOpen = true))) = true) ∧
    ((let s : State := up; let x : SiteId := 0; let k : Fin 24 := 0; decide (s.pair.formed = false ∧ s.siteOf (s.logicalAt x.val) = x.val ∧
      s.mgmt.active ≠ none ∧ k.val ∉ (s.site x.val).phasesOff ∧ (s.site x.val).phasesOff.length < 6)) = true) ∧
    ((let s : State := { up with sites := [(0, { power := .on, phasesOff := [1, 2, 3, 4, 5, 6] })] }; let x : SiteId := 0; let k : Fin 24 := 0;
      decide (s.pair.formed = false ∧ s.siteOf (s.logicalAt x.val) = x.val ∧ s.mgmt.active ≠ none ∧ k.val ∉ (s.site x.val).phasesOff ∧
      (s.site x.val).phasesOff.length = 6)) = true) ∧
    ((let s : State := { up with sites := [(0, { power := .on, phasesOff := [1, 2, 3, 4, 5, 6] })] }; let x : SiteId := 0; let k : Fin 24 := 3;
      decide (s.pair.formed = false ∧ s.siteOf (s.logicalAt x.val) = x.val ∧ s.mgmt.active ≠ none ∧ k.val ∈ (s.site x.val).phasesOff)) = true) ∧
    ((let s : State := up; let x : SiteId := 0; let r : Region := 0; decide (s.pair.formed = false ∧ s.siteOf (s.logicalAt x.val) = x.val ∧
      s.mgmt.active ≠ none ∧ r.val ∉ s.wafer.firstStageOut)) = true) ∧
    ((let s : State := up; let x : SiteId := 0; let k : Fin 4 := 0; decide (s.pair.formed = false ∧ s.siteOf (s.logicalAt x.val) = x.val ∧
      s.mgmt.active ≠ none ∧ 25 + k.val ∉ s.wafer.firstStageOut)) = true) ∧
    ((let s : State := up; let x : SiteId := 0; let l : CrackLoop := (.die 0); let n := 1; decide (s.pair.formed = false ∧
      s.siteOf (s.logicalAt x.val) = x.val ∧ s.mgmt.active ≠ none ∧ 10 * n ≤ 11 * Config.crackFactory (crackIndex l))) = true) := by
  and_intros <;> decide +kernel

theorem test_meets_PowerPathFaultsAct_by_hand :
    let n := 2 * Config.crackFactory (crackIndex (.die 0))
    up.pair.formed = false ∧ up.siteOf (up.logicalAt 0) = 0 ∧ up.mgmt.active ≠ none ∧
      11 * Config.crackFactory (crackIndex (.die 0)) < 10 * n ∧
      n ≤ 10 * Config.crackFactory (crackIndex (.die 0)) ∧
      crackIndex (.die 0) ∉ up.wafer.crackWarn :=
  ⟨rfl, by decide +kernel, by decide, by simp only [Config.crackFactory]; omega, by omega, by decide⟩

theorem test_meets_PowerPathFaultsAct_by_hand_2 :
    let n := 10 * Config.crackFactory (crackIndex (.package 0)) + 1
    10 * Config.crackFactory (crackIndex (.package 0)) < n ∧
      crackIndex (.package 0) ∉ up.wafer.crackOpen :=
  ⟨by omega, by decide⟩

theorem test_meets_SitesPowerUpAndDown :
    ((let s : State := { ready with power := { ready.power with admission := [0, 1] }, sites := [(0, { requested := true })] }; let x : SiteId := 0;
      let i := 0; decide (groupHead s x.val = true ∧ darkState s = false ∧ coolEnough s x.val = true ∧ i + 30 ≤ 150 ∧ s.update.phase = .idle ∧
      tooFast s x.val = false)) = true) ∧
    ((let s : State := { ready with power := { ready.power with regions := [(0, { freq := 45 })], admission := [0] }, sites := (0, { requested := true }) :: (List.range 11).map (fun k => (k + 1, { power := .on })) };
      let x : SiteId := 0; let i := 0; decide (groupHead s x.val = true ∧ darkState s = false ∧ coolEnough s x.val = true ∧ i + 30 ≤ 150 ∧
      s.update.phase = .idle ∧ tooFast s x.val = true ∧ (s.region (siteRegion x.val)).stopped = false)) = true) ∧
    ((let s : State := up; let x : SiteId := 0; let i := 0; let b := true;
      decide ((150 < i + 30 ∨ b = false ∨ groupHead s x.val = false ∨ s.update.phase ≠ .idle ∨ darkState s = true ∨ coolEnough s x.val = false))) = true) ∧
    ((let s : State := { ready with power := { ready.power with regions := [(0, { freq := 45 })], admission := [0] }, sites := (0, { requested := true }) :: (List.range 11).map (fun k => (k + 1, { power := .on })) };
      let x : SiteId := 0; let n := 24; decide (groupHead s x.val = true ∧ darkState s = false ∧ s.update.phase = .idle ∧
      regionRuns s (siteRegion x.val) = true ∧ n < (s.region (siteRegion x.val)).freq ∧ (s.region (siteRegion x.val)).stopped = false)) = true) ∧
    ((let s : State := { up with sites := [(0, { power := .admitted })] }; let x : SiteId := 0; decide ((s.site x.val).power = .admitted)) = true) ∧
    ((let s : State := up; let x : SiteId := 0; decide ((s.site x.val).power ≠ .admitted)) = true) ∧
    ((let s : State := { up with power := { up.power with waves := [0] } }; let x : SiteId := 0; let w : Fin 10 := 0; decide (w.val = s.power.nextWave ∧
      darkState s = false ∧ s.power.waves = [x.val] ∧ (siteX x.val + 2 * siteY x.val) % 10 = w.val ∧ (s.site x.val).power = .dark ∧
      tooFast s x.val = false ∧ changeFirst s (siteRegion x.val) = false)) = true) ∧
    ((let s : State := { up with power := { up.power with waves := [0], regions := [(0, { want := some 28 })] } }; let x : SiteId := 0;
      let w : Fin 10 := 0; decide (w.val = s.power.nextWave ∧ darkState s = false ∧ s.power.waves = [x.val] ∧ (siteX x.val + 2 * siteY x.val) % 10 = w.val ∧
      (s.site x.val).power = .dark ∧ changeFirst s (siteRegion x.val) = true ∧ (s.site x.val).requested = false ∧ coolEnough s x.val = true)) = true) ∧
    ((let s : State := up; let w : Fin 10 := 0; decide (w.val = s.power.nextWave ∧ darkState s = false ∧
      (∀ i ∈ s.power.waves, (siteX i + 2 * siteY i) % 10 ≠ w.val))) = true) ∧
    ((let s : State := up; let w : Fin 10 := 3; decide ((w.val ≠ s.power.nextWave ∨ darkState s = true))) = true) ∧
    ((let s : State := (lit 12 up); let x : SiteId := 0; decide ((s.site x.val).power ≠ .dark ∧ (sitePlaced s x.val = false ∨ darkState s = true) ∧
      starting s = false ∧ changeBefore s (siteRegion x.val) = false)) = true) ∧
    ((let s : State := { ready with power := { ready.power with admission := [0, 1] }, sites := [(0, { requested := true })] }; let x : SiteId := 0;
      decide (((sitePlaced s x.val = true ∧ darkState s = false) ∨ changeBefore s (siteRegion x.val) = true))) = true) := by
  and_intros <;> decide +kernel

theorem test_meets_HeatSwitchesSitesOff_1 :
    ((let s : State := up; decide (s.pair.formed = false)) = true) ∧
    ((let s : State := (lit 12 up); let x : SiteId := 0; let h : Int := 1149; decide (s.pair.formed = false ∧ (s.site x.val).power = .on ∧
      (s.site x.val).heat = .normal ∧ (s.region (siteRegion x.val)).freq = 24 ∧ (s.die x.val).sensorsOut = [] ∧ 1050 ≤ h)) = true) ∧
    ((let s : State := { (lit 12 up) with sites := [(0, { power := .on, heat := .marked })] }; let x : SiteId := 0; decide (s.pair.formed = false ∧
      (s.site x.val).heat = .marked ∧ (s.site x.val).power = .on ∧ changeBefore s (siteRegion x.val) = false ∧ partOf s (s.logicalAt x.val) = none ∧
      s.mgmt.active ≠ none)) = true) ∧
    ((let s : State := { ready with sites := (List.range 12).map (fun k => (k, { power := .on, heat := if k = 5 then .marked else .normal })) };
      let x : SiteId := 5; Option.any (fun p => Option.any (fun q => decide (s.pair.formed = false ∧ (s.site x.val).heat = .marked ∧
      (s.site x.val).power = .on ∧ changeBefore s (siteRegion x.val) = false ∧ partOf s (s.logicalAt x.val) = some p ∧ s.part p = some q ∧
      atBoundary s p = true ∧ hostsNavigator q (s.logicalAt x.val) = false ∧ (coverFor s q (s.logicalAt x.val)).isSome = true ∧
      (∀ m ∈ q.clusters, m ≠ s.logicalAt x.val → s.siteOf m ≠ x.val) ∧
      s.siteOf (s.logicalAt x.val) = x.val)) (s.part p)) (partOf s (s.logicalAt x.val))) = true) ∧
    ((let s : State := { (lit 12 (stepping (running { opcode := 8 }))) with sites := [(0, { power := .on, heat := .marked })] }; let x : SiteId := 0;
      Option.any (fun p => decide (s.pair.formed = false ∧ (s.site x.val).heat = .marked ∧ partOf s (s.logicalAt x.val) = some p ∧
      atBoundary s p = false)) (partOf s (s.logicalAt x.val))) = true) ∧
    ((let s : State := { (lit 12 ready) with power := { up.power with regions := [(0, { want := some 28 })] } }; let x : SiteId := 0;
      decide (s.pair.formed = false ∧ changeBefore s (siteRegion x.val) = true)) = true) ∧
    ((let s : State := { ready with sites := [(0, { power := .dark, heat := .off })] }; let x : SiteId := 0; decide (s.pair.formed = false ∧
      (s.site x.val).heat = .off ∧ hottest s x.val < 850 ∧ (s.site x.val).power = .dark ∧ (s.site x.val).requested = false ∧ sitePlaced s x.val = true ∧
      darkState s = false)) = true) ∧
    ((let s : State := up; let x : SiteId := 0; decide (s.pair.formed = false ∧ ((s.site x.val).heat ≠ .off ∨ 850 ≤ hottest s x.val))) = true) ∧
    ((let s : State := (lit 12 up); let x : SiteId := 0; let h : Int := 1150; decide (s.pair.formed = false ∧ 1150 ≤ h ∧ (s.site x.val).power ≠ .dark ∧
      s.siteOf (s.logicalAt x.val) = x.val ∧ s.mgmt.active ≠ none)) = true) ∧
    ((let s : State := up; let d : Option DieId := none; let h : Int := 1150; decide (s.pair.formed = false ∧
      (d).all (fun n => decide (100 ≤ n.val)) = true ∧ 1150 ≤ h)) = true) ∧
    ((let s : State := up; let h : Int := 1050; decide (s.pair.formed = false ∧ h + 50 < 1150)) = true) ∧
    ((let s : State := { ready with sites := [(0, { power := .dark, heat := .tripped })] }; let x : SiteId := 0; decide (s.pair.formed = false ∧
      (s.site x.val).heat = .tripped ∧ hottest s x.val < 850 ∧ tripTest s x.val = none ∧ (s.site x.val).retired = false ∧ (s.site x.val).power = .dark ∧
      (s.site x.val).requested = false ∧ sitePlaced s x.val = true ∧ darkState s = false)) = true) ∧
    ((let s : State := { ready with sites := [(0, { power := .dark, heat := .tripped })] }; let x : SiteId := 0;
      Option.any (fun p => Option.any (fun q => decide (s.pair.formed = false ∧ (s.site x.val).heat = .tripped ∧ partOf s (s.logicalAt x.val) = some p ∧
      s.part p = some q ∧ hostsNavigator q (s.logicalAt x.val) = true ∧
      s.siteOf (s.logicalAt x.val) = x.val)) (s.part p)) (partOf s (s.logicalAt x.val))) = true) ∧
    ((let s : State := { { ready with sites := [(0, { power := .dark, heat := .tripped })] } with dies := (List.range 122).map (fun d => (d, { temps := [900] })) };
      let x : SiteId := 0; decide (s.pair.formed = false ∧ 850 ≤ hottest s x.val)) = true) := by
  and_intros <;> decide +kernel

theorem test_meets_HeatSwitchesSitesOff_2 :
    ((let s : State := up; let x : SiteId := 0; decide (s.pair.formed = false ∧ (s.site x.val).heat ≠ .tripped)) = true) := by decide +kernel

theorem test_meets_PowerStatesCapMarginAndEnergy :
    ((let s : State := { up with life := { up.life with entering := some { state := .idle } } }; let o := { state := .idle };
      decide (s.life.entering = some o ∧ (o.state = .idle ∨ o.state = .doze ∨ o.state = .sleep) ∧ readyToEnter s = true ∧ s.life.resetWaits = false ∧
      s.life.orders = [] ∧ (∀ e ∈ s.sq, e.2.step = none))) = true) ∧
    ((let s : State := { up with life := { up.life with entering := some { state := .off } } }; let o := { state := .off };
      decide (s.life.entering = some o ∧ o.state = .off ∧ readyToEnter s = true ∧ s.life.resetWaits = false ∧ s.life.orders = [])) = true) ∧
    ((let s : State := up; decide ((s.life.entering = none ∨ readyToEnter s = false))) = true) ∧
    ((let s : State := up; let a := 0; let peak := 0; let amps := 461;
      decide ((100 * s.setting .pwrCap < a ∨ min (125 * s.setting .pwrCap) (100 * s.maxCap) < peak ∨ 460 < amps))) = true) ∧
    ((let s : State := up; let a := 0; let peak := 0; let amps := 0; decide (a ≤ 100 * s.setting .pwrCap ∧ peak ≤ 125 * s.setting .pwrCap ∧
      peak ≤ 100 * s.maxCap ∧ amps ≤ 460)) = true) ∧
    ((let s : State := up; let r : Region := 0; let l : List Nat := [19, 30]; decide (l ≠ [] ∧ (s.region r.val).stopped = false ∧ (∃ n ∈ l, n < 20) ∧
      (∀ n ∈ l, 10 ≤ n) ∧ (s.region r.val).vdd < 900)) = true) ∧
    ((let s : State := up; let r : Region := 0; let l : List Nat := [9]; decide (l ≠ [] ∧ (s.region r.val).stopped = false ∧ (∃ n ∈ l, n < 10) ∧
      (s.region r.val).vdd < 900)) = true) ∧
    ((let s : State := { up with power := { up.power with regions := [(0, { vdd := 900, freq := 30 })] } }; let r : Region := 0;
      let l : List Nat := [19, 30]; decide (l ≠ [] ∧ (s.region r.val).stopped = false ∧ (∃ n ∈ l, n < 20) ∧ 900 ≤ (s.region r.val).vdd ∧
      (s.region r.val).slackCap = none ∧ s.mgmt.active ≠ none)) = true) ∧
    ((let s : State := up; let r : Region := 0; let l : List Nat := [21]; decide (l ≠ [] ∧ (s.region r.val).stopped = false ∧ (∀ n ∈ l, 20 < n))) = true) ∧
    ((let s : State := ready; let sh : Nat := 3; let model : List (DieId × Nat) := [(0, 40)]; let c : CtxId := 5; Option.any (fun k => let ms : Nat := 4;
      decide (attributed s model + sh ≠ 0 ∧ ms ≠ 0 ∧ s.ctx c.val = some k)) (s.ctx c.val)) = true) := by
  and_intros <;> decide +kernel

theorem test_meets_TestsRepairsAndLossesAct :
    ((let s : State := { ready with errs := { ready.errs with tests := [{ detectNo := 4, cls := 0x04, unit := clusterUnit ready 0x04 0 1 2 3 }] } };
      Option.any (fun t => let no : W32 := 4; decide (s.pair.formed = false ∧ s.errs.tests = [t] ∧ t.detectNo = no ∧ t.started = false ∧
      unitIdle s t = true)) ((s.errs.tests).head?)) = true) ∧
    ((let s : State := { ready with errs := { ready.errs with tests := [{ detectNo := 4, cls := 0x04, unit := clusterUnit ready 0x04 0 1 2 3, started := true }] } };
      Option.any (fun t => let no : W32 := 4; decide (s.pair.formed = false ∧ s.errs.tests = [t] ∧ t.detectNo = no ∧
      (t.started = true ∨ unitIdle s t = false))) ((s.errs.tests).head?)) = true) ∧
    ((let s : State := { ready with errs := { ready.errs with tests := [{ detectNo := 4, cls := 0x04, unit := clusterUnit ready 0x04 0 1 2 3 }] } };
      Option.any (fun t => let no : W32 := 4; decide (s.pair.formed = false ∧ s.errs.tests = [t] ∧ t.detectNo = no ∧
      t.started = false)) ((s.errs.tests).head?)) = true) ∧
    ((let s : State := { ready with errs := { ready.errs with tests := [{ detectNo := 4, cls := 0x04, unit := clusterUnit ready 0x04 0 1 2 3, started := true }] } };
      Option.any (fun t => let no : W32 := 4; decide (s.pair.formed = false ∧ s.errs.tests = [t] ∧ t.detectNo = no ∧ t.started = true ∧ t.cls ≠ 0x01 ∧
      t.applied = false ∧ inconclusiveBefore s t.cls t.unit = false ∧ ninthTransient s t.unit = false ∧ t.doubt = false ∧
      s.mgmt.active ≠ none)) ((s.errs.tests).head?)) = true) ∧
    ((let s : State := { ready with errs := { ready.errs with tests := [{ detectNo := 4, cls := 0x04, unit := clusterUnit ready 0x04 0 1 2 3, started := true }] } };
      Option.any (fun t => let no : W32 := 4; let v : UnitRef := clusterUnit ready 0x04 0 1 2 3; let m : StoreRef := (.core 0 1); let row : Nat := 194;
      Option.any (fun k => decide (s.pair.formed = false ∧ s.errs.tests = [t] ∧ t.detectNo = no ∧ t.started = true ∧ t.cls.toNat ∈ [4, 5, 6, 7] ∧
      storeOfUnit s v = some (m, row) ∧ spareNamed m row = none ∧ (∀ e ∈ (s.store m).remap, e.1 ≠ row) ∧ nextSpare s m row = some k ∧ s.mgmt.active ≠ none ∧
      s.build.chart.length < chartCapacity)) (nextSpare s m row)) ((s.errs.tests).head?)) = true) ∧
    ((let s : State := (stepping { step0 with op := 1 }); let c : Cluster := 0; Option.any (fun p => Option.any (fun t => let cls := 0x10;
      decide (s.pair.formed = false ∧ s.errs.tests = [] ∧ partOf s c.val = some p ∧ s.stepOf p = some t ∧ t.phase ≠ .compared ∧ t.phase ≠ .ended ∧
      cls ≠ 0x0F ∧ (s.site (s.siteOf c.val)).retired = false ∧ s.siteOf c.val < 100 ∧ s.mgmt.active ≠ none)) (s.stepOf p)) (partOf s c.val)) = true) ∧
    ((let s : State := ready; decide (s.pair.formed = false ∧ s.errs.tests = [])) = true) ∧
    ((let s : State := ready; let c : Cluster := 0; decide (s.pair.formed = false ∧ s.errs.tests = [] ∧ (partOf s c.val).bind s.stepOf = none)) = true) ∧
    ((let s : State := { ready with link := { ready.link with up := false } }; decide (s.pair.formed = false ∧ s.errs.tests = [] ∧
      (s.die hostDie).failed = false ∧ s.mgmt.active ≠ none ∧ s.link.up = false)) = true) ∧
    ((let s : State := ready; decide (s.pair.formed = false ∧ s.errs.tests = [] ∧ (s.die 108).failed = false ∧ s.mgmt.active ≠ none)) = true) ∧
    ((let s : State := ready; decide (s.pair.formed = false ∧ s.errs.tests = [] ∧ (s.die 105).failed = false ∧ s.mgmt.active = some 0 ∧
      s.mgmt.sv1.works = true)) = true) ∧
    ((let s : State := ready; let d : DieId := 0; decide (s.pair.formed = false ∧ s.errs.tests = [] ∧
      (d.val < 100 ∨ d.val = resonatorDie ∨ (s.die d.val).failed = true))) = true) := by
  and_intros <;> decide +kernel

theorem test_meets_PortsTrainFallAndCarryFrames :
    ((let s : State := (ported up); let p : Port := 0; let ok : BitVec 8 := 0xFF; let serial := 9; decide (s.pair.formed = false ∧
      portMayTrain s p.val = true ∧ ok = 0xFF ∧ (s.port p.val).lanesOut = [] ∧ otherPartner s p.val serial = false ∧ (s.port p.val).lanes ≠ 0)) = true) ∧
    ((let s : State := (ported up); let p : Port := 1; let ok : BitVec 8 := 0xFF; let serial := 9; decide (s.pair.formed = false ∧
      portMayTrain s p.val = true ∧ ok = 0xFF ∧ (s.port p.val).lanesOut = [] ∧ otherPartner s p.val serial = false ∧ (s.port p.val).lanes = 0)) = true) ∧
    ((let s : State := (ported up); let p : Port := 1; let ok : BitVec 8 := 0xFF; let serial := 11; decide (s.pair.formed = false ∧
      portMayTrain s p.val = true ∧ ok = 0xFF ∧ (s.port p.val).lanesOut = [] ∧ otherPartner s p.val serial = true ∧ s.mgmt.active ≠ none ∧
      (s.port p.val).replay = [])) = true) ∧
    ((let s : State := (ported up); let p : Port := 0; let ok : BitVec 8 := 0x0F; let serial := 9; decide (s.pair.formed = false ∧
      portMayTrain s p.val = true ∧ (s.port p.val).lanesOut = [] ∧ otherPartner s p.val serial = false ∧ s.mgmt.active ≠ none ∧
      (ok = 0x0F ∨ ok = 0xF0))) = true) ∧
    ((let s : State := (ported up); let p : Port := 0; let ok : BitVec 8 := 0x00; let serial := 9; decide (s.pair.formed = false ∧
      portMayTrain s p.val = true ∧ (s.port p.val).lanesOut = [] ∧ otherPartner s p.val serial = false ∧ s.mgmt.active ≠ none ∧ ok = 0x00 ∧
      (s.port p.val).replay = [])) = true) ∧
    ((let s : State := up; let p : Port := 0; decide (s.pair.formed = false ∧ portMayTrain s p.val = false)) = true) ∧
    ((let s : State := (ported up); let p : Port := 1; decide (s.pair.formed = false ∧ portMayTrain s p.val = true ∧ (s.port p.val).lanes = 0)) = true) ∧
    ((let s : State := (ported up); let p : Port := 0; decide (s.pair.formed = false ∧ (portMayTrain s p.val = false ∨ (s.port p.val).lanes ≠ 0))) = true) ∧
    ((let s : State := (ported up); let p : Port := 0; decide (s.pair.formed = false ∧ (s.port p.val).lanes ≠ 0 ∧ (s.port p.val).replay = [])) = true) ∧
    ((let s : State := (ported up); let p : Port := 1; decide (s.pair.formed = false ∧ (s.port p.val).lanes = 0 ∧ (s.port p.val).down = true)) = true) := by
  and_intros <;> decide +kernel

theorem test_meets_PortsTrainFallAndCarryFrames_by_hand :
    let s : State := { up with pair := { up.pair with ports := [(0, { lanes := 8, down := false, replay := [(3, .timeReq 7)] }), (1, { lanes := 4 })] } }
    s.pair.formed = false ∧
      (s.port 0).lanes ≠ 0 ∧ (s.port 0).replay = [(3, .timeReq 7)] ∧ (1 : Port) ≠ 0 ∧
      (∀ x, x ≠ 0 → x ≠ 1 → (s.port x).lanes = 0) ∧
      (s.port 1).lanes = 3 + 1 :=
  ⟨rfl, by decide, rfl, by decide, otherPorts2, rfl⟩

theorem test_meets_PortsTrainFallAndCarryFrames_by_hand_2 :
    (ported up).pair.formed = false ∧ (∀ x, x ≠ 0 → ((ported up).port x).lanes = 0) ∧ ((ported up).port 0).lanes ≠ 0 ∧ (ported up).pair.fwdSteps = [] ∧
      (ported up).pair.asked = [] :=
  ⟨rfl, otherPorts1, by decide, rfl, rfl⟩

theorem test_meets_PortsTrainFallAndCarryFrames_by_hand_3 :
    up.pair.formed = false ∧ (∀ x, x < 4 → (up.port x).lanes = 0) ∧ up.pair.fwdSteps = [] ∧ up.pair.asked = [] :=
  ⟨rfl, fun _ _ => rfl, rfl, rfl⟩

theorem test_meets_LinkFramesAreReceivedInOrder :
    ((let s : State := (ported up); let h : FrameHdr := { port := 0 }; let n : W32 := 0xFFFFFFFF; decide ((s.port h.port.val).lanes ≠ 0 ∧ h.good = true ∧
      h.linkSeq = (s.port h.port.val).recvSeq ∧ s.pair.seenEpoch ≤ h.epoch ∧ n = 0xFFFFFFFF)) = true) ∧
    ((let s : State := { ported up with pair := { (ported up).pair with ports := [(0, { lanes := 8, down := false, serial := 9, replay := [(0, .timeReq 7)] })], sent := [⟨0, 0, 1, .timeReq 7, 2, 0⟩] } };
      let h : FrameHdr := { port := 0 }; let a : W32 := 0xFFFFFFFF; let n : W32 := 0; let f : FrameOut := (.timeReq 7); let m : W32 := 1; let e : W32 := 2;
      let t : W64 := 0; decide ((s.port h.port.val).lanes ≠ 0 ∧ h.good = true ∧ h.linkSeq = (s.port h.port.val).recvSeq ∧ s.pair.seenEpoch ≤ h.epoch ∧
      n ≠ 0xFFFFFFFF ∧ (s.port h.port.val).replay = [(n, f)] ∧ 0 < (n - a).toInt ∧ s.pair.sent = [⟨h.port.val, n, m, f, e, t⟩])) = true) ∧
    ((let s : State := (ported up); let h : FrameHdr := { port := 0, good := false }; decide ((s.port h.port.val).lanes ≠ 0 ∧
      (h.good = false ∨ 0 < (h.linkSeq - (s.port h.port.val).recvSeq).toInt))) = true) ∧
    ((let s : State := (ported up); let h : FrameHdr := { port := 0, linkSeq := 0xFFFFFFFF }; decide ((s.port h.port.val).lanes ≠ 0 ∧ h.good = true ∧
      (h.linkSeq - (s.port h.port.val).recvSeq).toInt < 0)) = true) ∧
    ((let s : State := (ported up); let h : FrameHdr := { port := 0 }; let pid : W64 := 0; decide ((s.port h.port.val).lanes ≠ 0 ∧ h.good = true ∧
      h.linkSeq = (s.port h.port.val).recvSeq ∧ s.pair.seenEpoch ≤ h.epoch ∧ pid.toNat = s.setting .cnsPairId ∧ s.pair.formed = false)) = true) ∧
    ((let s : State := (ported up); let h : FrameHdr := { port := 0 }; let b : IdentityBody := partner; decide ((s.port h.port.val).lanes ≠ 0 ∧
      h.good = true ∧ h.linkSeq = (s.port h.port.val).recvSeq ∧ s.pair.seenEpoch ≤ h.epoch ∧ otherPartner s h.port.val b.serial = false ∧
      b.orderCode.toNat = s.orderCode ∧ b.pairId.toNat = s.setting .cnsPairId ∧ s.setting .cnsMode ≠ 0 ∧ b.mode ≠ 0 ∧ s.pair.formed = false ∧ s.parts = [] ∧
      s.ctxs = [])) = true) ∧
    ((let s : State := (ported up); let h : FrameHdr := { port := 0 }; let b : IdentityBody := { partner with orderCode := 2 };
      decide ((s.port h.port.val).lanes ≠ 0 ∧ h.good = true ∧ h.linkSeq = (s.port h.port.val).recvSeq ∧ s.pair.seenEpoch ≤ h.epoch ∧
      otherPartner s h.port.val b.serial = false ∧ b.orderCode.toNat ≠ s.orderCode)) = true) ∧
    ((let s : State := (paired .primary 2 ready); let h : FrameHdr := { port := 0 }; let reason : Byte := 1; decide ((s.port h.port.val).lanes ≠ 0 ∧
      h.good = true ∧ h.linkSeq = (s.port h.port.val).recvSeq ∧ s.pair.seenEpoch ≤ h.epoch ∧ s.pair.formed = true ∧ 1 ≤ reason.toNat ∧ reason.toNat ≤ 5 ∧
      (s.pair.mode < 2 ∨ s.pair.role = .primary))) = true) := by
  and_intros <;> decide +kernel

theorem test_meets_PairTimeStepsAndDigests :
    ((let s : State := (paired .primary 2 ready); let h : FrameHdr := { port := 0 }; decide (s.pair.fwdSteps = [] ∧ portsTrained s ≠ [] ∧
      Safety.Arrives s h 0x05)) = true) ∧
    ((let s : State := (paired .secondary 2 ready); let h : FrameHdr := { port := 0 }; decide (s.pair.fwdSteps = [] ∧ portsTrained s ≠ [] ∧
      Safety.Arrives s h 0x06 ∧ timeLeader s = false)) = true) ∧
    ((let s : State := (paired .primary 2 ready); let h : FrameHdr := { port := 0 }; decide (s.pair.fwdSteps = [] ∧ portsTrained s ≠ [] ∧
      Safety.Arrives s h 0x06 ∧ timeLeader s = true)) = true) ∧
    ((let s : State := (paired .primary 2 ready); let h : FrameHdr := { port := 0 }; decide (s.pair.fwdSteps = [] ∧ portsTrained s ≠ [] ∧
      Safety.Arrives s h 0x07 ∧ isSecondary s = false)) = true) ∧
    ((let s : State := (paired .secondary 2 ready); let h : FrameHdr := { port := 0 }; let p : PartId := 1; let g := 1;
      Option.any (fun l => decide (s.pair.fwdSteps = [] ∧ portsTrained s ≠ [] ∧ Safety.Arrives s h 0x07 ∧ isSecondary s = true ∧ ownGroups s g = some l ∧
      s.parts.has p.val = false)) (ownGroups s g)) = true) ∧
    ((let s : State := (paired .primary 2 ready); let h : FrameHdr := { port := 0 }; decide (s.pair.fwdSteps = [] ∧ portsTrained s ≠ [] ∧
      Safety.Arrives s h 0x08 ∧ (isSecondary s = false ∨ s.pair.mode ≠ 3))) = true) ∧
    ((let s : State := (paired .secondary 3 (stepping { step0 with op := 1 })); let h : FrameHdr := { port := 0, ctx := 5 };
      let d := [1, 0, 0, 0, 0, 0, 0, 0, 0, 0, 1, 0, 2, 0, 0, 0]; let kind := 0; let program := 1; let count := 2; let c : CtxId := 5;
      Option.any (fun k => decide (s.pair.fwdSteps = [] ∧ portsTrained s ≠ [] ∧ Safety.Arrives s h 0x08 ∧ isSecondary s = true ∧ s.pair.mode = 3 ∧
      h.ctx = BitVec.ofNat 8 c.val ∧ s.ctx c.val = some k ∧ (descOfBytes d).invalid = false ∧ descOfBytes d = .step kind program count ∧
      mayFollow s k.part.val = false)) (s.ctx c.val)) = true) ∧
    ((let s : State := (paired .primary 3 (stepping { step0 with phase := .begun })); let h : FrameHdr := { port := 0, ctx := 5 };
      Option.any (fun (p, t) => let step := 1; decide (s.pair.fwdSteps = [] ∧ portsTrained s ≠ [] ∧ Safety.Arrives s h 0x09 ∧
      runningStep s h.ctx.toNat = some (p, t) ∧ s.stepOf p = some t ∧ t.phase = .begun ∧ t.number = step)) (runningStep s h.ctx.toNat)) = true) ∧
    ((let s : State := (paired .primary 2 ready); let h : FrameHdr := { port := 0 };
      let d : DigestBody := { step := 1, ctx := 5, status := 0, rows := 0, records := 0, dShared := 0, dKv := 0, dToken := 0, dState := 0 };
      decide (s.pair.fwdSteps = [] ∧ portsTrained s ≠ [] ∧ Safety.Arrives s h 0x0A ∧ runningStep s d.ctx.toNat = none)) = true) ∧
    ((let s : State := { paired .primary 3 ready with pair := { (paired .primary 3 ready).pair with sent := [⟨0, 0, 0, .clusterDigest 5 1 3 ({ step := 1, ctx := 5, status := 0, rows := 0, records := 0, dShared := 0, dKv := 0, dToken := 0, dState := 0 }), 0, 0⟩] } };
      let h : FrameHdr := { port := 0, ctx := 5 }; let step := 1; let n : Cluster := 3;
      Option.any (fun e => let d : DigestBody := { step := 1, ctx := 5, status := 0, rows := 0, records := 0, dShared := 4, dKv := 0, dToken := 0, dState := 0 };
      decide (s.pair.fwdSteps = [] ∧ portsTrained s ≠ [] ∧ Safety.Arrives s h 0x0B ∧ ownClusterDigest s h.ctx step n.val = some e ∧ s.mgmt.active ≠ none ∧
      (e.dShared ≠ d.dShared ∨ e.dKv ≠ d.dKv ∨ e.dToken ≠ d.dToken ∨ e.dState ≠ d.dState))) (ownClusterDigest s h.ctx step n.val)) = true) ∧
    ((let s : State := { paired .primary 3 ready with pair := { (paired .primary 3 ready).pair with sent := [⟨0, 0, 0, .clusterDigest 5 1 3 ({ step := 1, ctx := 5, status := 0, rows := 0, records := 0, dShared := 0, dKv := 0, dToken := 0, dState := 0 }), 0, 0⟩] } };
      let h : FrameHdr := { port := 0, ctx := 5 }; let step := 1; let n : Cluster := 3;
      Option.any (fun e => let d : DigestBody := { step := 1, ctx := 5, status := 0, rows := 0, records := 0, dShared := 0, dKv := 0, dToken := 0, dState := 0 };
      decide (s.pair.fwdSteps = [] ∧ portsTrained s ≠ [] ∧ Safety.Arrives s h 0x0B ∧ ownClusterDigest s h.ctx step n.val = some e ∧ s.mgmt.active ≠ none ∧
      e.dShared = d.dShared ∧ e.dKv = d.dKv ∧ e.dToken = d.dToken ∧ e.dState = d.dState)) (ownClusterDigest s h.ctx step n.val)) = true) ∧
    ((let s : State := (paired .primary 2 ready); let h : FrameHdr := { port := 0, streamSeq := 2 }; decide (s.pair.fwdSteps = [] ∧ portsTrained s ≠ [] ∧
      0 < (h.streamSeq - s.pair.streamIn.getD (0x07 * 256 + h.ctx.toNat) 0).toInt ∧ (s.port h.port.val).lanes ≠ 0 ∧ h.good = true ∧
      h.linkSeq = (s.port h.port.val).recvSeq ∧ s.pair.seenEpoch ≤ h.epoch ∧ s.pair.formed = true ∧ s.pair.early = [])) = true) := by
  and_intros <;> decide +kernel

theorem test_meets_MirrorPointsAndCopiesAreApplied :
    ((let s : State := (paired .secondary 2 ready); let h : FrameHdr := { port := 0, ctx := 5 }; let c : CtxId := 5;
      Option.any (fun k => decide (h.ctx = BitVec.ofNat 8 c.val ∧ s.ctx c.val = some k ∧ portsTrained s ≠ [] ∧ Safety.Arrives s h 0x0C ∧
      isSecondary s = true ∧ s.pair.log = [])) (s.ctx c.val)) = true) ∧
    ((let s : State := { (paired .secondary 2 ready) with pair := { (paired .secondary 2 ready).pair with log := [{ ctx := 5, point := 1, frames := [{ point := 1, object := 0, address := 8192, bytes := [1, 2] }] }] } };
      let h : FrameHdr := { port := 0, ctx := 5 }; let c : CtxId := 5;
      Option.any (fun k => let d : DataBody := { point := 1, object := 0, address := 8192, bytes := [1, 2] }; let a : Nat := 8192;
      decide (h.ctx = BitVec.ofNat 8 c.val ∧ s.ctx c.val = some k ∧ portsTrained s ≠ [] ∧ Safety.Arrives s h 0x0D ∧ isSecondary s = true ∧
      s.pair.log = [{ ctx := c, point := d.point, frames := [d] }] ∧ d.object = 0x00 ∧ d.address.toNat = a ∧
      openTo s c a d.bytes.length = true)) (s.ctx c.val)) = true) ∧
    ((let s : State := (paired .secondary 2 ready); let h : FrameHdr := { port := 0, ctx := 5 }; let c : CtxId := 5;
      Option.any (fun k => decide (h.ctx = BitVec.ofNat 8 c.val ∧ s.ctx c.val = some k ∧ portsTrained s ≠ [] ∧ Safety.Arrives s h 0x0D ∧
      isSecondary s = true ∧ s.pair.log = [])) (s.ctx c.val)) = true) ∧
    ((let s : State := (paired .primary 2 ready); let h : FrameHdr := { port := 0, ctx := 5 }; let c : CtxId := 5;
      Option.any (fun k => decide (h.ctx = BitVec.ofNat 8 c.val ∧ s.ctx c.val = some k ∧ portsTrained s ≠ [] ∧ Safety.Arrives s h 0x0E ∧
      isPrimary s = true ∧ s.pair.entering = false)) (s.ctx c.val)) = true) ∧
    ((let s : State := (paired .secondary 2 ready); let h : FrameHdr := { port := 0, ctx := 5 }; let c : CtxId := 5;
      Option.any (fun k => let d : DataBody := { point := 1, object := 0, address := 8192, bytes := [1, 2] }; decide (h.ctx = BitVec.ofNat 8 c.val ∧
      s.ctx c.val = some k ∧ portsTrained s ≠ [] ∧ Safety.Arrives s h 0x0F ∧ isSecondary s = true ∧ d.object = 0x00 ∧
      openTo s c d.address.toNat d.bytes.length = true)) (s.ctx c.val)) = true) ∧
    ((let s : State := (paired .secondary 2 ready); let h : FrameHdr := { port := 0, ctx := 5 }; let c : CtxId := 5;
      Option.any (fun k => let a : W64 := 8192; decide (h.ctx = BitVec.ofNat 8 c.val ∧ s.ctx c.val = some k ∧ portsTrained s ≠ [] ∧
      Safety.Arrives s h 0x10 ∧ (s.pair.mode ≠ 3 ∨ levelWaits s = false) ∧ openTo s c a.toNat 4096 = true ∧ a.toNat % 4096 = 0 ∧
      isPrimary s = false)) (s.ctx c.val)) = true) ∧
    ((let s : State := { paired .primary 3 ready with errs := { ready.errs with tests := [{ detectNo := 4, cls := 0x03, unit := clusterUnit ready 0x04 0 1 2 3 }] }, pair := { (paired .primary 3 ready).pair with differ := [0] } };
      let h : FrameHdr := { port := 0, ctx := 5 }; let c : CtxId := 5; Option.any (fun k => decide (h.ctx = BitVec.ofNat 8 c.val ∧ s.ctx c.val = some k ∧
      portsTrained s ≠ [] ∧ Safety.Arrives s h 0x10 ∧ s.pair.mode = 3 ∧ levelWaits s = true)) (s.ctx c.val)) = true) ∧
    ((let s : State := { (paired .primary 2 ready) with ctxs := [(5, { part := 0, restore := [2], waitsFor := true, resumeDue := true, halted := true })] };
      let h : FrameHdr := { port := 0, ctx := 5 }; let c : CtxId := 5;
      Option.any (fun k => Option.any (fun r => let d : DataBody := { point := 1, object := 0, address := 8192, bytes := (List.replicate 4096 7) };
      decide (h.ctx = BitVec.ofNat 8 c.val ∧ s.ctx c.val = some k ∧ portsTrained s ≠ [] ∧ Safety.Arrives s h 0x11 ∧ isSecondary s = false ∧
      d.object = 0x00 ∧ d.address.toNat = 4096 * r ∧ d.bytes.length = 4096 ∧ openTo s c (4096 * r) 4096 = true ∧ k.restore = [r] ∧ k.waitsFor = true ∧
      k.resumeDue = true ∧ k.reset = .none ∧ s.build.exchanges = [])) ((k.restore).head?)) (s.ctx c.val)) = true) ∧
    ((let s : State := (paired .primary 2 ready); let h : FrameHdr := { port := 0, ctx := 5 }; let c : CtxId := 5;
      Option.any (fun k => decide (h.ctx = BitVec.ofNat 8 c.val ∧ s.ctx c.val = some k ∧ portsTrained s ≠ [] ∧ k.changed = false)) (s.ctx c.val)) = true) ∧
    ((let s : State := { (paired .primary 2 ready) with ctxs := [(5, { part := 0, securing := .secured, changed := true })] };
      let h : FrameHdr := { port := 0, ctx := 5 }; let c : CtxId := 5; Option.any (fun k => decide (h.ctx = BitVec.ofNat 8 c.val ∧ s.ctx c.val = some k ∧
      portsTrained s ≠ [] ∧ k.changed = true ∧ isPrimary s = true ∧ s.pair.mode = 2 ∧ k.securing ≠ .notSecured)) (s.ctx c.val)) = true) ∧
    ((let s : State := { (paired .primary 2 ready) with ctxs := [(5, { part := 0, securing := .syncing })] }; let h : FrameHdr := { port := 0, ctx := 5 };
      let c : CtxId := 5; Option.any (fun k => decide (h.ctx = BitVec.ofNat 8 c.val ∧ s.ctx c.val = some k ∧ portsTrained s ≠ [] ∧ isPrimary s = true ∧
      s.pair.silent = false ∧ (s.pair.mode = 2 ∨ s.pair.mode = 3) ∧ k.securing = .syncing ∧ k.changed = false ∧ (∀ p ∈ k.used.keys, dataReads s k p = true ∧
      summaryReads s k p = true))) (s.ctx c.val)) = true) ∧
    ((let s : State := (paired .primary 2 ready); let h : FrameHdr := { port := 0, ctx := 5 }; let c : CtxId := 5;
      Option.any (fun k => decide (h.ctx = BitVec.ofNat 8 c.val ∧ s.ctx c.val = some k ∧ portsTrained s ≠ [] ∧
      (isPrimary s = false ∨ k.securing ≠ .syncing ∨ s.pair.silent = true ∨ (s.pair.mode ≠ 2 ∧ s.pair.mode ≠ 3)))) (s.ctx c.val)) = true) ∧
    ((let s : State := { (paired .primary 2 ready) with ctxs := [(5, { part := 0, restore := [2], waitsFor := true, resumeDue := true, halted := true })] };
      let h : FrameHdr := { port := 0, ctx := 5 }; let c : CtxId := 5; Option.any (fun k => Option.any (fun r => decide (h.ctx = BitVec.ofNat 8 c.val ∧
      s.ctx c.val = some k ∧ portsTrained s ≠ [] ∧ isPrimary s = true ∧ s.pair.mode = 2 ∧ k.waitsFor = true ∧ k.secured.getD 0 ≥ k.point ∧
      k.restore = [r])) ((k.restore).head?)) (s.ctx c.val)) = true) ∧
    ((let s : State := (paired .primary 2 ready); let h : FrameHdr := { port := 0, ctx := 5 }; let c : CtxId := 5;
      Option.any (fun k => decide (h.ctx = BitVec.ofNat 8 c.val ∧ s.ctx c.val = some k ∧ portsTrained s ≠ [] ∧ k.waitsFor = false)) (s.ctx c.val)) = true) := by
  and_intros <;> decide +kernel

theorem test_meets_SilentPartnersAreReplaced_1 :
    ((let s : State := (setTo .cnsMode 3 (paired .primary 2 up)); Option.any (fun b => decide (s.pair.partner = some b ∧ s.pair.formed = true ∧
      s.pair.silent = false ∧ s.pair.mode = 2 ∧ agreedMode s b = 3 ∧ s.pair.role = .primary ∧ (∀ e ∈ s.ctxs, e.2.securing = .secured) ∧
      noStepRuns s = true ∧ allSecured s = true)) (s.pair.partner)) = true) ∧
    ((let s : State := (setTo .cnsMode 3 (paired .primary 2 { (stepping { step0 with op := 1 }) with ctxs := [(5, { part := 0, securing := .secured, programs := [(1, ⟨96 * 2 ^ 29, 2⟩)] })] }));
      Option.any (fun b => decide (s.pair.partner = some b ∧ s.pair.formed = true ∧ s.pair.silent = false ∧ s.pair.mode = 2 ∧ agreedMode s b = 3 ∧
      s.pair.role = .primary ∧ (∀ e ∈ s.ctxs, e.2.securing = .secured) ∧ noStepRuns s = false)) (s.pair.partner)) = true) ∧
    ((let s : State := (setTo .cnsMode 3 (paired .secondary 2 up)); Option.any (fun b => decide (s.pair.partner = some b ∧ s.pair.formed = true ∧
      s.pair.silent = false ∧ s.pair.mode = 2 ∧ agreedMode s b = 3 ∧ s.pair.role = .secondary)) (s.pair.partner)) = true) ∧
    ((let s : State := up; decide (s.pair.formed = false)) = true) ∧
    ((let s : State := { (setTo .cnsPartnerAddr 99 (paired .primary 2 up)) with pair := { ((setTo .cnsPartnerAddr 99 (paired .primary 2 up))).pair with silent := true, silentAt := 79990000000 } };
      decide (s.pair.formed = true ∧ s.pair.silent = true ∧ s.pair.departed = false ∧ s.setting .cnsPartnerAddr ≠ 0 ∧ s.mgmt.active ≠ none ∧
      s.pair.answered = false ∧ (s.pair.probedAt = none → msTicks 1 ≤ s.since s.pair.silentAt) ∧
      (s.pair.probedAt).all (fun t => decide (msTicks 20 ≤ s.since t)) = true ∧ s.since s.pair.silentAt ≤ msTicks 101)) = true) ∧
    ((let s : State := up;
      decide ((s.pair.formed = false ∨ s.pair.silent = false ∨ s.pair.departed = true ∨ s.pair.answered = true ∨ msTicks 101 < s.since s.pair.silentAt ∨ (s.pair.probedAt = none ∧
      s.since s.pair.silentAt < msTicks 1) ∨ (s.pair.probedAt).any (fun t => decide (s.since t < msTicks 20)) = true))) = true) ∧
    ((let s : State := (setTo .cnsMode 3 (paired .primary 2 up));
      let q : ProbeBody := { nonce := 4, pairId := 0, serial := 9, epoch := 2, role := 0, running := true, held := false };
      decide (q.pairId.toNat = s.setting .cnsPairId ∧ managementUp s = true)) = true) ∧
    ((let s : State := up; let q : ProbeBody := { nonce := 4, pairId := 3, serial := 9, epoch := 2, role := 0, running := true, held := false };
      decide (q.pairId.toNat ≠ s.setting .cnsPairId)) = true) ∧
    ((let s : State := { (setTo .cnsPartnerAddr 99 (paired .secondary 2 up)) with pair := { ((setTo .cnsPartnerAddr 99 (paired .secondary 2 up))).pair with silent := true, probing := true, nonce := 4 } };
      let q : ProbeBody := { nonce := 4, pairId := 0, serial := 9, epoch := 2, role := 0, running := true, held := false };
      decide (answerCounts q s = true ∧ isSecondary s = true ∧ q.running = true)) = true) ∧
    ((let s : State := { (setTo .cnsPartnerAddr 99 (paired .secondary 2 up)) with pair := { ((setTo .cnsPartnerAddr 99 (paired .secondary 2 up))).pair with silent := true, probing := true, nonce := 4 } };
      let q : ProbeBody := { nonce := 4, pairId := 0, serial := 9, epoch := 2, role := 0, running := false, held := false };
      decide (answerCounts q s = true ∧ isSecondary s = true ∧ q.running = false ∧ s.setting .cnsTakeover = 1 ∧ managementUp s = true)) = true) ∧
    ((let s : State := up; let q : ProbeBody := { nonce := 4, pairId := 0, serial := 9, epoch := 2, role := 0, running := true, held := false };
      decide (answerCounts q s = false)) = true) ∧
    ((let s : State := { (setTo .cnsPartnerAddr 99 (paired .secondary 2 up)) with pair := { ((setTo .cnsPartnerAddr 99 (paired .secondary 2 up))).pair with silent := true, probing := true, nonce := 4 } };
      decide (isSecondary s = true ∧ s.pair.silent = true ∧ s.pair.answered = false ∧ msTicks 101 ≤ s.since s.pair.silentAt ∧ s.setting .cnsTakeover = 1 ∧
      managementUp s = true)) = true) ∧
    ((let s : State := up; decide ((s.since s.pair.silentAt < msTicks 101 ∨ s.pair.answered = true ∨ s.pair.silent = false))) = true) ∧
    ((let s : State := { (setTo .cnsPartnerAddr 99 (paired .primary 2 up)) with pair := { ((setTo .cnsPartnerAddr 99 (paired .primary 2 up))).pair with silent := true, probing := true, nonce := 4 } };
      decide (isPrimary s = true ∧ s.pair.silent = true ∧ s.pair.answered = false ∧ msTicks 101 ≤ s.since s.pair.silentAt)) = true) := by
  and_intros <;> decide +kernel

theorem test_meets_SilentPartnersAreReplaced_2 :
    ((let s : State := { (setTo .cnsPartnerAddr 99 (paired .primary 2 { ready with ctxs := [(5, { part := 0, securing := .secured }), (6, { part := 0 })] })) with pair := { ((setTo .cnsPartnerAddr 99 (paired .primary 2 { ready with ctxs := [(5, { part := 0, securing := .secured }), (6, { part := 0 })] }))).pair with silent := true, held := true } };
      decide (isPrimary s = true ∧ s.pair.silent = true ∧ s.pair.held = true ∧ msTicks (s.setting .cnsHoldMax) ≤ s.since s.pair.heldAt ∧ s.ctxs.wf)) = true) ∧
    ((let s : State := up; decide ((s.pair.held = false ∨ s.since s.pair.heldAt < msTicks (s.setting .cnsHoldMax)))) = true) ∧
    ((let s : State := { (setTo .cnsTakeover 0 (paired .secondary 2 ready)) with mgmt := { up.mgmt with console := { level := .admin } } };
      decide (s.mgmt.active ≠ none ∧ Level.admin.rank ≤ s.mgmt.console.level.rank ∧ isSecondary s = true ∧ s.setting .cnsTakeover = 0)) = true) ∧
    ((let s : State := { up with mgmt := { up.mgmt with console := { level := .admin } } }; decide (s.mgmt.active ≠ none ∧
      Level.admin.rank ≤ s.mgmt.console.level.rank ∧ (isSecondary s = false ∨ s.setting .cnsTakeover = 1))) = true) ∧
    ((let s : State := { { up with pair := { (up).pair with fenced := true } } with mgmt := { up.mgmt with console := { level := .admin } } };
      decide (s.mgmt.active ≠ none ∧ Level.admin.rank ≤ s.mgmt.console.level.rank ∧ s.pair.fenced = true)) = true) := by
  and_intros <;> decide +kernel

theorem test_meets_ServiceDiesTakeOver :
    ((let s : State := up; decide (s.mgmt.active = some 0 ∧ s.mgmt.sv1.works = true)) = true) ∧
    ((let s : State := { up with mgmt := { up.mgmt with sv1 := ⟨false, 1⟩ } }; decide (s.mgmt.active = some 0 ∧ s.mgmt.sv1.works = false)) = true) ∧
    ((let s : State := { up with mgmt := { up.mgmt with active := none, sv0 := ⟨false, 1⟩ } }; decide (s.mgmt.active = none ∧ s.life.firmware ≠ .none ∧
      s.mgmt.sv0.works = false ∧ s.mgmt.sv1.works = true)) = true) ∧
    ((let s : State := { up with reck := { up.reck with now := 300000000000 }, mgmt := { up.mgmt with active := none, sv0 := ⟨false, 1⟩, sv1 := ⟨false, 1⟩, graceNo := some 4 } };
      Option.any (fun t => decide (s.mgmt.sv0.works = false ∧ s.mgmt.sv1.works = false ∧ s.mgmt.graceNo = some t ∧
      60 * ticksPerSecond ≤ s.since t)) (s.mgmt.graceNo)) = true) ∧
    ((let s : State := up; decide ((noServiceDie s = false ∨ (s.mgmt.graceNo).all (fun t => decide (s.since t < 60 * ticksPerSecond)) = true))) = true) := by
  and_intros <;> decide +kernel

theorem test_meets_RedfishRequestsActByRole_1 :
    ((let s : State := up; decide (redfishServed s = false)) = true) ∧
    ((let s : State := up; decide (redfishServed s = false)) = true) ∧
    ((let s : State := (session .readOnly up); let who : Auth := (.session 1); let x : Nat × Role := ((requester s who).getD (0, .readOnly));
      decide (Safety.Authorised s who x .readOnly)) = true) ∧
    ((let s : State := (cabled up); let who : Auth := (.session 1); decide (redfishServed s = true ∧ requester s who = none)) = true) ∧
    ((let s : State := (cabled up); decide (redfishServed s = true)) = true) ∧
    ((let s : State := (session .administrator up); let who : Auth := (.session 1); let x : Nat × Role := ((requester s who).getD (0, .readOnly));
      let k := .trainMode; let v := 0; decide (Safety.Authorised s who x .administrator ∧ settingFits s.maxCap k v = true ∧ k ≠ .cnsMode)) = true) ∧
    ((let s : State := (session .administrator up); let who : Auth := (.session 1); let x : Nat × Role := ((requester s who).getD (0, .readOnly));
      let k := .trainMode; let v := 0; let e := 1; decide (Safety.Authorised s who x .administrator ∧
      (e ≠ s.settings.rev ∨ settingFits s.maxCap k v = false))) = true) ∧
    ((let s : State := (session .readOnly up); let who : Auth := (.session 1); let x : Nat × Role := ((requester s who).getD (0, .readOnly));
      decide (Safety.Authorised s who x .readOnly ∧ roleRank x.2 < 2)) = true) ∧
    ((let s : State := (session .operator up); let who : Auth := (.session 1); let x : Nat × Role := ((requester s who).getD (0, .readOnly));
      decide (Safety.Authorised s who x .operator)) = true) ∧
    ((let s : State := (session .operator up); let who : Auth := (.session 1); let x : Nat × Role := ((requester s who).getD (0, .readOnly));
      let w := 9000; decide (Safety.Authorised s who x .operator ∧ capFits s w = true)) = true) ∧
    ((let s : State := (session .operator up); let who : Auth := (.session 1); let x : Nat × Role := ((requester s who).getD (0, .readOnly)); let w := 100;
      decide (Safety.Authorised s who x .operator ∧ capFits s w = false)) = true) ∧
    ((let s : State := (session .operator up); let who : Auth := (.session 1); let x : Nat × Role := ((requester s who).getD (0, .readOnly));
      decide (Safety.Authorised s who x .operator ∧ s.life.phase = .running ∧ s.life.power ≠ .off ∧ s.life.entering = none ∧ s.update.phase = .idle)) = true) ∧
    ((let s : State := (updating .hold false true (session .operator up)); let who : Auth := (.session 1);
      let x : Nat × Role := ((requester s who).getD (0, .readOnly)); decide (Safety.Authorised s who x .operator ∧ s.pair.formed = false ∧
      s.update.phase ≠ .idle)) = true) ∧
    ((let s : State := (session .operator ready); let who : Auth := (.session 1); let x : Nat × Role := ((requester s who).getD (0, .readOnly));
      decide (Safety.Authorised s who x .operator ∧ s.ctxs ≠ [] ∧ s.pair.formed = false)) = true) := by
  and_intros <;> decide +kernel

theorem test_meets_RedfishRequestsActByRole_2 :
    ((let s : State := (session .administrator up); let who : Auth := (.session 1); let x : Nat × Role := ((requester s who).getD (0, .readOnly));
      decide (Safety.Authorised s who x .administrator ∧ s.mgmt.active = some 0 ∧ s.mgmt.sv1.works = true)) = true) ∧
    ((let s : State := (cabled up); let n : Nat := 0; let a := (s.account n).getD ⟨0, 0, .readOnly, false⟩; decide (s.account n = some a ∧
      redfishServed s = true ∧ s.mgmt.sessions.length < 32)) = true) ∧
    ((let s : State := (cabled up); let n : Nat := 0; let a := (s.account n).getD ⟨0, 0, .readOnly, false⟩; let w := 8; decide (s.account n = some a ∧
      redfishServed s = true ∧ w ≠ a.password)) = true) ∧
    ((let s : State := { session .operator up with mgmt := { (session .operator up).mgmt with sessions := [(1, ⟨0, .operator, 5, 0⟩)] } };
      let n : Nat := 1; Option.any (fun y => decide (s.mgmt.sessions.find n = some y ∧
      y.timeout * ticksPerSecond ≤ s.since y.last)) (s.mgmt.sessions.find n)) = true) ∧
    ((let s : State := up; let n : Nat := 0;
      decide ((s.mgmt.sessions.find n).all (fun y => decide (s.since y.last < y.timeout * ticksPerSecond)) = true)) = true) ∧
    ((let s : State := (session .administrator up); let who : Auth := (.session 1); let x : Nat × Role := ((requester s who).getD (0, .readOnly));
      let m := 4; decide (Safety.Authorised s who x .administrator ∧ s.account m = none ∧ s.mgmt.accounts.length < 16)) = true) ∧
    ((let s : State := { session .administrator up with mgmt := { (session .administrator up).mgmt with accounts := [⟨0, 8, .administrator, true⟩] } };
      let who : Auth := (.session 1); let x : Nat × Role := ((requester s who).getD (0, .readOnly)); let a := (s.account x.1).getD ⟨0, 0, .readOnly, false⟩;
      decide (s.account x.1 = some a ∧ a.mustChange = true ∧ redfishServed s = true ∧ requester s who = some x)) = true) := by
  and_intros <;> decide +kernel

theorem test_meets_RecordsAreSentKeptAndRead_1 :
    ((let s : State := (setTo .svcCollectorAddr 7 (cabled up)); decide (s.mgmt.active ≠ none ∧ s.setting .svcCollectorAddr ≠ 0 ∧
      s.setting .svcStreamLevel = 2 ∧ collectorDown s = false)) = true) ∧
    ((let s : State := (setTo .svcCollectorAddr 7 (cabled up)); decide (s.mgmt.active ≠ none ∧ s.setting .svcCollectorAddr ≠ 0 ∧
      s.setting .svcStreamLevel = 2 ∧ collectorDown s = false)) = true) ∧
    ((let s : State := (setTo .svcCollectorAddr 7 (cabled up)); decide (s.mgmt.active ≠ none ∧ s.setting .svcCollectorAddr ≠ 0 ∧
      s.setting .svcStreamLevel = 2 ∧ collectorDown s = false)) = true) ∧
    ((let s : State := (setTo .svcCollectorAddr 7 (cabled { ready with ctxs := [(5, { part := 0, energySteps := 2 })] })); let c : CtxId := 5;
      Option.any (fun k => decide (s.mgmt.active ≠ none ∧ s.setting .svcCollectorAddr ≠ 0 ∧ s.setting .svcStreamLevel = 2 ∧ collectorDown s = false ∧
      s.ctx c.val = some k ∧ k.energySteps ≠ 0)) (s.ctx c.val)) = true) ∧
    ((let s : State := { (setTo .svcCollectorAddr 7 ready) with ctxs := [(5, { part := 0, energySteps := 2 })] }; let c : CtxId := 5;
      Option.any (fun k => decide (s.mgmt.active ≠ none ∧ s.setting .svcCollectorAddr ≠ 0 ∧ s.setting .svcStreamLevel = 2 ∧ collectorDown s = true ∧
      s.mgmt.kept.length < 4096 ∧ s.ctx c.val = some k ∧ k.energySteps ≠ 0)) (s.ctx c.val)) = true) ∧
    ((let s : State := up; decide (s.mgmt.active ≠ none ∧ s.setting .svcCollectorAddr = 0)) = true) ∧
    ((let s : State := up; let c : CtxId := 5; decide (s.mgmt.active ≠ none ∧ s.ctx c.val = none)) = true) ∧
    ((let s : State := (setTo .svcCollectorAddr 7 (cabled up)); decide (s.mgmt.active ≠ none ∧ s.bin.ethernet = true ∧
      s.setting .svcCollectorAddr ≠ 0)) = true) ∧
    ((let s : State := up; let d : DieId := 0; decide (s.mgmt.active ≠ none ∧ (s.log.daily.getD d.val []).length < 3653)) = true) ∧
    ((let s : State := { up with mgmt := { up.mgmt with netDue := true } }; decide (s.mgmt.active ≠ none ∧ s.mgmt.netDue = true)) = true) ∧
    ((let s : State := up; decide (s.mgmt.active ≠ none ∧ s.mgmt.netDue = false)) = true) ∧
    ((let s : State := up; let i := 0; let v := ((pldmSensor s i).getD 0); decide (s.mgmt.active ≠ none ∧ pldmSensor s i = some v)) = true) ∧
    ((let s : State := up; let i := 14; decide (s.mgmt.active ≠ none ∧ 14 ≤ i)) = true) ∧
    ((let s : State := up; let v : Byte := 6; decide (s.mgmt.active ≠ none ∧ 5 < v.toNat)) = true) := by
  and_intros <;> decide +kernel

theorem test_meets_RecordsAreSentKeptAndRead_2 :
    ((let s : State := (updating .hold false true up); decide (s.mgmt.active ≠ none ∧ s.update.phase ≠ .idle ∧ s.pair.formed = false)) = true) ∧
    ((let s : State := up; decide (s.mgmt.active ≠ none ∧ s.life.phase = .running ∧ s.life.power ≠ .off ∧ s.life.entering = none ∧
      s.update.phase = .idle)) = true) ∧
    ((let s : State := up; let v : Byte := 0; decide (s.mgmt.active ≠ none ∧ v ≠ 1)) = true) := by
  and_intros <;> decide +kernel

theorem test_meets_ConsoleReadsAnswerByLevel :
    ((let s : State := up; decide (consoleServed s = true)) = true) ∧
    ((let s : State := (atLevel .view up); decide (consoleServed s = true ∧ Level.view.rank ≤ (consoleLevel s).rank)) = true) ∧
    ((let s : State := (atLevel .view up); let x := 0; let y := 100; decide (consoleServed s = true ∧ Level.view.rank ≤ (consoleLevel s).rank ∧
      dieAt x y = none)) = true) ∧
    ((let s : State := (atLevel .view ready); let c := 5; let k := ((s.ctx c).getD { part := 0 }); let v := 0;
      Option.any (fun m => decide (consoleServed s = true ∧ Level.view.rank ≤ (consoleLevel s).rank ∧ s.ctx c = some k ∧
      k.vmarks.find v = some m)) (k.vmarks.find v)) = true) ∧
    ((let s : State := (atLevel .view up); decide (consoleServed s = true ∧ Level.view.rank ≤ (consoleLevel s).rank)) = true) := by
  and_intros <;> decide +kernel

theorem test_meets_ConsoleReadsAnswerByLevel_by_hand :
    consoleServed State.reset = false ∧ ∃ c f, Safety.ConsoleRead c f :=
  ⟨by decide, _, _, List.Mem.head _⟩

theorem test_meets_ConsoleReadsAnswerByLevel_by_hand_2 :
    let s : State := atLevel .view up
    consoleServed s = true ∧ (∃ c f, Safety.ConsoleRead c f) ∧ Level.view.rank ≤ (consoleLevel s).rank :=
  ⟨by decide, ⟨_, _, List.Mem.head _⟩, by decide⟩

theorem test_meets_ConsoleReadsAnswerByLevel_by_hand_3 :
    consoleServed up = true ∧ (consoleLevel up).rank = 0 ∧ ∃ c f, Safety.ConsoleRead c f :=
  ⟨by decide, by decide, _, _, List.Mem.head _⟩

theorem test_meets_ConsoleOrdersActByLevel_1 :
    ((let s : State := up; let a := ⟨0, 0, .administrator, true⟩; decide (s.mgmt.active ≠ none ∧ s.account a.name = some a ∧
      s.mgmt.console.locked = false)) = true) ∧
    ((let s : State := up; let n := 0; let w := 7; decide (s.mgmt.active ≠ none ∧ (s.account n).all (fun a => decide (a.password ≠ w)) = true ∧
      s.mgmt.console.locked = false)) = true) ∧
    ((let s : State := { up with mgmt := { (up).mgmt with console := { (up).mgmt.console with locked := true } } }; decide (s.mgmt.active ≠ none ∧
      s.mgmt.console.locked = true)) = true) ∧
    ((let s : State := { up with reck := { up.reck with now := 300000000000 }, mgmt := { up.mgmt with console := { up.mgmt.console with unlocked := some (60, 5, true) } } };
      decide (s.mgmt.active ≠ none ∧ 30 * ticksPerSecond ≤ s.since s.mgmt.console.lockedAt)) = true) ∧
    ((let s : State := up; decide (s.mgmt.active ≠ none ∧ s.since s.mgmt.console.lockedAt < 30 * ticksPerSecond)) = true) ∧
    ((let s : State := up; decide (s.mgmt.active ≠ none ∧ s.since s.mgmt.console.last < s.mgmt.console.idle * ticksPerSecond)) = true) ∧
    ((let s : State := { (atLevel .admin up) with mgmt := { ((atLevel .admin up)).mgmt with console := { ((atLevel .admin up)).mgmt.console with idle := 5 } } };
      decide (s.mgmt.active ≠ none ∧ s.mgmt.console.idle * ticksPerSecond ≤ s.since s.mgmt.console.last)) = true) ∧
    ((let s : State := (atLevel .view up); decide (s.mgmt.active ≠ none ∧ Level.view.rank ≤ (consoleLevel s).rank)) = true) ∧
    ((let s : State := (atLevel .operate up); decide (s.mgmt.active ≠ none ∧ Level.operate.rank ≤ (consoleLevel s).rank)) = true) ∧
    ((let s : State := (atLevel .operate up); let w := 9000; decide (s.mgmt.active ≠ none ∧ Level.operate.rank ≤ (consoleLevel s).rank ∧
      capFits s w = true)) = true) ∧
    ((let s : State := (atLevel .operate up); let w := 0; decide (s.mgmt.active ≠ none ∧ Level.operate.rank ≤ (consoleLevel s).rank ∧
      capFits s w = false)) = true) ∧
    ((let s : State := { (updating .hold false true (atLevel .admin up)) with mgmt := { ((updating .hold false true (atLevel .admin up))).mgmt with console := { ((updating .hold false true (atLevel .admin up))).mgmt.console with level := .admin } } };
      decide (s.mgmt.active ≠ none ∧ Level.operate.rank ≤ (consoleLevel s).rank ∧ s.pair.formed = false ∧ s.update.phase ≠ .idle)) = true) ∧
    ((let s : State := (atLevel .operate ready); decide (s.mgmt.active ≠ none ∧ Level.operate.rank ≤ (consoleLevel s).rank ∧ s.ctxs ≠ [] ∧
      s.pair.formed = false)) = true) ∧
    ((let s : State := (atLevel .operate up); decide (s.mgmt.active ≠ none ∧ Level.operate.rank ≤ (consoleLevel s).rank ∧ s.life.phase = .running ∧
      s.life.power ≠ .off ∧ s.life.entering = none ∧ s.update.phase = .idle)) = true) := by
  and_intros <;> decide +kernel

theorem test_meets_ConsoleOrdersActByLevel_2 :
    ((let s : State := up; decide (s.mgmt.active ≠ none ∧ (consoleLevel s).rank < Level.operate.rank)) = true) ∧
    ((let s : State := (atLevel .admin up); let k := .trainMode; let v := 0; decide (s.mgmt.active ≠ none ∧ Level.admin.rank ≤ (consoleLevel s).rank ∧
      settingFits s.maxCap k v = true ∧ k ≠ .cnsMode)) = true) ∧
    ((let s : State := (atLevel .admin up); let k := .trainMode; let v := 0; let r := 1; decide (s.mgmt.active ≠ none ∧
      Level.admin.rank ≤ (consoleLevel s).rank ∧ settingFits s.maxCap k v = true ∧ r ≠ s.settings.rev)) = true) ∧
    ((let s : State := (atLevel .admin up); let k := .trainMode; let v := 100; decide (s.mgmt.active ≠ none ∧ Level.admin.rank ≤ (consoleLevel s).rank ∧
      settingFits s.maxCap k v = false)) = true) ∧
    ((let s : State := (atLevel .admin up); decide (s.mgmt.active ≠ none ∧ Level.admin.rank ≤ (consoleLevel s).rank ∧ s.mgmt.active = some 0 ∧
      s.mgmt.sv1.works = true)) = true) ∧
    ((let s : State := (atLevel .admin { up with mgmt := { up.mgmt with sv1 := ⟨false, 1⟩ } }); decide (s.mgmt.active ≠ none ∧
      Level.admin.rank ≤ (consoleLevel s).rank ∧ failoverTo s = none)) = true) ∧
    (unlocking.mgmt.active ≠ none ∧ Level.admin.rank ≤ (consoleLevel unlocking).rank ∧ unlockFits unlocking { unlock3 with format := 2 } = false) ∧
    ((let s : State := { up with reck := { up.reck with now := 300000000000 }, mgmt := { up.mgmt with console := { up.mgmt.console with unlocked := some (60, 5, true) } } };
      let l := 60; let t := 5; let b := true; decide (s.mgmt.active ≠ none ∧ s.mgmt.console.unlocked = some (l, t, b) ∧
      l.toNat * ticksPerSecond ≤ s.since t)) = true) ∧
    ((let s : State := { { ready with ctxs := [(5, { part := 0, debug := true })] } with mgmt := { ({ ready with ctxs := [(5, { part := 0, debug := true })] }).mgmt with console := { ({ ready with ctxs := [(5, { part := 0, debug := true })] }).mgmt.console with level := .admin, unlocked := some (60, 5, true) } } };
      let l := 60; let t := 5; let b := true; decide (s.mgmt.active ≠ none ∧ s.mgmt.console.unlocked = some (l, t, b) ∧
      s.since t < l.toNat * ticksPerSecond)) = true) ∧
    ((let s : State := up; decide (s.mgmt.active ≠ none ∧ s.mgmt.console.unlocked = none)) = true) ∧
    ((let s : State := { { ready with ctxs := [(5, { part := 0, debug := true })] } with mgmt := { ({ ready with ctxs := [(5, { part := 0, debug := true })] }).mgmt with console := { ({ ready with ctxs := [(5, { part := 0, debug := true })] }).mgmt.console with level := .admin, unlocked := some (60, 5, true) } } };
      let c : CtxId := 5; let k := ((s.ctx c.val).getD { part := 0 }); let a := 0; let n := 5; let l := 60; let t := 5; decide (s.mgmt.active ≠ none ∧
      s.ctx c.val = some k ∧ s.mgmt.console.unlocked = some (l, t, true) ∧ s.mgmt.console.level = .admin ∧ k.debug = true ∧ 1 ≤ n ∧ n ≤ 4096 ∧
      a + n ≤ 100 * segmentBytes ∧ openTo s c a n = true)) = true) ∧
    ((let s : State := up; decide (s.mgmt.active ≠ none ∧ s.mgmt.console.unlocked = none ∧ s.mgmt.console.level ≠ .vendor)) = true) := by
  and_intros <;> decide +kernel

theorem test_meets_ConsoleOrdersActByLevel_by_hand :
    bothVerify (unlockBytes unlock3) (block 4) = true → Config.romEcdsaDigest 0 = Config.sha384 (List.replicate 97 0) →
      Config.romLmsDigest 0 = Config.sha384 (List.replicate 56 0) → 
      unlocking.mgmt.active ≠ none ∧
      Level.admin.rank ≤ (consoleLevel unlocking).rank ∧ unlockFits unlocking unlock3 = true :=
  signed_unlock

theorem test_meets_PackagesAreCheckedAndStored :
    ((let s : State := { up with mgmt := { up.mgmt with active := none } }; decide (s.mgmt.active = none)) = true) ∧
    (up.mgmt.active ≠ none ∧ packageBad up { recordPkg with kind := 3 } = some refFormat) ∧
    (let s : State := session .administrator up;
      Safety.Authorised s (.session 1) (0, .administrator) .administrator ∧
      packageBad s { recordPkg with kind := 3 } = some refFormat) ∧
    ((let s : State := (session .readOnly up); let who := (.session 1); let x := ((requester s who).getD (0, .readOnly));
      decide (Safety.Authorised s who x .readOnly ∧ roleRank x.2 < 2)) = true) ∧
    ((let s : State := (updating .idle true false up); decide (s.update.relaying = true)) = true) := by
  and_intros <;> decide +kernel

theorem test_meets_PackagesAreCheckedAndStored_by_hand :
    bothVerify (configBytes record2) (block 2) = true → Config.romEcdsaDigest 0 = Config.sha384 (List.replicate 97 0) →
      Config.romLmsDigest 0 = Config.sha384 (List.replicate 56 0) → 
      up.mgmt.active ≠ none ∧
      packageBad up recordPkg = none ∧ recordPkg.object = .record record2 ∧ up.flash0.works = true ∧ up.flash1.works = true :=
  signed_record

theorem test_meets_PackagesAreCheckedAndStored_by_hand_2 :
    bothVerify (revisionBytes revision2) (block 3) = true → Config.romEcdsaDigest 0 = Config.sha384 (List.replicate 97 0) →
      Config.romLmsDigest 0 = Config.sha384 (List.replicate 56 0) → 
      charted.mgmt.active ≠ none ∧
      packageBad charted revisionPkg = none ∧ revisionPkg.object = .revision revision2 ∧ charted.flash0.works = true :=
  signed_revision

theorem test_meets_PackagesAreCheckedAndStored_by_hand_3 :
    bothVerify (manifestBytes (manifest3 (Config.sha384 image))) (block 1) = true → Config.romEcdsaDigest 0 = Config.sha384 (List.replicate 97 0) →
      Config.romLmsDigest 0 = Config.sha384 (List.replicate 56 0) → 
      up.mgmt.active ≠ none ∧
      packageBad up (manifestPkg (Config.sha384 image)) = none ∧
        (manifestPkg (Config.sha384 image)).object = .manifest (manifest3 (Config.sha384 image)) ∧
      (manifest3 (Config.sha384 image)).recovery = false ∧
        up.flash0.works = true ∧ idleBank up = 1 :=
  signed_manifest

theorem test_meets_TheRelayGoesDieByDie :
    ((let s : State := (updating .idle true false (lit 12 up)); let c : RelayChain := .compute; let d : Nat := 0; let n : W32 := 2;
      decide (s.update.relaying = true ∧ d ∈ chainDies s c ∧ (s.relayDie d).complete = false ∧ (s.relayDie d).ahead = [] ∧
      (s.relayDie d).next + 1 < n.toNat ∧ (chainDies s c).getLast? ≠ some d)) = true) ∧
    ((let s : State := (updating .idle true false (lit 12 up)); let c : RelayChain := .compute; let d : Nat := 0; let b : W32 := 1; let n : W32 := 2;
      decide (s.update.relaying = true ∧ d ∈ chainDies s c ∧ (s.relayDie d).complete = false ∧ (s.relayDie d).next < b.toNat ∧ b.toNat < n.toNat ∧
      b.toNat ∉ (s.relayDie d).ahead ∧ (s.relayDie d).next ∉ (s.relayDie d).ahead)) = true) ∧
    ((let s : State := (updating .idle true false (lit 12 up)); let c : RelayChain := .compute; let d : Nat := 0; decide (s.update.relaying = true ∧
      d ∈ chainDies s c)) = true) ∧
    ((let s : State := (updating .idle true false (lit 12 up)); let c : RelayChain := .compute; let d : Nat := 0; let b : W32 := 1; let n : W32 := 1;
      decide (s.update.relaying = true ∧ d ∈ chainDies s c ∧
      (n.toNat ≤ b.toNat ∨ b.toNat < (s.relayDie d).next ∨ b.toNat ∈ (s.relayDie d).ahead ∨ (s.relayDie d).complete = true))) = true) ∧
    ((let s : State := (updating .idle true false (lit 12 up)); let c : RelayChain := .compute; let d : Nat := 0; let b : W32 := 0;
      decide (s.update.relaying = true ∧ d ∈ chainDies s c ∧ (s.relayDie d).complete = false ∧
      ((s.relayDie d).askedAt).all (fun t => decide (80000 ≤ s.since t)) = true ∧ (s.relayDie d).next ≤ b.toNat ∧ b.toNat ∉ (s.relayDie d).ahead ∧
      (s.relayDie d).asks.getD b.toNat 0 < 8)) = true) ∧
    ((let s : State := { updating .idle true false (lit 12 up) with update := { (updating .idle true false (lit 12 up)).update with dies := [(0, { asks := [(0, 8), (1, 3)] })] } };
      let c : RelayChain := .compute; let d : Nat := 0; let b : W32 := 0; decide (s.update.relaying = true ∧ d ∈ chainDies s c ∧
      (s.relayDie d).complete = false ∧ ((s.relayDie d).askedAt).all (fun t => decide (80000 ≤ s.since t)) = true ∧ (s.relayDie d).next ≤ b.toNat ∧
      b.toNat ∉ (s.relayDie d).ahead ∧ 8 ≤ (s.relayDie d).asks.getD b.toNat 0)) = true) ∧
    ((let s : State := { updating .idle true false (lit 12 up) with update := { (updating .idle true false (lit 12 up)).update with dies := [(0, { askedAt := some 79999999999, asks := [(0, 1)], ahead := [2] })] } };
      let c : RelayChain := .compute; let d : Nat := 0; let t := 79999999999; decide (s.update.relaying = true ∧ d ∈ chainDies s c ∧
      (s.relayDie d).askedAt = some t ∧ s.since t < 80000)) = true) ∧
    ((let s : State := (updating .idle true false (lit 12 up)); let c : RelayChain := .compute; let d : Nat := 0; let h := 0;
      decide (s.update.relaying = true ∧ d ∈ chainDies s c ∧ ((s.relayDie d).complete = true ∨ c = .compute) ∧ chainHash s c ≠ some h)) = true) ∧
    ((let s : State := (updating .idle true false (lit 12 up)); let c : RelayChain := .compute; let d : Nat := 0; let h := 5; let e := 1;
      decide (s.update.relaying = true ∧ d ∈ chainDies s c ∧ ((s.relayDie d).complete = true ∨ c = .compute) ∧ chainHash s c = some h ∧ e ∈ chainDies s c ∧
      e ≠ d ∧ (s.relayDie e).digest = none)) = true) ∧
    ((let s : State := (updating .idle true false (lit 12 up)); let c : RelayChain := .compute; let d : Nat := 0; decide (s.update.relaying = true ∧
      d ∈ chainDies s c ∧ (s.relayDie d).digest = none)) = true) ∧
    ((let s : State := { updating .idle true false (lit 12 up) with update := { (updating .idle true false (lit 12 up)).update with dies := [(118, { complete := true, digest := some 5 })] } };
      let c : RelayChain := .host; let d : Nat := 118; let h := 5; decide (s.update.relaying = true ∧ d ∈ chainDies s c ∧
      (s.relayDie d).digest = some h)) = true) := by
  and_intros <;> decide +kernel

theorem test_meets_ActivationGoesStageByStage :
    ((let s : State := (updating .idle false true up); let m : Manifest := manifest2; decide (s.mgmt.active ≠ none ∧ s.update.staged = some m ∧
      s.update.relaying = false ∧ s.update.phase = .idle ∧ s.pair.formed = false ∧ s.life.firmware ≠ .recovery ∧ s.update.relayed = true)) = true) ∧
    ((let s : State := (updating .idle true false up); let m : Manifest := manifest2; decide (s.mgmt.active ≠ none ∧ s.update.staged = some m ∧
      (s.update.relaying = true ∨ s.update.phase ≠ .idle))) = true) ∧
    ((let s : State := (updating .idle false true (paired .primary 3 up)); let m : Manifest := manifest2; decide (s.mgmt.active ≠ none ∧
      s.update.staged = some m ∧ s.update.relaying = false ∧ s.update.phase = .idle ∧ s.pair.formed = true ∧ s.pair.mode = 3)) = true) ∧
    ((let s : State := (updating .standbyRestart false true up); let m : Manifest := manifest2; decide (s.mgmt.active ≠ none ∧ s.update.staged = some m ∧
      s.update.phase = .standbyRestart)) = true) ∧
    ((let s : State := (updating .idle false true up); let m : Manifest := manifest2; let v := 1; decide (s.mgmt.active ≠ none ∧ s.update.staged = some m ∧
      v ≠ m.version)) = true) ∧
    ((let s : State := (updating .hold false true up); let m : Manifest := manifest2; decide (s.mgmt.active ≠ none ∧ s.update.staged = some m ∧
      s.update.phase = .hold ∧ noStepRuns s = true)) = true) ∧
    ((let s : State := (updating .hold false true (stepping { step0 with op := 1 })); let m : Manifest := manifest2; decide (s.mgmt.active ≠ none ∧
      s.update.staged = some m ∧ s.update.phase = .hold ∧ noStepRuns s = false)) = true) ∧
    ((let s : State := (updating .idle false true up); let m : Manifest := manifest2; let t : W64 := 5; decide (s.mgmt.active ≠ none ∧
      s.update.staged = some m ∧ t.toNat < 2 ^ 63)) = true) ∧
    ((let s : State := (updating (.switching 5) false true up); let m : Manifest := manifest2; let t := 5; decide (s.mgmt.active ≠ none ∧
      s.update.staged = some m ∧ s.update.phase = .switching t ∧ t.toNat ≤ (serviceNow s).toNat)) = true) ∧
    ((let s : State := (updating (.switching 90000000000) false true up); let m : Manifest := manifest2; let t := 90000000000;
      decide (s.mgmt.active ≠ none ∧ s.update.staged = some m ∧ s.update.phase = .switching t ∧ (serviceNow s).toNat < t.toNat)) = true) ∧
    ((let s : State := (updating .idle false true up); let m : Manifest := manifest2; decide (s.mgmt.active ≠ none ∧ s.update.staged = some m ∧
      s.update.phase = .idle)) = true) ∧
    ((let s : State := (updating (.checking 5) false true { up with fns := [], flash1 := { up.flash1 with works := false } });
      let m : Manifest := manifest2; let t := 5; decide (s.mgmt.active ≠ none ∧ s.update.staged = some m ∧ s.update.phase = .checking t ∧
      s.update.waiting = [] ∧ s.life.resetWaits = false ∧ s.fns = [] ∧ s.flash0.works = true ∧ s.flash0.log = [] ∧ s.flash1.works = false)) = true) ∧
    ((let s : State := (updating (.checking 5) false true { up with fns := [], flash1 := { up.flash1 with works := false } });
      let m : Manifest := manifest2; decide (s.mgmt.active ≠ none ∧ s.update.staged = some m ∧ s.update.phase ≠ .idle ∧ s.update.waiting = [] ∧
      s.life.resetWaits = false ∧ s.fns = [])) = true) := by
  and_intros <;> decide +kernel

theorem test_meets_SpdmRequestsAreAnswered :
    ((let s : State := up; Option.any (fun n => decide (s.mgmt.active = some n ∧ s.link.up = true)) (s.mgmt.active)) = true) ∧
    ((let s : State := up; Option.any (fun n => let slot : Byte := 1; decide (s.mgmt.active = some n ∧ s.link.up = true ∧
      slot.toNat ≠ n.val)) (s.mgmt.active)) = true) ∧
    ((let s : State := up; Option.any (fun n => let slot : Byte := 0; let index : Byte := 13; let sign : Bool := true; decide (s.mgmt.active = some n ∧
      s.link.up = true ∧ ((12 < index.toNat ∧ index ≠ 0xFF) ∨ (sign = true ∧ slot.toNat ≠ n.val)))) (s.mgmt.active)) = true) ∧
    ((let s : State := up; Option.any (fun n => decide (s.mgmt.active = some n ∧ s.link.up = true)) (s.mgmt.active)) = true) ∧
    ((let s : State := { up with link := {} }; decide (s.link.up = false)) = true) := by
  and_intros <;> decide +kernel

theorem test_meets_SpdmRequestsAreAnswered_by_hand :
    up.mgmt.active = some 0 ∧ up.link.up = true ∧
      (0 : W16).toNat ≤ (Config.certChain 1).length ∧
      ([] : List Byte) = ((Config.certChain 1).drop (0 : W16).toNat).take (0 : W16).toNat :=
  ⟨rfl, rfl, Nat.zero_le _, rfl⟩

theorem test_meets_SpdmRequestsAreAnswered_by_hand_2 :
    up.mgmt.active = some 0 ∧
      up.link.up = true ∧
      (2 ≤ (2 : Byte).toNat ∨ ∀ x : Fin 2, (2 : Byte).toNat = x.val → (Config.certChain x).length < (0 : W16).toNat) :=
  ⟨rfl, rfl, .inl (by decide)⟩

theorem test_meets_SpdmRequestsAreAnswered_by_hand_3 :
    up.mgmt.active = some 0 ∧ up.link.up = true ∧
      ∃ b r : List Byte, b = hashBytes (Config.sha384 (Config.certChain 0)) ∧
      r = leBytes 32 (Config.nonce up.mgmt.console.nonces).toNat :=
  ⟨rfl, rfl, _, _, rfl, rfl⟩

theorem test_meets_SpdmRequestsAreAnswered_by_hand_4 :
    let s : State := up; let index : Byte := 5; let n : Fin 2 := 0; s.mgmt.active = some n ∧ s.link.up = true ∧ ∃ b r : List Byte,
      ((index = 0 ∧
      b = [0x0C]) ∨ (1 ≤ index.toNat ∧ index.toNat ≤ 12 ∧ b = 0x01 :: measurementBlock s n index.toNat) ∨
        (index = 0xFF ∧
      b = 0x0C :: ((List.range 12).map (· + 1)).flatMap (measurementBlock s n))) ∧
      r = leBytes 32 (Config.nonce s.mgmt.console.nonces).toNat :=
  ⟨rfl, rfl, _, _, .inr (.inl ⟨by decide, by decide, rfl⟩), rfl⟩

end Sys2Proof.Tests
end

section
/-! PROOFS. E8M0 block scales (R69): the value of a scale byte, and what a NaN scale makes of an element. -/

namespace Sys2Proof.Num

/-- R81: a product with NaN on the left is NaN, whatever the other factor is. -/
@[simp] theorem nan_mul (x : Num) : Num.nan.mul x = .nan := by
  cases x <;> rfl

end Sys2Proof.Num

namespace Sys2Proof.Machine

@[simp] theorem scaleE8M0_FF : scaleE8M0 0xFF = .nan := if_pos rfl

theorem scaleE8M0_of_ne_FF {b : Byte} (hb : b ≠ 0xFF) : scaleE8M0 b = .fin false 1 ((b.toNat : Int) - 127) :=
  if_neg hb

/-- R68, R70: under an E8M0 scale an element is the scale's value times a value that does not depend on the scale byte. -/
theorem elemValue_E8M0 (code bits : Nat) : ∃ v : Num, ∀ b : Byte, elemValue code 1 bits b = (scaleE8M0 b).mul v :=
  ⟨_, fun _ => rfl⟩

/-- The NaN of the scale passes to the product whatever the element's own bits are, a zero among them. -/
theorem elemValue_E8M0_FF (code bits : Nat) : elemValue code 1 bits 0xFF = .nan := by
  obtain ⟨v, hv⟩ := elemValue_E8M0 code bits
  calc elemValue code 1 bits 0xFF
      _ = (scaleE8M0 0xFF).mul v := hv 0xFF
      _ = Num.nan.mul v := by rw [scaleE8M0_FF]
      _ = .nan := Num.nan_mul v

/-- Settles O59: the two cases of `scaleE8M0`, and the NaN scale carried through the product of `elemValue`. -/
theorem scaleBytesStandForPowersOfTwo : Obligations.ScaleBytesStandForPowersOfTwo := by
  unfold Obligations.ScaleBytesStandForPowersOfTwo
  exact ⟨fun _ => scaleE8M0_of_ne_FF, scaleE8M0_FF, elemValue_E8M0_FF⟩

end Sys2Proof.Machine
end

section
/-! PROOFS. Doorbells (R266): what a doorbell does with a ring that its function reaches, and what waits for a token ring's room. -/

namespace Sys2Proof.Machine

/-! ### Tables and the function registers -/

@[simp] theorem Tab.find_mapVal {α : Type} (t : Tab α) (k : Nat) (f : Nat → α → α) : (t.mapVal f).find k = (t.find k).map (f k) := by
  induction t with
  | nil => rfl
  | cons x r ih =>
    obtain ⟨j, w⟩ := x
    by_cases hj : j = k
    · subst hj; simp [mapVal, find]
    · simpa [mapVal, find, hj] using ih

/-- Every bit of HIF_ERR that exists can be set (R258). -/
theorem setErr_fnr_err_getLsbD (f : Nat) {b : Nat} (hb : b < 6) (s : State) : ((setErr f b s).fnr f).err.getLsbD b = true := by
  have h : ((setErr f b s).fnr f).err = (s.fnr f).err ||| BitVec.ofNat 6 (2 ^ b) := by
    simp [setErr, updFn, State.fnr]
  rw [h, BitVec.getLsbD_or, BitVec.getLsbD_ofNat]
  simp [hb]

/-! ### STEPs and records that wait for a token ring (R269, R274) -/

theorem wakeSteps_sq_find (n m : Nat) (s : State) :
    (wakeSteps n s).sq.find m = (s.sq.find m).map (fun q => if q.waitsFor.contains n then { q with waitsFor := [] } else q) := by
  simp only [wakeSteps, Tab.find_mapVal]

/-- R274: where no record is held for a token ring, releasing its records writes none. -/
theorem releaseHeld_of_nothing_held {q : Nat} {s : State} {r : Ring} (hr : s.tq.find q = some r) (hh : s.heldRecs.getD q [] = []) :
    releaseHeld q s = { s with heldRecs := s.heldRecs.drop q } := by
  simp [releaseHeld, hr, hh]

/-! ### The two tests of an index (R266) -/

theorem producerBad_iff (r : Ring) (v : W32) : producerBad r v = true ↔ 2 ^ r.log2 < (v - r.cons).toInt ∨ (v - r.prod).toInt < 0 := by
  simp [producerBad]

theorem consumerBad_iff (r : Ring) (v : W32) : consumerBad r v = true ↔ 0 < (v - r.prod).toInt ∨ (v - r.cons).toInt < 0 := by
  simp [consumerBad]

theorem producerBad_eq_false {r : Ring} {v : W32} (hc : (v - r.cons).toInt ≤ 2 ^ r.log2) (hp : 0 ≤ (v - r.prod).toInt) :
    producerBad r v = false := by
  rw [← Bool.not_eq_true, producerBad_iff]; omega

theorem consumerBad_eq_false {r : Ring} {v : W32} (hp : (v - r.prod).toInt ≤ 0) (hc : 0 ≤ (v - r.cons).toInt) :
    consumerBad r v = false := by
  rw [← Bool.not_eq_true, consumerBad_iff]; omega

/-! ### The outcome of a doorbell -/

section
variable {s : State} {f : Fn} {n : RingId} {v : W32} {r : Ring}
variable (hup : s.link.up = true) (hsec : isSecondary s = false) (hreach : reaches s f r.ctx = true)
include hup hsec hreach

/-- R254, R266: over a link that is up, the doorbell of a ring that its function reaches turns on the test of the index alone. -/
theorem doorbell_of_reaches (bad : Ring → Bool) (accept : Ring → State → State) :
    doorbell f (some r) bad accept s = if bad r then setErr f.val errRange s else accept r s := by
  simp [doorbell, hup, hsec, hreach]

theorem exec_ringSqTail_of_reaches (hr : s.sq.find n.val = some r) :
    exec (.ringSqTail f n v) s =
      .next (if producerBad r v then setErr f.val errRange s else { s with sq := s.sq.put n.val { r with prod := v } }) := by
  show Host.Outcome.next (doorbell f (s.sq.find n.val) _ _ s) = _
  rw [hr, doorbell_of_reaches hup hsec hreach]

theorem exec_ringCqHead_of_reaches (hr : s.cq.find n.val = some r) :
    exec (.ringCqHead f n v) s =
      .next (if consumerBad r v then setErr f.val errRange s else { s with cq := s.cq.put n.val { r with cons := v } }) := by
  show Host.Outcome.next (doorbell f (s.cq.find n.val) _ _ s) = _
  rw [hr, doorbell_of_reaches hup hsec hreach]

theorem exec_ringTqHead_of_reaches (hr : s.tq.find n.val = some r) :
    exec (.ringTqHead f n v) s =
      .next (if consumerBad r v then setErr f.val errRange s
        else wakeSteps n.val (releaseHeld n.val { s with tq := s.tq.put n.val { r with cons := v } })) := by
  show Host.Outcome.next (doorbell f (s.tq.find n.val) _ _ s) = _
  rw [hr, doorbell_of_reaches hup hsec hreach]

/-- R266, R269: an accepted doorbell of a token ring that holds no record back takes the index, writes nothing to the host, and makes the
STEPs that wait for the ring ready. -/
theorem exec_ringTqHead_accepted (hr : s.tq.find n.val = some r) (hok : consumerBad r v = false) (hheld : s.heldRecs.getD n.val [] = []) :
    ∃ u, exec (.ringTqHead f n v) s = .next u ∧ u.tq.find n.val = some { r with cons := v } ∧ u.hostOut = s.hostOut ∧
      ∀ m q, s.sq.find m = some q → u.sq.find m = some (if q.waitsFor.contains n.val then { q with waitsFor := [] } else q) := by
  have hput : (s.tq.put n.val { r with cons := v }).find n.val = some { r with cons := v } := Tab.find_put ..
  have hrel : releaseHeld n.val { s with tq := s.tq.put n.val { r with cons := v } } =
      { s with tq := s.tq.put n.val { r with cons := v }, heldRecs := s.heldRecs.drop n.val } :=
    releaseHeld_of_nothing_held hput hheld
  rw [exec_ringTqHead_of_reaches hup hsec hreach hr, hok, if_neg Bool.false_ne_true, hrel]
  refine ⟨_, rfl, hput, rfl, fun m q hq => ?_⟩
  rw [wakeSteps_sq_find]
  exact congrArg (Option.map _) hq

end

/-- Settles O15: the doorbell of a ring that its function reaches turns on the test of the index, and the test is the two bounds of R266. -/
theorem doorbellsOutOfRangeAreRefused : Obligations.DoorbellsOutOfRangeAreRefused := by
  unfold Obligations.DoorbellsOutOfRangeAreRefused
  intro s f n v r hup hsec hreach
  refine ⟨fun hr hv => ?sqBad, fun hr hv => ?cqBad, fun hr hv => ?tqBad, fun hr hc hp => ?sqOk, fun hr hp hc => ?cqOk,
    fun hr hp hc hheld => ?tqOk, rfl, rfl, rfl, ?errBit⟩
  case sqBad => rw [exec_ringSqTail_of_reaches hup hsec hreach hr, if_pos ((producerBad_iff r v).2 hv)]
  case cqBad => rw [exec_ringCqHead_of_reaches hup hsec hreach hr, if_pos ((consumerBad_iff r v).2 hv)]
  case tqBad => rw [exec_ringTqHead_of_reaches hup hsec hreach hr, if_pos ((consumerBad_iff r v).2 hv)]
  case sqOk => rw [exec_ringSqTail_of_reaches hup hsec hreach hr, producerBad_eq_false hc hp, if_neg Bool.false_ne_true]
  case cqOk => rw [exec_ringCqHead_of_reaches hup hsec hreach hr, consumerBad_eq_false hp hc, if_neg Bool.false_ne_true]
  case tqOk => exact exec_ringTqHead_accepted hup hsec hreach hr (consumerBad_eq_false hp hc) hheld
  case errBit => exact setErr_fnr_err_getLsbD f.val (by decide) s

end Sys2Proof.Machine
end
